-- ==== Sys2Proof/Word.lean ====
section
/-! DEFINITION. The byte of a frame, and the indices of the part's numbered records. -/

namespace Sys2Proof

/-- One byte of a frame on a link (R186). -/
abbrev Byte := BitVec 8

/-- A channel number, which is also its drive port's number (00_scope.md, "Names and numbering"). -/
abbrev Chan := Fin 16

/-- A group number, which is also its cue queue's number. -/
abbrev Grp := Fin 8

/-- A track number. -/
abbrev Trk := Fin 2

/-- Every channel number, ascending. -/
def allChans : List Chan := [0, 1, 2, 3, 4, 5, 6, 7, 8, 9, 10, 11, 12, 13, 14, 15]

/-- Every group number, ascending: "in group order". -/
def allGroups : List Grp := [0, 1, 2, 3, 4, 5, 6, 7]

/-- Both track numbers. -/
def allTracks : List Trk := [0, 1]

end Sys2Proof
end

