-- ==== Sys2Proof/Syntax.lean ====
section
/-! DEFINITION. The part's commands: one constructor per row of spec/opcode_table.json.

A request row carries the link that received the frame, the frame's tier byte and its body bytes (log 2): the frame
has passed R169 and is addressed to this rack. Every other row is an event with what it brings. -/

namespace Sys2Proof

/-- The two links (R169, 00_scope.md). -/
inductive Link where
  | a | b
  deriving DecidableEq, Repr

/-- The link that is not this one. -/
def Link.other : Link → Link
  | .a => .b
  | .b => .a

/-- One feedback sample of a drive port (1.3, R4): the raw count in mm, the load in kg, each final limit switch
(open is true) and the drive fault flag. -/
structure Sample where
  raw : Int
  load : Nat
  upperOpen : Bool
  lowerOpen : Bool
  driveFault : Bool
  deriving DecidableEq, Repr

/-- The straps as sampled (R165): RACK_ID 0 to 15; CHANNELS 16 (true) or 8; LOCKOUT set; PENDANT_FLOOR 3 (true) or 1. -/
structure Straps where
  rackId : Fin 16
  sixteen : Bool
  lockout : Bool
  floorThree : Bool
  deriving DecidableEq, Repr

/-- The commands. The comment of each group names the rules its rows stand for. -/
inductive Instr where
  -- R173, R176, R161, R177: requests of the links' own matters
  | identify (link : Link) (tier : Byte) (body : List Byte)
  | heartbeat (link : Link) (tier : Byte) (body : List Byte)
  | setWatchdog (link : Link) (tier : Byte) (body : List Byte)
  -- R154, R157, R170, R158, R166: mode, halt, resume, reset
  | setMode (link : Link) (tier : Byte) (body : List Byte)
  | halt (link : Link) (tier : Byte) (body : List Byte)
  | broadcastHalt (link : Link) (tier : Byte) (body : List Byte)
  | resume (link : Link) (tier : Byte) (body : List Byte)
  | reset (link : Link) (tier : Byte) (body : List Byte)
  | setNotices (link : Link) (tier : Byte) (body : List Byte)
  -- R19, R20, R40 to R42, R21: channel requests
  | configureChannel (link : Link) (tier : Byte) (body : List Byte)
  | setPosition (link : Link) (tier : Byte) (body : List Byte)
  | claim (link : Link) (tier : Byte) (body : List Byte)
  | release (link : Link) (tier : Byte) (body : List Byte)
  | releaseForce (link : Link) (tier : Byte) (body : List Byte)
  | jog (link : Link) (tier : Byte) (body : List Byte)
  -- R106, R90: clearing faults
  | clearFaultSpan (link : Link) (tier : Byte) (body : List Byte)
  | clearFaultGroup (link : Link) (tier : Byte) (body : List Byte)
  -- R56, R57: group definitions
  | defineGroup (link : Link) (tier : Byte) (body : List Byte)
  | deleteGroup (link : Link) (tier : Byte) (body : List Byte)
  -- R117, R87, R86, R89, R128: cues and moves
  | queueCue (link : Link) (tier : Byte) (body : List Byte)
  | go (link : Link) (tier : Byte) (body : List Byte)
  | stop (link : Link) (tier : Byte) (body : List Byte)
  | cancel (link : Link) (tier : Byte) (body : List Byte)
  | flushCues (link : Link) (tier : Byte) (body : List Byte)
  -- R130: the show clock
  | setClockSet (link : Link) (tier : Byte) (body : List Byte)
  | setClockStart (link : Link) (tier : Byte) (body : List Byte)
  | setClockHold (link : Link) (tier : Byte) (body : List Byte)
  -- R137 to R148: tracks
  | bindTrack (link : Link) (tier : Byte) (body : List Byte)
  | unbindTrack (link : Link) (tier : Byte) (body : List Byte)
  | feedTrack (link : Link) (tier : Byte) (body : List Byte)
  | playTrack (link : Link) (tier : Byte) (body : List Byte)
  | stopTrack (link : Link) (tier : Byte) (body : List Byte)
  -- R180, R181, R183 to R185: snapshots and readback
  | latch (link : Link) (tier : Byte) (body : List Byte)
  | readSnapshot (link : Link) (tier : Byte) (body : List Byte)
  | readGroup (link : Link) (tier : Byte) (body : List Byte)
  | readCues (link : Link) (tier : Byte) (body : List Byte)
  | readTrack (link : Link) (tier : Byte) (body : List Byte)
  -- R28: a kind code that is no request of the part
  | unknownKind (link : Link) (kind : Byte) (tier : Byte) (body : List Byte)
  -- R169 to R171: frames
  | frameCrcError (link : Link)
  | frameLengthError (link : Link)
  | frameGapTimeout (link : Link)
  | frameIgnored (link : Link)
  | frameOverrun (link : Link)
  | replySent (link : Link)
  -- R162: link silence
  | watchdogExpiry (link : Link)
  -- R5, R6, R11, R15, R16, R98, R23: drive ports and channels
  | feedbackArrival (chan : Chan) (sample : Sample)
  | feedbackTimerExpiry (chan : Chan)
  | confirmTimerExpiry (chan : Chan)
  | standstillTimerExpiry (chan : Chan)
  | settleTimerExpiry (chan : Chan)
  | progressTimerExpiry (chan : Chan)
  | jogLeaseExpiry (chan : Chan)
  -- R69, R119, R120, R129, R146, R147: groups, queues, clock, tracks
  | controlPeriod (group : Grp)
  | dwellExpiry (group : Grp)
  | markReached (group : Grp)
  | showClockSaturate
  | segmentTimerExpiry (track : Trk)
  | starvationTimerExpiry (track : Trk)
  -- R156, R152: input levels
  | emergencyStopAssert
  | emergencyStopRelease
  | powerGoodAbsent
  | powerGoodPresent
  | powerGoodTimerExpiry
  -- R166: resets
  | powerOnReset (straps : Straps) (estop : Bool) (powerGood : Bool)
  | lineResetAssert
  | lineResetRelease
  | commandReset
  -- R169: the sync byte
  | frameStart (link : Link)
  deriving DecidableEq, Repr

end Sys2Proof
end

