-- ==== Sys2Proof/Decode.lean ====
section
/-! DEFINITION. The opcode table gives no row any bits: a command is an event of a bus or a pin, and no word spells one. -/

namespace Sys2Proof

/-- The command a word spells by the table's bits: none, since no row of spec/opcode_table.json has bits (log 24). -/
def decodeTableWord (_nbits _w : Nat) : Option Instr := none

end Sys2Proof
end

