-- ==== Sys2Proof/Config.lean ====
section
/-! DEFINITION. The part's constants as the manual gives them, and the free values it leaves open. -/

namespace Sys2Proof.Config

/-- R4: the feedback timer, ms. -/
def feedbackMs : Nat := 50
/-- R10, R11: the confirm timer, ms. -/
def confirmMs : Nat := 600
/-- R12, R15: the standstill timer, ms. -/
def standstillMs : Nat := 2000
/-- R16: the settle timer, ms. -/
def settleMs : Nat := 2000
/-- R98: the progress timer, ms. -/
def progressMs : Nat := 600
/-- R21: a jog's lease, ms. -/
def leaseMs : Nat := 300
/-- R69: the control period, ms. -/
def controlMs : Nat := 20
/-- R147: the starvation timer, ms. -/
def starvationMs : Nat := 10000
/-- R152: the power-good timer, ms. -/
def powerGoodMs : Nat := 100

/-- R11, R98: the travel that confirms motion or counts as progress, mm. -/
def confirmMm : Int := 3
/-- R96: the travel against the commanded direction that detects REVERSED, mm. -/
def reversedMm : Int := 10
/-- R97: the distance from rest beyond which a channel at rest detects RUNAWAY, mm. -/
def runawayMm : Nat := 20
/-- R66, R75: the arrival band, mm. -/
def arrivalMm : Nat := 5
/-- R13: the spread of three raw counts that is still standstill, mm. -/
def standstillMm : Int := 2
/-- R2, R64: the largest position, mm. -/
def maxPosition : Nat := 60000
/-- R4: the largest load a port delivers, kg. -/
def maxLoad : Nat := 9999
/-- R129: the last value of the show clock, ms. -/
def clockMax : Nat := 4294967295
/-- R114: the most cues a queue holds. -/
def maxCues : Nat := 8
/-- R135: the most waypoints a track holds. -/
def maxWaypoints : Nat := 32
/-- R169: the longest body of a valid frame. -/
def maxBody : Nat := 240
/-- R181: the most members a READ_SNAPSHOT span has. -/
def maxSnapshot : Nat := 8

/-- FREE VALUE (log 7). The direction output of a safe drive port (true is UP): R7 gives a safe port a set brake, run off
and demand 0, and says nothing of its direction. Applied to the channel number and the draws counter. -/
opaque safeDirection : Nat → Nat → Bool

/-- FREE VALUE (log 6). Whether a playing group takes a halt before its track buffer does: R149 "whichever ... a group
takes first". Applied to the draws counter. -/
opaque groupBeforeTrack : Nat → Bool

/-- FREE VALUE (log 5). Where one of several things that come together is put among the others, when the manual
gives them no order. Applied to the draws counter. -/
opaque freePlace : Nat → Nat

/-- FREE VALUE (log 8). The byte READ_GROUP sends for the bound track of a group that has none. -/
opaque noTrackByte : Byte

/-- FREE VALUE (log 8). The three bytes READ_GROUP sends for a group fault record that is absent. -/
opaque noGroupFault : Byte × Byte × Byte

/-- FREE VALUE (log 23). What a 24-bit millimetre field carries for a number that does not fit it. -/
opaque unfit24 : Int → BitVec 24

end Sys2Proof.Config
end

