-- ==== Sys2Proof/Machine/State.lean ====
section
/-! DEFINITION. The state of the part, block by block as the manual lists it, and the state after power-on reset. -/

namespace Sys2Proof.Machine

/-! ### Named values -/

/-- R151: the device modes. -/
inductive DeviceMode where
  | parked | standby | armed | halted
  deriving DecidableEq, Repr

/-- R2: the channel kinds. -/
inductive ChannelKind where
  | absent | fixedSpeed | variableSpeed
  deriving DecidableEq, Repr

/-- 1.4: the channel states. -/
inductive ChannelState where
  | absent | idle | starting | moving | holding | stopping | faulted
  deriving DecidableEq, Repr

/-- UP or DOWN. -/
inductive Dir where
  | up | down
  deriving DecidableEq, Repr

/-- R92: the eleven fault kinds, in the order of their codes (R187). -/
inductive FaultKind where
  | finalLimit | driveFault | overload | slack | reversed | runaway | stall | feedbackLost | loadShift | syncLost | trackLag
  deriving DecidableEq, Repr

/-- R8: the one thing entitled to move a channel. -/
inductive Mover where
  | none
  | group (g : Grp)
  | jog (l : Link)
  deriving DecidableEq, Repr

/-- A timer: stopped, or running with the milliseconds left (log 3). -/
abbrev Timer := Option Nat

/-- R27: the result codes. LATE is seen in notices only. -/
inductive Result where
  | ok | unknown | format | range | mode | tier | claim | unreferenced | state | limit | capacity | late
  deriving DecidableEq, Repr

/-! ### The Channel Table -/

/-- R2: the configuration fields of a channel. -/
structure ChannelConfig where
  nominalSpeed : Nat
  jogSpeed : Nat
  softLower : Nat
  softUpper : Nat
  wll : Nat
  overloadPct : Nat
  underload : Nat
  watchBand : Nat
  guardTier : Nat
  deriving DecidableEq, Repr

/-- R101: a channel's fault record. The further-fault set is held in code order without repeats. -/
structure FaultRecord where
  first : FaultKind
  position : Option Int
  load : Nat
  further : List FaultKind
  deriving DecidableEq, Repr

/-- 10.1: a status record. -/
structure StatusRecord where
  state : ChannelState
  owner : Option Link
  mover : Mover
  referenced : Bool
  fault : Option FaultRecord
  stamp : Nat
  deriving DecidableEq, Repr

/-- 10.1: a position record. -/
structure PositionRecord where
  position : Option Int
  raw : Int
  load : Nat
  stamp : Nat
  deriving DecidableEq, Repr

/-- R10: a release waiting for standstill. -/
structure PendingRelease where
  direction : Dir
  demand : Nat
  deriving DecidableEq, Repr

/-- R21: a jog's direction and what is left of its lease. -/
structure JogRecord where
  direction : Dir
  lease : Nat
  deriving DecidableEq, Repr

/-- R98: the progress timer, whose expiry alone detects nothing. -/
inductive ProgressTimer where
  | stopped
  | running (left : Nat)
  | expired
  deriving DecidableEq, Repr

/-- 1.1 and 5.2: a channel record with its detector state and its timers. The position is computed from raw count, offset
and reference (R3). -/
structure Channel where
  kind : ChannelKind
  config : ChannelConfig
  raw : Int
  offset : Int
  referenced : Bool
  load : Nat
  upperOpen : Bool
  lowerOpen : Bool
  driveFault : Bool
  /-- The raw counts of up to three most recent samples, newest first (R5, R13). -/
  history : List Int
  state : ChannelState
  direction : Option Dir
  demand : Nat
  confirmMark : Option Int
  pendingRelease : Option PendingRelease
  /-- The rest position, a raw count (R13). -/
  rest : Int
  settling : Bool
  mover : Mover
  jog : Option JogRecord
  owner : Option Link
  fault : Option FaultRecord
  watchBaseline : Option Nat
  statusSlot : Option StatusRecord
  positionSlot : Option PositionRecord
  releaseOnEnd : Bool
  confirmTimer : Timer
  standstillTimer : Timer
  settleTimer : Timer
  reversalExtreme : Option Int
  watchArmed : Bool
  progressMark : Option Int
  progressTimer : ProgressTimer
  deriving DecidableEq, Repr

/-! ### Drive ports -/

/-- R7: a drive port's outputs. -/
structure PortOutput where
  brakeReleased : Bool
  run : Bool
  direction : Dir
  demand : Nat
  deriving DecidableEq, Repr

/-- R4, R7: a drive port. arrivedSinceLoss tells whether a sample has arrived since the latest expiry of the feedback timer,
which R104 asks for. -/
structure Port where
  sample : Sample
  feedbackTimer : Timer
  arrivedSinceLoss : Bool
  output : PortOutput
  deriving DecidableEq, Repr

/-! ### Group engines -/

/-- 3.3: a lane's sign. -/
inductive Sign where
  | follow | oppose | hold
  deriving DecidableEq, Repr

/-- 3.3: one lane of a group. -/
structure Lane where
  channel : Chan
  sign : Sign
  ratio : Nat
  deriving DecidableEq, Repr

/-- 3.2: the group states. -/
inductive GroupState where
  | empty | idle | preparing | running | stopping | held | faulted
  deriving DecidableEq, Repr

/-- 4.1: the lane states of a move. -/
inductive LaneState where
  | driving | trimmed | arrived
  deriving DecidableEq, Repr

/-- 4.1: the stop reasons. -/
inductive StopReason where
  | complete | request | fault | halt | silence
  deriving DecidableEq, Repr

/-- 4.1: what a move came from. -/
inductive MoveSource where
  | cue (number : Nat)
  | track (t : Trk)
  deriving DecidableEq, Repr

/-- 4.1: a lane's entry in the move record. full is the demand a TRIMMED lane returns to (R71). -/
structure LaneRecord where
  start : Int
  target : Int
  travel : Int
  baseline : Nat
  state : LaneState
  confirmed : Bool
  demand : Nat
  full : Nat
  deriving DecidableEq, Repr

/-- 4.1: the move record, its lanes in lane order. -/
structure MoveRecord where
  origin : Link
  tier : Nat
  source : MoveSource
  speed : Option Nat
  reason : Option StopReason
  lanes : List LaneRecord
  deriving DecidableEq, Repr

/-- 3.1: the first cause of a group's fault. -/
inductive GroupFault where
  | syncLost (lane : Nat)
  | loadShift (lane : Nat)
  | memberFault (channel : Chan) (kind : FaultKind)
  | stall (lane : Nat)
  | trackLag (lane : Nat)
  deriving DecidableEq, Repr

/-- 3.1: a group record with its control-period timer. -/
structure Group where
  state : GroupState
  lanes : List Lane
  syncWindow : Nat
  levelLimit : Nat
  loadTolerance : Nat
  lateGrace : Nat
  boundTrack : Option Trk
  move : Option MoveRecord
  held : Bool
  fault : Option GroupFault
  controlTimer : Timer
  deriving DecidableEq, Repr

/-! ### Cue queues and the show clock -/

/-- R112: how a cue gives its travel: D, or the target T of lane 0. -/
inductive CueForm where
  | relative (travel : Int)
  | absolute (target : Nat)
  deriving DecidableEq, Repr

/-- R112: what fires a cue. -/
inductive Trigger where
  | onGo
  | afterPrevious (dwell : Nat)
  | atMark (mark : Nat)
  deriving DecidableEq, Repr

/-- R112: a cue record. -/
structure Cue where
  number : Nat
  form : CueForm
  speed : Nat
  trigger : Trigger
  tier : Nat
  origin : Link
  deriving DecidableEq, Repr

/-- R114: the arming states. -/
inductive Arming where
  | none | dwelling | awaitingMark
  deriving DecidableEq, Repr

/-- R114: a cue queue, oldest cue first. -/
structure CueQueue where
  cues : List Cue
  blocked : Bool
  arming : Arming
  dwellTimer : Timer
  deriving DecidableEq, Repr

/-- R129: the show clock. -/
structure ShowClock where
  value : Nat
  running : Bool
  deriving DecidableEq, Repr

/-! ### Track buffers -/

/-- 7.1: a waypoint. -/
structure Waypoint where
  offset : Int
  duration : Nat
  last : Bool
  deriving DecidableEq, Repr

/-- 7.1: the track states. -/
inductive TrackState where
  | empty | loaded | playing | starved
  deriving DecidableEq, Repr

/-- 7.1: a track record. The three sets are held in group order without repeats; origins are by group, then by lane. -/
structure Track where
  state : TrackState
  waypoints : List Waypoint
  owner : Option Link
  bound : List Grp
  playing : List Grp
  arrived : List Grp
  origins : Vector (Option (List Int)) 8
  current : Option Waypoint
  closing : Bool
  tier : Option Nat
  segmentTimer : Timer
  starvationTimer : Timer
  deriving DecidableEq, Repr

/-! ### Notices -/

/-- 9.3: a (source, index) pair that a link can hold. The LINK pair is the link's own. -/
inductive NoticePair where
  | mode
  | link
  | channelFault (c : Chan)
  | group (g : Grp)
  | track (t : Trk)
  | loadWatch (c : Chan)
  deriving DecidableEq, Repr

/-- R151: the cause of a mode change, with what it carries. -/
inductive ModeCause where
  | request | resume
  | wake (source : NoticePair)
  | silence | emergencyStop | haltRequest
  | deviceFault (c : Chan)
  | powerLoss | reset
  deriving DecidableEq, Repr

/-- 9.3, R190: an event code with its data. -/
inductive Event where
  | modeChange (new old : DeviceMode) (cause : ModeCause)
  | linkSilent
  | fault (k : FaultKind)
  | cueDone (number : Nat)
  | cueRefused (number : Nat) (code : Result) (index : Byte)
  | cueLate (number : Nat)
  | groupHeld
  | groupFaulted (cause : GroupFault)
  | trackStarved | trackEnded | trackStopped
  | trackLag (g : Grp) (lane : Nat)
  | loadWatch (load : Nat)
  deriving DecidableEq, Repr

/-- R174: the last-event codes of the device's pairs; none is NONE. -/
structure EventCodes where
  mode : Option Event
  faults : Vector (Option Event) 16
  groups : Vector (Option Event) 8
  tracks : Vector (Option Event) 2
  watches : Vector (Option Event) 16
  deriving DecidableEq, Repr

/-- R175: one enable per source kind. -/
structure Enables where
  mode : Bool
  link : Bool
  channelFault : Bool
  group : Bool
  track : Bool
  loadWatch : Bool
  deriving DecidableEq, Repr

/-! ### Link interfaces -/

/-- R169: the frame assembler. While it assembles a frame it holds the bytes that came after the frame's A5h. -/
inductive Assembler where
  | hunting
  | assembling (received : List Byte)
  deriving DecidableEq, Repr

/-- 8.6: the watchdog states. -/
inductive WatchdogState where
  | off | running | expired
  deriving DecidableEq, Repr

/-- 8.6: a link's watchdog. -/
structure Watchdog where
  period : Nat
  state : WatchdogState
  timer : Timer
  deriving DecidableEq, Repr

/-- R172: a reply as composed: the frame's fields but its length and CRC (R186). The address is the rack's RACK_ID. -/
structure Reply where
  address : Fin 16
  kind : Byte
  result : Result
  status : Byte
  index : Byte
  data : List Byte
  deriving DecidableEq, Repr

/-- Chapter 9: a link interface. answering holds the reply from the taking of its request until its last byte is sent
(R171). overrunSince tells whether a frame was discarded for overrun since that reply was composed (log 9). -/
structure LinkIf where
  assembler : Assembler
  answering : Option Reply
  overrun : Bool
  overrunSince : Bool
  watchdog : Watchdog
  pending : List NoticePair
  reports : Enables
  lastLink : Option Event
  attention : Bool
  deriving DecidableEq, Repr

/-! ### The Mode Controller -/

/-- R167: the reset causes. -/
inductive ResetCause where
  | powerOn | line | command
  deriving DecidableEq, Repr

/-- Chapter 8: the Mode Controller. held is set while the RESET input holds the part in line reset; resetDue while an
accepted RESET's reply is being sent (R166). -/
structure ModeCtl where
  mode : DeviceMode
  mainPower : Bool
  estop : Bool
  powerGood : Bool
  powerGoodTimer : Timer
  straps : Straps
  resetCause : ResetCause
  fromParked : Bool
  wakes : Enables
  silenceDisarm : Bool
  held : Bool
  resetDue : Bool
  deriving DecidableEq, Repr

/-! ### The part -/

/-- The part: its blocks, and the model's own count of free values drawn (logs 5 to 7). -/
structure Part where
  channels : Vector Channel 16
  ports : Vector Port 16
  groups : Vector Group 8
  queues : Vector CueQueue 8
  clock : ShowClock
  tracks : Vector Track 2
  linkA : LinkIf
  linkB : LinkIf
  codes : EventCodes
  ctl : ModeCtl
  draws : Nat
  deriving DecidableEq, Repr

/-- The machine: the part, and the commands waiting for it, first in first out. -/
structure State where
  part : Part
  pending : List Instr
  deriving DecidableEq, Repr

/-- No command stops the part (INVENTORY.md, Faults), so there is no reason to stop with. -/
inductive Fault where
  deriving DecidableEq, Repr

/-- The host's refusal of a command that has no meaning yet. No arm of exec uses it. -/
inductive Refusal where
  /-- Raised by exec for a command without a meaning; safe, since the machine stops there. -/
  | notModelled (mnemonic : String)
  deriving DecidableEq, Repr

/-! ### Power-on values -/

/-- R2: the power-on configuration. -/
def ChannelConfig.powerOn : ChannelConfig :=
  { nominalSpeed := 40, jogSpeed := 20, softLower := 0, softUpper := 60000, wll := 1000, overloadPct := 125,
    underload := 20, watchBand := 50, guardTier := 7 }

/-- R24: a channel record at power-on. -/
def Channel.powerOn : Channel :=
  { kind := .absent, config := ChannelConfig.powerOn, raw := 0, offset := 0, referenced := false, load := 0,
    upperOpen := false, lowerOpen := false, driveFault := false, history := [], state := .absent, direction := none,
    demand := 0, confirmMark := none, pendingRelease := none, rest := 0, settling := false, mover := .none, jog := none,
    owner := none, fault := none, watchBaseline := none, statusSlot := none, positionSlot := none, releaseOnEnd := false,
    confirmTimer := none, standstillTimer := none, settleTimer := none, reversalExtreme := none, watchArmed := false,
    progressMark := none, progressTimer := .stopped }

/-- R4: the latest sample before the first arrival. -/
def Sample.powerOn : Sample :=
  { raw := 0, load := 0, upperOpen := false, lowerOpen := false, driveFault := false }

/-- R7: a port that becomes safe. Its direction is a free value (log 7). -/
def PortOutput.safe (c draws : Nat) : PortOutput :=
  { brakeReleased := false, run := false,
    direction := if Config.safeDirection c draws then .up else .down, demand := 0 }

/-- R24: a drive port at power-on, its feedback timer not yet started. -/
def Port.powerOn (c draws : Nat) : Port :=
  { sample := Sample.powerOn, feedbackTimer := none, arrivedSinceLoss := true, output := PortOutput.safe c draws }

/-- R60: a group record at power-on. -/
def Group.powerOn : Group :=
  { state := .empty, lanes := [], syncWindow := 50, levelLimit := 200, loadTolerance := 25, lateGrace := 0,
    boundTrack := none, move := none, held := false, fault := none, controlTimer := none }

/-- R133: a cue queue after any reset. -/
def CueQueue.clear : CueQueue :=
  { cues := [], blocked := false, arming := .none, dwellTimer := none }

/-- R134: a track record after any reset. -/
def Track.clear : Track :=
  { state := .empty, waypoints := [], owner := none, bound := [], playing := [], arrived := [],
    origins := Vector.replicate 8 none, current := none, closing := false, tier := none, segmentTimer := none,
    starvationTimer := none }

/-- R174: every last-event code NONE. -/
def EventCodes.none : EventCodes :=
  { mode := Option.none, faults := Vector.replicate 16 Option.none, groups := Vector.replicate 8 Option.none,
    tracks := Vector.replicate 2 Option.none, watches := Vector.replicate 16 Option.none }

/-- R175: Link A's report enables at power-on. -/
def Enables.all : Enables :=
  { mode := true, link := true, channelFault := true, group := true, track := true, loadWatch := true }

/-- R175: Link B's report enables at power-on. -/
def Enables.pendant : Enables :=
  { mode := true, link := true, channelFault := true, group := false, track := false, loadWatch := false }

/-- R159: the wake enables at power-on. -/
def Enables.wake : Enables :=
  { mode := false, link := false, channelFault := true, group := false, track := false, loadWatch := true }

/-- 8.6, R169, R175: a link interface at power-on, with its report enables. -/
def LinkIf.powerOn (reports : Enables) : LinkIf :=
  { assembler := .hunting, answering := none, overrun := false, overrunSince := false,
    watchdog := { period := 0, state := .off, timer := none }, pending := [], reports := reports, lastLink := none,
    attention := false }

/-- Log 1: the straps State.reset is sampled with. DESIGN CHOICE, unsafe. -/
def Straps.chosen : Straps := { rackId := 0, sixteen := true, lockout := false, floorThree := false }

/-- R167: the MODE event of a power-on reset that ends in STANDBY. -/
def resetEvent : Event := .modeChange .standby .parked .reset

/-- The drive ports of State.reset: the feedback timers of all sixteen channels run (R24; sixteen by log 1). -/
def resetPort (c : Nat) : Port := { Port.powerOn c 0 with feedbackTimer := some 50 }

/-- The part right after power-on reset (R24, R60, R129, R133, R134, R165 to R167, R174, R175), on a rack with the straps
and input levels of log 1. The test powerOnReset_gives_reset shows that POWER_ON_RESET leaves this state. -/
def Part.reset : Part :=
  { channels := Vector.replicate 16 Channel.powerOn
    ports := #v[resetPort 0, resetPort 1, resetPort 2, resetPort 3, resetPort 4, resetPort 5, resetPort 6, resetPort 7,
      resetPort 8, resetPort 9, resetPort 10, resetPort 11, resetPort 12, resetPort 13, resetPort 14, resetPort 15]
    groups := Vector.replicate 8 Group.powerOn
    queues := Vector.replicate 8 CueQueue.clear
    clock := { value := 0, running := false }
    tracks := Vector.replicate 2 Track.clear
    linkA := { LinkIf.powerOn Enables.all with pending := [.mode], attention := true }
    linkB := { LinkIf.powerOn Enables.pendant with pending := [.mode], attention := true }
    codes := { EventCodes.none with mode := some resetEvent }
    ctl := { mode := .standby, mainPower := true, estop := false, powerGood := true, powerGoodTimer := none,
             straps := Straps.chosen, resetCause := .powerOn, fromParked := false, wakes := Enables.wake,
             silenceDisarm := false, held := false, resetDue := false }
    draws := 1 }

/-- The machine right after reset: no command is waiting. -/
def State.reset : State := { part := Part.reset, pending := [] }

end Sys2Proof.Machine
end

