-- ==== Sys2Proof/Machine/Ops.lean ====
section
/-! DEFINITION. The named operations over the part's records: reading and writing them, raising events, changing the device
mode, and what a release, a stop and the end of a mover do to one channel. -/

namespace Sys2Proof.Machine

/-! ### Reading and writing records -/

def Part.chan (p : Part) (c : Chan) : Channel := p.channels[c]
def Part.setChan (p : Part) (c : Chan) (x : Channel) : Part := { p with channels := p.channels.set c x }
def Part.modChan (p : Part) (c : Chan) (f : Channel → Channel) : Part := p.setChan c (f (p.chan c))

def Part.port (p : Part) (c : Chan) : Port := p.ports[c]
def Part.setPort (p : Part) (c : Chan) (x : Port) : Part := { p with ports := p.ports.set c x }
def Part.modPort (p : Part) (c : Chan) (f : Port → Port) : Part := p.setPort c (f (p.port c))

def Part.group (p : Part) (g : Grp) : Group := p.groups[g]
def Part.setGroup (p : Part) (g : Grp) (x : Group) : Part := { p with groups := p.groups.set g x }
def Part.modGroup (p : Part) (g : Grp) (f : Group → Group) : Part := p.setGroup g (f (p.group g))

def Part.queue (p : Part) (g : Grp) : CueQueue := p.queues[g]
def Part.setQueue (p : Part) (g : Grp) (x : CueQueue) : Part := { p with queues := p.queues.set g x }
def Part.modQueue (p : Part) (g : Grp) (f : CueQueue → CueQueue) : Part := p.setQueue g (f (p.queue g))

def Part.track (p : Part) (t : Trk) : Track := p.tracks[t]
def Part.setTrack (p : Part) (t : Trk) (x : Track) : Part := { p with tracks := p.tracks.set t x }
def Part.modTrack (p : Part) (t : Trk) (f : Track → Track) : Part := p.setTrack t (f (p.track t))

def Part.link (p : Part) (l : Link) : LinkIf :=
  match l with
  | .a => p.linkA
  | .b => p.linkB

def Part.setLink (p : Part) (l : Link) (x : LinkIf) : Part :=
  match l with
  | .a => { p with linkA := x }
  | .b => { p with linkB := x }

def Part.modLink (p : Part) (l : Link) (f : LinkIf → LinkIf) : Part := p.setLink l (f (p.link l))

def Part.modCtl (p : Part) (f : ModeCtl → ModeCtl) : Part := { p with ctl := f p.ctl }

/-- Takes f over the members of a list in order. -/
def Part.forEach {α : Type} (p : Part) (l : List α) (f : Part → α → Part) : Part := l.foldl f p

/-- R1: the channel count of the CHANNELS strap. -/
def Part.chanCount (p : Part) : Nat := if p.ctl.straps.sixteen then 16 else 8

/-- R1: a channel exists when its number is below the channel count. -/
def Part.hasChan (p : Part) (c : Chan) : Bool := c.val < p.chanCount

/-- R32: the floor tier of a link. -/
def Part.floor (p : Part) (l : Link) : Nat :=
  match l with
  | .a => 0
  | .b => if p.ctl.straps.floorThree then 3 else 1

/-! ### Sets held as lists in a fixed order -/

/-- The fault kinds in the order of their codes (R187). -/
def FaultKind.all : List FaultKind :=
  [.finalLimit, .driveFault, .overload, .slack, .reversed, .runaway, .stall, .feedbackLost, .loadShift, .syncLost, .trackLag]

/-- Enters a kind in a further-fault set. -/
def addKind (k : FaultKind) (l : List FaultKind) : List FaultKind :=
  FaultKind.all.filter fun x => x == k || l.contains x

/-- Enters a group in a set of groups. -/
def addGroup (g : Grp) (l : List Grp) : List Grp := allGroups.filter fun x => x == g || l.contains x

/-- Takes a group out of a set of groups. -/
def dropGroup (g : Grp) (l : List Grp) : List Grp := l.filter fun x => x != g

/-- R176: every pair a link can hold, in the order HEARTBEAT delivers them. -/
def NoticePair.all : List NoticePair :=
  [.mode, .link] ++ allChans.map .channelFault ++ allGroups.map .group ++ allTracks.map .track ++ allChans.map .loadWatch

/-- R175: enters a pair in a pending set; a pair already in it leaves the set unchanged. -/
def addPair (q : NoticePair) (l : List NoticePair) : List NoticePair :=
  if l.contains q then l else NoticePair.all.filter fun x => x == q || l.contains x

/-- R175: the enable of a pair's source kind. -/
def Enables.has (e : Enables) (q : NoticePair) : Bool :=
  match q with
  | .mode => e.mode
  | .link => e.link
  | .channelFault _ => e.channelFault
  | .group _ => e.group
  | .track _ => e.track
  | .loadWatch _ => e.loadWatch

/-! ### One channel -/

/-- Raw count plus offset: the position while the channel is REFERENCED (R3). -/
def Channel.pos (x : Channel) : Int := x.raw + x.offset

/-- R3: the position, absent while UNREFERENCED. -/
def Channel.position (x : Channel) : Option Int := if x.referenced then some x.pos else none

/-- A channel is configured when its kind is not ABSENT. -/
def Channel.configured (x : Channel) : Bool := x.kind != .absent

/-- R7: the states in which a brake may be released. -/
def Channel.live (x : Channel) : Bool := x.state == .starting || x.state == .moving

/-- R13: the test of standstill on a history. -/
def atStandstill (h : List Int) : Bool :=
  match h with
  | [a, b, c] => max a (max b c) - min a (min b c) ≤ Config.standstillMm
  | _ => false

/-- R101: a fault record holds a kind as its first kind or in its further-fault set. -/
def FaultRecord.holds (r : FaultRecord) (k : FaultKind) : Bool := r.first == k || r.further.contains k

/-- A channel's fault record, if any, holds a kind. -/
def Channel.holdsFault (x : Channel) (k : FaultKind) : Bool :=
  match x.fault with
  | some r => r.holds k
  | none => false

/-- R92: the kinds of DEVICE scope. -/
def FaultKind.isDevice (k : FaultKind) : Bool := k == .runaway || k == .finalLimit

/-- R92: a channel's record holds RUNAWAY or FINAL_LIMIT. -/
def Channel.deviceFault (x : Channel) : Bool := x.holdsFault .runaway || x.holdsFault .finalLimit

/-- R98: the progress watch is active while armed and the channel MOVING. Becoming active sets the mark and starts the
timer; ceasing to be active stops it. -/
def Channel.syncWatch (x : Channel) : Channel :=
  if x.watchArmed && x.state == .moving then
    match x.progressTimer with
    | .stopped => { x with progressMark := some x.raw, progressTimer := .running Config.progressMs }
    | .running _ => x
    | .expired => x
  else { x with progressMark := none, progressTimer := .stopped }

/-- R98: a mover arms or disarms the progress watch. -/
def Channel.armWatch (on : Bool) (x : Channel) : Channel := ({ x with watchArmed := on } : Channel).syncWatch

/-- R12, R17: what puts a channel in STOPPING: direction, confirm mark and pending release discarded, confirm timer
stopped (R11), history emptied, standstill timer started; the reversal extreme goes with the direction (R96). -/
def Channel.toStopping (x : Channel) : Channel :=
  ({ x with state := .stopping, direction := none, confirmMark := none, pendingRelease := none, confirmTimer := none,
            history := [], standstillTimer := some Config.standstillMs, reversalExtreme := none } : Channel).syncWatch

/-- R12: a stop from the mover. -/
def Channel.stop (x : Channel) : Channel :=
  match x.state with
  | .starting | .moving => x.toStopping
  | .stopping => { x with pendingRelease := none }
  | .absent | .idle | .holding | .faulted => x

/-- R10: the demand a release gives: capped at the nominal speed, 0 for a FIXED channel. -/
def Channel.capDemand (x : Channel) (demand : Nat) : Nat :=
  if x.kind == .variableSpeed then min demand x.config.nominalSpeed else 0

/-- R10, R96, R16: a release that puts the channel in STARTING. A channel released while settling stops settling. -/
def Channel.start (dir : Dir) (demand : Nat) (x : Channel) : Channel :=
  ({ x with state := .starting, direction := some dir, demand := x.capDemand demand, confirmMark := some x.raw,
            confirmTimer := some Config.confirmMs, pendingRelease := none, reversalExtreme := some x.raw,
            settling := false, settleTimer := none } : Channel).syncWatch

/-- R10: a release from the mover, taken by the channel's state. -/
def Channel.release (dir : Dir) (demand : Nat) (x : Channel) : Channel :=
  match x.state with
  | .idle | .holding => x.start dir demand
  | .starting | .moving =>
    if x.direction = some dir then { x with demand := x.capDemand demand }
    else { x.toStopping with pendingRelease := some { direction := dir, demand := demand } }
  | .stopping =>
    if x.fault.isNone && x.mover != .none then { x with pendingRelease := some { direction := dir, demand := demand } } else x
  | .absent | .faulted => x

/-- R17: what a fault does to the channel's state. -/
def Channel.faultState (x : Channel) : Channel :=
  match x.state with
  | .starting | .moving | .holding => x.toStopping
  | .idle => { x with state := .faulted }
  | .stopping => { x with pendingRelease := none }
  | .absent | .faulted => x

/-- R101, R102: enters a fault in the record: as first kind of a new record, else in the further-fault set. -/
def Channel.enterFault (k : FaultKind) (x : Channel) : Channel :=
  match x.fault with
  | none => { x with fault := some { first := k, position := x.position, load := x.load, further := [] } }
  | some r => { x with fault := some { r with further := addKind k r.further } }

/-- R8, R163: the mover is cleared. A HOLDING channel goes IDLE; pending release and jog record are discarded; a marked
channel's owner becomes NONE; the watch the mover had armed is disarmed (log 20). -/
def Channel.dropMover (x : Channel) : Channel :=
  ({ x with mover := .none, pendingRelease := none, jog := none, watchArmed := false,
            state := if x.state == .holding then .idle else x.state,
            owner := if x.releaseOnEnd then none else x.owner,
            releaseOnEnd := false } : Channel).syncWatch

/-- R16: settling starts, with the rest position at the latest raw count. Its timer is started by the caller. -/
def Channel.settle (x : Channel) : Channel := { x with settling := true, rest := x.raw }

/-! ### Events and notices -/

/-- R174: writes the last-event code of a device pair. A LINK pair is a link's own (postLink). -/
def EventCodes.write (q : NoticePair) (e : Event) (k : EventCodes) : EventCodes :=
  match q with
  | .mode => { k with mode := some e }
  | .link => k
  | .channelFault c => { k with faults := k.faults.set c (some e) }
  | .group g => { k with groups := k.groups.set g (some e) }
  | .track t => { k with tracks := k.tracks.set t (some e) }
  | .loadWatch c => { k with watches := k.watches.set c (some e) }

/-- R175: the attention line is asserted while the pending set is not empty; every change of the set goes through here. -/
def LinkIf.setPending (l : List NoticePair) (x : LinkIf) : LinkIf := { x with pending := l, attention := !l.isEmpty }

/-- R175: offers a pair to a link, which takes it by its report enable. -/
def LinkIf.offer (q : NoticePair) (x : LinkIf) : LinkIf :=
  if x.reports.has q then x.setPending (addPair q x.pending) else x

/-- R174, R175: raises an event on a device pair, without the judgement of wake. -/
def Part.post (p : Part) (q : NoticePair) (e : Event) : Part :=
  { p with codes := p.codes.write q e, linkA := p.linkA.offer q, linkB := p.linkB.offer q }

/-! ### Device mode and main power -/

/-- R151: the modes in which main power is on. -/
def DeviceMode.powered : DeviceMode → Bool
  | .standby | .armed => true
  | .parked | .halted => false

/-- R110: every baseline is discarded. -/
def Part.dropBaselines (p : Part) : Part :=
  p.forEach allChans fun p c => p.modChan c fun x => { x with watchBaseline := none }

/-- R110: a baseline is taken for every configured channel from its latest load. -/
def Part.takeBaselines (p : Part) : Part :=
  p.forEach allChans fun p c => p.modChan c fun x => if x.configured then { x with watchBaseline := some x.load } else x

/-- R151, R152: main power takes a value; switched on while power-good is absent it starts the power-good timer, switched
off it stops it. -/
def ModeCtl.setPower (on : Bool) (m : ModeCtl) : ModeCtl :=
  if on then
    if m.mainPower then m
    else { m with mainPower := true, powerGoodTimer := if m.powerGood then m.powerGoodTimer else some Config.powerGoodMs }
  else { m with mainPower := false, powerGoodTimer := none }

/-- R110: the baselines that go with a change of mode. -/
def Part.changeBaselines (p : Part) (old new : DeviceMode) : Part :=
  if new = .parked then p.takeBaselines else if old = .parked then p.dropBaselines else p

/-- R151: changes the device mode: main power follows, baselines are taken or discarded (R110), and MODE is raised. -/
def Part.changeMode (p : Part) (new : DeviceMode) (cause : ModeCause) : Part :=
  ((p.modCtl fun m => ({ m with mode := new } : ModeCtl).setPower new.powered).changeBaselines p.ctl.mode new).post .mode
    (.modeChange new p.ctl.mode cause)

/-- R159: the events that do not wake: those on MODE, and a CHANNEL_FAULT carrying RUNAWAY or FINAL_LIMIT. -/
def wakeExempt (q : NoticePair) (e : Event) : Bool :=
  match q, e with
  | .mode, _ => true
  | .channelFault _, .fault k => k.isDevice
  | _, _ => false

/-- R159: an event raised while PARKED wakes the device when the wake enable of its source kind is set. -/
def Part.judgeWake (p : Part) (q : NoticePair) (e : Event) : Part :=
  if p.ctl.mode = .parked && p.ctl.wakes.has q && !wakeExempt q e then p.changeMode .standby (.wake q) else p

/-- R174, R175, R159: raises an event on a device pair. -/
def Part.raise (p : Part) (q : NoticePair) (e : Event) : Part := (p.post q e).judgeWake q e

/-- R162, R174: raises LINK_SILENT on one link's own LINK pair. -/
def Part.raiseLink (p : Part) (l : Link) : Part :=
  (p.modLink l fun x => ({ x with lastLink := some .linkSilent } : LinkIf).offer .link).judgeWake .link .linkSilent

/-! ### Movers, jogs and the silence-disarm -/

/-- The lowest channel that has a mover. -/
def Part.firstMover (p : Part) : Option Chan := allChans.find? fun c => (p.chan c).mover != .none

/-- R164: with the flag set, the device ARMED and no mover left, the mode becomes STANDBY and the flag is cleared. -/
def Part.judgeDisarm (p : Part) : Part :=
  if p.ctl.silenceDisarm && p.ctl.mode = .armed && p.firstMover.isNone then
    (p.modCtl fun m => { m with silenceDisarm := false }).changeMode .standby .silence
  else p

/-- R8, R163, R164: clears a channel's mover, and judges the silence-disarm (log 16). -/
def Part.clearMover (p : Part) (c : Chan) : Part := (p.modChan c Channel.dropMover).judgeDisarm

/-- R23: a jog ends: the channel is stopped and its mover cleared. -/
def Part.endJog (p : Part) (c : Chan) : Part := (p.modChan c Channel.stop).clearMover c

/-- R23: every jog that meets a test ends, in channel order. -/
def Part.endJogs (p : Part) (which : Link → Bool) : Part :=
  p.forEach allChans fun p c =>
    match (p.chan c).mover with
    | .jog l => if which l then p.endJog c else p
    | .none | .group _ => p

/-- R92: the lowest channel whose record holds RUNAWAY or FINAL_LIMIT: a DEVICE fault recorded. -/
def Part.deviceFault (p : Part) : Option Chan := allChans.find? fun c => (p.chan c).deviceFault

/-! ### Free order (log 5) -/

/-- Puts an element at a place of a list, at its end when the place is beyond it. -/
def insertPlace {α : Type} (k : Nat) (x : α) : List α → List α
  | [] => [x]
  | y :: ys =>
    match k with
    | 0 => x :: y :: ys
    | k + 1 => y :: insertPlace k x ys

/-- A list in an order the manual leaves open: each element goes to a place that is a free value. -/
def freeOrder {α : Type} (draws : Nat) : List α → List α
  | [] => []
  | x :: xs => insertPlace (Config.freePlace (draws + xs.length)) x (freeOrder draws xs)

/-- Counts free values as drawn. -/
def Part.draw (p : Part) (n : Nat) : Part := { p with draws := p.draws + n }

/-! ### Timers -/

/-- A timer that has run out (log 4). -/
def Timer.out (t : Timer) : Bool := t == some 0

/-! ### Drive port outputs -/

/-- R7: brake set, run off, demand 0. -/
def PortOutput.isSafe (x : PortOutput) : Bool := !x.brakeReleased && !x.run && x.demand == 0

/-- R7: the channel's port is to be released. -/
def Part.releases (p : Part) (c : Chan) : Bool := p.ctl.mode == .armed && !p.ctl.held && (p.chan c).live

/-- R7: what a drive port applies, from the device mode and its channel. A safe port that stays safe keeps its outputs; one
that becomes safe has a free direction (log 7). -/
def Part.outputOf (p : Part) (c : Chan) : PortOutput :=
  if p.releases c then
    { brakeReleased := true, run := true, direction := (p.chan c).direction.getD (p.port c).output.direction,
      demand := if (p.chan c).kind == .variableSpeed then (p.chan c).demand else 0 }
  else if (p.port c).output.isSafe then (p.port c).output
  else PortOutput.safe c p.draws

/-- R7: a port becomes safe, and has a direction drawn. -/
def Part.becomesSafe (p : Part) (c : Chan) : Bool := !p.releases c && !(p.port c).output.isSafe

/-- R7: the outputs follow at the end of a taking. A taking that makes a port safe draws its own free directions. -/
def Part.drive (p : Part) : Part :=
  (p.forEach allChans fun q c => q.modPort c fun x => { x with output := p.outputOf c }).draw
    (if allChans.any p.becomesSafe then 1 else 0)

/-! ### Takings -/

/-- R166: while a line reset holds the part, nothing but its release and the input levels is taken. -/
def Part.awake (p : Part) (f : Part → Part) : Part := if p.ctl.held then p else f p

/-- The taking of an event that may change a channel's state or the device mode: the drive port outputs follow (R7). -/
def State.take (s : State) (f : Part → Part) : Host.Outcome State Fault Refusal :=
  .next { s with part := (f s.part).drive }

/-- A taking without a drive of its own: of an event that changes neither channel states nor the device mode, or of a request,
whose judge drives the outputs itself when it accepts (Judge.driven). -/
def State.note (s : State) (f : Part → Part) : Host.Outcome State Fault Refusal :=
  .next { s with part := f s.part }

end Sys2Proof.Machine
end

