-- ==== Sys2Proof/Machine/Operands.lean ====
section
/-! DEFINITION. The fields of frames: reading a request's body, writing a reply's data (R187 to R190), and the spans (R30). -/

namespace Sys2Proof.Machine

/-! ### Reading -/

/-- R187: an unsigned 16-bit field, most significant byte first. -/
def rd16 (h l : Byte) : Nat := h.toNat * 256 + l.toNat

/-- R187: a signed 16-bit field. -/
def rdS16 (h l : Byte) : Int := (h ++ l).toInt

/-- R187: an unsigned 24-bit field. -/
def rd24 (h m l : Byte) : Nat := h.toNat * 65536 + m.toNat * 256 + l.toNat

/-- R187: a 24-bit two's-complement field. -/
def rdS24 (h m l : Byte) : Int := (h ++ m ++ l).toInt

/-- R187: an unsigned 32-bit field. -/
def rd32 (a b c d : Byte) : Nat := a.toNat * 16777216 + b.toNat * 65536 + c.toNat * 256 + d.toNat

/-- R1: the existing channel a byte names. -/
def Part.chanOf (p : Part) (b : Byte) : Option Chan :=
  if h : b.toNat < 16 then if p.hasChan ⟨b.toNat, h⟩ then some ⟨b.toNat, h⟩ else none else none

/-- R29: the group a byte names. -/
def grpOf (b : Byte) : Option Grp := if h : b.toNat < 8 then some ⟨b.toNat, h⟩ else none

/-- R29: the track a byte names. -/
def trkOf (b : Byte) : Option Trk := if h : b.toNat < 2 then some ⟨b.toNat, h⟩ else none

/-- R30: the channels first to last, ascending; none when first is above last. -/
def spanMembers (first last : Chan) : List Chan := allChans.filter fun c => decide (first ≤ c) && decide (c ≤ last)

/-- R30: a span as its members, or the offending index at RANGE. First is checked before last. -/
def Part.span (p : Part) (first last : Byte) : Except Byte (List Chan) :=
  match p.chanOf first with
  | none => .error first
  | some f =>
    match p.chanOf last with
    | none => .error last
    | some e => .ok (spanMembers f e)

/-- R187: the channel kind codes. -/
def kindOf (b : Byte) : Option ChannelKind :=
  match b.toNat with
  | 0 => some .absent
  | 1 => some .fixedSpeed
  | 2 => some .variableSpeed
  | _ => none

/-- R187: the lane sign codes. -/
def signOf (b : Byte) : Option Sign :=
  match b.toNat with
  | 0 => some .follow
  | 1 => some .oppose
  | 2 => some .hold
  | _ => none

/-- R187, R188: the direction codes of JOG: 0 NONE, 1 UP, 2 DOWN. -/
def jogDirOf (b : Byte) : Option (Option Dir) :=
  match b.toNat with
  | 0 => some none
  | 1 => some (some .up)
  | 2 => some (some .down)
  | _ => none

/-- R187: the target codes of SET_MODE. HALTED cannot be requested. -/
def modeTargetOf (b : Byte) : Option DeviceMode :=
  match b.toNat with
  | 0 => some .parked
  | 1 => some .standby
  | 2 => some .armed
  | _ => none

/-- R187: a mask of source kinds, bit n-1 for code n; other bits are ignored. -/
def enablesOf (b : Byte) : Enables :=
  { mode := b.getLsbD 0, link := b.getLsbD 1, channelFault := b.getLsbD 2, group := b.getLsbD 3, track := b.getLsbD 4,
    loadWatch := b.getLsbD 5 }

/-- Cuts a list into its triples (lane entries, R188). -/
def triples : List Byte → List (Byte × Byte × Byte)
  | a :: b :: c :: rest => (a, b, c) :: triples rest
  | _ => []

/-- R188: a waypoint entry: offset, duration, flags with bit 0 END. -/
def waypointOf (a b c d e : Byte) : Waypoint := { offset := rdS16 a b, duration := rd16 c d, last := e.getLsbD 0 }

/-- Cuts a list into waypoint entries (R188). -/
def waypointsOf : List Byte → List Waypoint
  | a :: b :: c :: d :: e :: rest => waypointOf a b c d e :: waypointsOf rest
  | _ => []

/-! ### Writing -/

/-- A byte of a number. -/
def byteOf (n : Nat) : Byte := BitVec.ofNat 8 n

/-- R187: an unsigned 16-bit field. -/
def wr16 (n : Nat) : List Byte := [byteOf (n / 256), byteOf n]

/-- R187: a signed 16-bit field. -/
def wrS16 (x : Int) : List Byte := [(BitVec.ofInt 16 x).extractLsb' 8 8, (BitVec.ofInt 16 x).extractLsb' 0 8]

/-- R187: an unsigned 32-bit field. -/
def wr32 (n : Nat) : List Byte := [byteOf (n / 16777216), byteOf (n / 65536), byteOf (n / 256), byteOf n]

/-- The three bytes of a 24-bit number. -/
def bytes24 (v : BitVec 24) : List Byte := [v.extractLsb' 16 8, v.extractLsb' 8 8, v.extractLsb' 0 8]

/-- R187: a 24-bit two's-complement millimetre field; what a number that does not fit it is sent as is free (log 23). -/
def wrS24 (x : Int) : List Byte :=
  bytes24 (if -8388608 ≤ x ∧ x ≤ 8388607 then BitVec.ofInt 24 x else Config.unfit24 x)

/-- R187: an absent position is sent as 800000h. -/
def wrPos (x : Option Int) : List Byte :=
  match x with
  | some v => wrS24 v
  | none => [0x80, 0x00, 0x00]

/-- A set-or-clear flag is one byte, 1 when set (R187). -/
def wrFlag (b : Bool) : Byte := if b then 1 else 0

/-- R187: an absent 16-bit load or baseline is sent as FFFFh. -/
def wrLoad (x : Option Nat) : List Byte :=
  match x with
  | some v => wr16 v
  | none => [0xFF, 0xFF]

/-- A list is sent as a count byte followed by its entries (R187). -/
def wrList {α : Type} (f : α → List Byte) (l : List α) : List Byte := byteOf l.length :: l.flatMap f

/-- R187: link codes, 0 for NONE. -/
def linkCode : Link → Byte
  | .a => 1
  | .b => 2

/-- R187: owner codes. -/
def ownerCode (o : Option Link) : Byte :=
  match o with
  | none => 0
  | some l => linkCode l

/-- R187: mover codes. -/
def moverCode : Mover → Byte
  | .none => 0x00
  | .group g => byteOf (0x10 + g.val)
  | .jog .a => 0x21
  | .jog .b => 0x22

/-- R187: channel state codes. -/
def channelStateCode : ChannelState → Byte
  | .absent => 0
  | .idle => 1
  | .starting => 2
  | .moving => 3
  | .holding => 4
  | .stopping => 5
  | .faulted => 6

/-- R187: group state codes. -/
def groupStateCode : GroupState → Byte
  | .empty => 0
  | .idle => 1
  | .preparing => 2
  | .running => 3
  | .stopping => 4
  | .held => 5
  | .faulted => 6

/-- R187: track state codes. -/
def trackStateCode : TrackState → Byte
  | .empty => 0
  | .loaded => 1
  | .playing => 2
  | .starved => 3

/-- R187: fault kind codes as numbers. -/
def faultNum : FaultKind → Nat
  | .finalLimit => 1
  | .driveFault => 2
  | .overload => 3
  | .slack => 4
  | .reversed => 5
  | .runaway => 6
  | .stall => 7
  | .feedbackLost => 8
  | .loadShift => 9
  | .syncLost => 10
  | .trackLag => 11

/-- R187: fault kind codes. -/
def faultCode (k : FaultKind) : Byte := byteOf (faultNum k)

/-- R187: a set of kinds as a mask, bit n-1 standing for code n, in two bytes. -/
def kindMask (l : List FaultKind) : List Byte :=
  wr16 ((FaultKind.all.filter l.contains).foldl (fun n k => n + 2 ^ (faultNum k - 1)) 0)

/-- R190: the bound-set mask, bit n for Gn. -/
def groupMask (l : List Grp) : Byte := byteOf ((allGroups.filter l.contains).foldl (fun n g => n + 2 ^ g.val) 0)

/-- R187: mode codes (R186). -/
def modeNum : DeviceMode → Nat
  | .parked => 0
  | .standby => 1
  | .armed => 2
  | .halted => 3

/-- R186: mode codes. -/
def modeCode (m : DeviceMode) : Byte := byteOf (modeNum m)

/-- R27: result codes. -/
def resultCode : Result → Byte
  | .ok => 0x00
  | .unknown => 0x01
  | .format => 0x02
  | .range => 0x03
  | .mode => 0x04
  | .tier => 0x05
  | .claim => 0x06
  | .unreferenced => 0x07
  | .state => 0x08
  | .limit => 0x09
  | .capacity => 0x0A
  | .late => 0x0B

/-- R187: lane sign codes. -/
def signCode : Sign → Byte
  | .follow => 0
  | .oppose => 1
  | .hold => 2

/-- R187: lane state codes. -/
def laneStateCode : LaneState → Byte
  | .driving => 0
  | .trimmed => 1
  | .arrived => 2

/-- R187: stop reason codes, 0 when absent. -/
def reasonCode (r : Option StopReason) : Byte :=
  match r with
  | none => 0
  | some .complete => 1
  | some .request => 2
  | some .fault => 3
  | some .halt => 4
  | some .silence => 5

/-- R187: arming state codes. -/
def armingCode : Arming → Byte
  | .none => 0
  | .dwelling => 1
  | .awaitingMark => 2

/-- R187: reset cause codes. -/
def resetCauseCode : ResetCause → Byte
  | .powerOn => 1
  | .line => 2
  | .command => 3

/-- R190: watchdog state codes. -/
def watchdogCode : WatchdogState → Byte
  | .off => 0
  | .running => 1
  | .expired => 2

/-- R187: a mask of source kinds, bit n-1 for code n. -/
def enablesMask (e : Enables) : Byte :=
  byteOf ((if e.mode then 1 else 0) + (if e.link then 2 else 0) + (if e.channelFault then 4 else 0)
    + (if e.group then 8 else 0) + (if e.track then 16 else 0) + (if e.loadWatch then 32 else 0))

/-- R187: a move source is three bytes: 1 and the cue number, or 2, 0 and the track number. -/
def sourceBytes : MoveSource → List Byte
  | .cue n => 1 :: wr16 n
  | .track t => [2, 0, byteOf t.val]

/-- R187, R190: a group fault record: cause, lane or channel, kind; the kind is sent as 0 where the cause has none. -/
def groupFaultBytes : GroupFault → List Byte
  | .syncLost i => [1, byteOf i, 0]
  | .loadShift i => [2, byteOf i, 0]
  | .memberFault c k => [3, byteOf c.val, faultCode k]
  | .stall i => [4, byteOf i, 0]
  | .trackLag i => [5, byteOf i, 0]

/-- R187: notice source codes. -/
def sourceCode : NoticePair → Byte
  | .mode => 1
  | .link => 2
  | .channelFault _ => 3
  | .group _ => 4
  | .track _ => 5
  | .loadWatch _ => 6

/-- R190: the index of a pair; 0 for MODE and LINK. -/
def pairIndex : NoticePair → Byte
  | .mode => 0
  | .link => 0
  | .channelFault c => byteOf c.val
  | .group g => byteOf g.val
  | .track t => byteOf t.val
  | .loadWatch c => byteOf c.val

/-- R187, R190: a mode-change cause with the waking source or channel and the waking index. -/
def causeBytes : ModeCause → List Byte
  | .request => [1, 0, 0]
  | .resume => [2, 0, 0]
  | .wake q => [3, sourceCode q, pairIndex q]
  | .silence => [4, 0, 0]
  | .emergencyStop => [5, 0, 0]
  | .haltRequest => [6, 0, 0]
  | .deviceFault c => [7, byteOf c.val, 0]
  | .powerLoss => [8, 0, 0]
  | .reset => [9, 0, 0]

/-- R190: the event code and the five bytes of event data, unused bytes sent as 0 (R187). An event of NONE is six zeros. -/
def eventBytes (e : Option Event) : List Byte :=
  match e with
  | none => [0, 0, 0, 0, 0, 0]
  | some (.modeChange new old cause) => [1, modeCode new, modeCode old] ++ causeBytes cause
  | some .linkSilent => [1, 0, 0, 0, 0, 0]
  | some (.fault k) => [faultCode k, 0, 0, 0, 0, 0]
  | some (.cueDone n) => 1 :: wr16 n ++ [0, 0xFF, 0]
  | some (.cueRefused n code index) => 2 :: wr16 n ++ [resultCode code, index, 0]
  | some (.cueLate n) => 3 :: wr16 n ++ [resultCode .late, 0xFF, 0]
  | some .groupHeld => [4, 0, 0, 0, 0, 0]
  | some (.groupFaulted f) => 5 :: groupFaultBytes f ++ [0, 0]
  | some .trackStarved => [1, 0, 0, 0, 0, 0]
  | some .trackEnded => [2, 0, 0, 0, 0, 0]
  | some .trackStopped => [3, 0, 0, 0, 0, 0]
  | some (.trackLag g i) => [4, byteOf g.val, byteOf i, 0, 0, 0]
  | some (.loadWatch n) => 1 :: wr16 n ++ [0, 0, 0]

/-- R188: a cue record of READ_CUES, fifteen bytes; the dwell-or-mark field of an ON_GO cue is sent as 0. -/
def cueBytes (q : Cue) : List Byte :=
  wr16 q.number
    ++ (match q.form with
        | .relative d => 0 :: wrS24 d
        | .absolute t => 1 :: bytes24 (BitVec.ofNat 24 t))
    ++ wr16 q.speed
    ++ (match q.trigger with
        | .onGo => 0 :: wr32 0
        | .afterPrevious d => 1 :: wr32 d
        | .atMark m => 2 :: wr32 m)
    ++ [byteOf q.tier, linkCode q.origin]

/-- R188: a lane entry. -/
def laneBytes (l : Lane) : List Byte := [byteOf l.channel.val, signCode l.sign, byteOf l.ratio]

/-- R183, R187: a lane's entry of the move record. -/
def laneRecordBytes (r : LaneRecord) : List Byte :=
  wrS24 r.start ++ wrS24 r.target ++ wrS24 r.travel ++ wr16 r.baseline
    ++ [laneStateCode r.state, wrFlag r.confirmed] ++ wr16 r.demand

/-- R189: one member's block of a READ_SNAPSHOT reply, from its two records and whether each was LATCHED. -/
def snapshotBytes (c : Chan) (st : StatusRecord) (stLatched : Bool) (po : PositionRecord) (poLatched : Bool) : List Byte :=
  [byteOf c.val,
   byteOf ((if stLatched then 1 else 0) + (if poLatched then 2 else 0) + 4 * (ownerCode st.owner).toNat
     + (if st.referenced then 16 else 0)),
   channelStateCode st.state, moverCode st.mover]
    ++ (match st.fault with
        | none => [0, 0, 0, 0, 0, 0, 0, 0]
        | some r => faultCode r.first :: wrPos r.position ++ wr16 r.load ++ kindMask r.further)
    ++ wr32 st.stamp ++ wrPos po.position ++ wrS24 po.raw ++ wr16 po.load ++ wr32 po.stamp

end Sys2Proof.Machine
end

