-- ==== Sys2Proof/Machine/Flags.lean ====
section
/-! DEFINITION. The status byte of a reply, the CRC, and the reply frame on the wire (R186). -/

namespace Sys2Proof.Machine

/-- R186: the status byte: device mode in bits 1-0, overrun flag in bit 2, notice-pending flag in bit 3, the rest 0. -/
def statusByte (mode : DeviceMode) (overrun pending : Bool) : Byte :=
  byteOf (modeNum mode + (if overrun then 4 else 0) + (if pending then 8 else 0))

/-- R172: a link's status byte as things stand. -/
def Part.status (p : Part) (l : Link) : Byte :=
  statusByte p.ctl.mode (p.link l).overrun (!(p.link l).pending.isEmpty)

/-- R172: the overrun flag in a status byte. -/
def statusOverrun (b : Byte) : Bool := b.getLsbD 2

/-- R186: one bit of the CRC register against polynomial 1021h. -/
def crcShift (r : BitVec 16) : BitVec 16 := if r.getMsbD 0 then (r <<< 1) ^^^ 0x1021 else r <<< 1

/-- R186: a number of shifts of the CRC register. -/
def crcShifts : Nat → BitVec 16 → BitVec 16
  | 0, r => r
  | n + 1, r => crcShifts n (crcShift r)

/-- R186: one byte taken into the CRC register, most significant bit first. -/
def crcByte (r : BitVec 16) (b : Byte) : BitVec 16 := crcShifts 8 (r ^^^ (b.zeroExtend 16 <<< 8))

/-- R186: the CRC of a list of bytes: the register starts at FFFFh and there is no final inversion. -/
def crc (l : List Byte) : BitVec 16 := l.foldl crcByte 0xFFFF

/-- A list of bytes closed by its CRC, high byte first. -/
def withCrc (l : List Byte) : List Byte := l ++ [(crc l).extractLsb' 8 8, (crc l).extractLsb' 0 8]

/-- R186: the reply frame on the wire: sync, then address, length, kind, result, status and body with their CRC. -/
def Reply.frame (r : Reply) : List Byte :=
  0xA5 :: withCrc ([byteOf r.address.val, byteOf (r.data.length + 1), r.kind, resultCode r.result, r.status, r.index] ++ r.data)

/-- R186: the request frame on the wire, for an address. -/
def requestFrame (address kind tier : Byte) (body : List Byte) : List Byte :=
  0xA5 :: withCrc ([address, byteOf body.length, kind, tier] ++ body)

end Sys2Proof.Machine
end

