-- ==== Sys2Proof/Machine/Admission.lean ====
section
/-! DEFINITION. The Admission Unit: verdicts in the fixed order of checks (R26), tiers (R32, R33), claims (R35), and the
reception, judging and answering of a request frame at its link (R170 to R172). -/

namespace Sys2Proof.Machine

/-- What admission says of a request or a fire: refused with a result code and an offending index (R27), or accepted with
the reply's data and the part as the request leaves it. -/
inductive Verdict where
  | refused (code : Result) (index : Byte)
  | accepted (data : List Byte) (p : Part)

/-- Applies f to the part an accepted verdict leaves. -/
def Verdict.andThen (v : Verdict) (f : Part → Part) : Verdict :=
  match v with
  | .refused code index => .refused code index
  | .accepted data p => .accepted data (f p)

/-- R27: the index of a failure that concerns no single item. -/
def noIndex : Byte := 0xFF

/-- R26: one check: an offending index refuses with the step's code, otherwise the later checks are made. -/
def check (code : Result) (bad : Option Byte) (rest : Verdict) : Verdict :=
  match bad with
  | some i => .refused code i
  | none => rest

/-- R26: one check of a condition that concerns one item. -/
def refuseIf (bad : Bool) (code : Result) (index : Byte) (rest : Verdict) : Verdict :=
  if bad then .refused code index else rest

/-- R30: a span is judged at RANGE, and the rest is judged on its members. -/
def Part.withSpan (p : Part) (first last : Byte) (rest : List Chan → Verdict) : Verdict :=
  match p.span first last with
  | .error i => .refused .range i
  | .ok members => rest members

/-- R1: a channel field is judged at RANGE. -/
def Part.withChan (p : Part) (b : Byte) (rest : Chan → Verdict) : Verdict :=
  match p.chanOf b with
  | none => .refused .range b
  | some c => rest c

/-- R29: a group field is judged at RANGE. -/
def withGrp (b : Byte) (rest : Grp → Verdict) : Verdict :=
  match grpOf b with
  | none => .refused .range noIndex
  | some g => rest g

/-- R29: a track field is judged at RANGE. -/
def withTrk (b : Byte) (rest : Trk → Verdict) : Verdict :=
  match trkOf b with
  | none => .refused .range noIndex
  | some t => rest t

/-- The first member of a span, as an index, whose channel meets a condition (R30). -/
def Part.firstChan (p : Part) (members : List Chan) (bad : Channel → Bool) : Option Byte :=
  (members.find? fun c => bad (p.chan c)).map fun c => byteOf c.val

/-- The first lane of a group, as a lane index, whose channel meets a condition. -/
def Part.firstLane (p : Part) (g : Grp) (bad : Channel → Bool) : Option Byte :=
  ((p.group g).lanes.findIdx? fun l => bad (p.chan l.channel)).map byteOf

/-- R33: the channel's guard tier is below the effective tier. That the guard tier an ABSENT channel keeps is judged too, though R2
has the channel use none of its kept configuration, is the model's choice (log 35). -/
def aboveGuard (tier : Nat) (x : Channel) : Bool := x.config.guardTier < tier

/-- R35: the channel is owned by the other link. -/
def ownedByOther (l : Link) (x : Channel) : Bool := x.owner == some l.other

/-- R35: the channel is not owned by the requester. -/
def notOwnedBy (l : Link) (x : Channel) : Bool := x.owner != some l

/-- R36: the channel is UNREFERENCED. -/
def unreferenced (x : Channel) : Bool := !x.referenced

/-- R34: the record holds REVERSED or RUNAWAY. -/
def holdsGrave (x : Channel) : Bool := x.holdsFault .reversed || x.holdsFault .runaway

/-! ### Watchdogs and frames -/

/-- R160: a watchdog's timer is restarted at its period. -/
def Watchdog.restart (w : Watchdog) : Watchdog :=
  if w.period = 0 then { w with state := .off, timer := none } else { w with state := .running, timer := some w.period }

/-- R169: the frame assembler of a link takes a state. -/
def Part.assembler (p : Part) (l : Link) (a : Assembler) : Part := p.modLink l fun x => { x with assembler := a }

/-- R169: a frame whose body is longer than 240 bytes is discarded and has no other effect; in line reset every byte is. What
any other frame does is f. -/
def Part.frame (p : Part) (l : Link) (body : List Byte) (f : Part → Part) : Part :=
  p.awake fun p => if Config.maxBody < body.length then p.assembler l .hunting else f p

/-- R160, R164, R170: the effects of a taken frame at its link: the watchdog restarts and the silence-disarm pending flag
is cleared. The assembler is back in HUNTING (R169). -/
def Part.frameTaken (p : Part) (l : Link) : Part :=
  (p.modLink l fun x => { x with assembler := .hunting, watchdog := x.watchdog.restart }).modCtl fun m =>
    { m with silenceDisarm := false }

/-- R171: a frame for this rack that completes while the link is answering: taken by R170, then discarded for overrun. -/
def Part.overrunFrame (p : Part) (l : Link) : Part :=
  (p.frameTaken l).modLink l fun x => { x with overrun := true, overrunSince := true }

/-- R171, R172: the reply is composed as things stand, and the link is answering. The kind has bit 7 set. -/
def Part.answer (p : Part) (l : Link) (kind : Byte) (code : Result) (index : Byte) (data : List Byte) : Part :=
  p.modLink l fun x =>
    { x with
      answering := some { address := p.ctl.straps.rackId, kind := kind ||| 0x80, result := code, status := p.status l
                          index := index, data := data }
      overrunSince := false }

/-- R32: the effective tier. -/
def Part.effectiveTier (p : Part) (l : Link) (tier : Byte) : Nat := max tier.toNat (p.floor l)

/-- How the owning block judges and applies a request from the RANGE step on: the link, the effective tier, the body, the
part as it stands. -/
abbrev Judge := Link → Nat → List Byte → Part → Verdict

/-- R7, R26: a judge whose accepted requests the drive port outputs follow. A refusal changes no output. -/
def Judge.driven (judge : Judge) : Judge := fun l tier body p => (judge l tier body p).andThen Part.drive

/-- R26, R28, R29: FORMAT on the body length alone, then the tier field, then the request's own conditions. -/
def Part.verdictOf (p : Part) (l : Link) (tier : Byte) (body : List Byte) (fits : List Byte → Bool) (judge : Judge) : Verdict :=
  refuseIf (!fits body) .format noIndex <|
    refuseIf (7 < tier.toNat) .range noIndex <|
      judge l (p.effectiveTier l tier) body p

/-- R170 to R172: a request frame addressed to this rack completes on a link. While the link is answering the frame is
discarded for overrun; otherwise the request is taken, judged and answered. -/
def Part.request (p : Part) (l : Link) (kind tier : Byte) (body : List Byte) (fits : List Byte → Bool) (judge : Judge) : Part :=
  p.frame l body fun p =>
    if (p.link l).answering.isSome then p.overrunFrame l
    else
      match (p.frameTaken l).verdictOf l tier body fits judge with
      | .refused code index => (p.frameTaken l).answer l kind code index []
      | .accepted data p' => p'.answer l kind .ok noIndex data

/-- R170: a broadcast HALT is taken in the same way and not answered. -/
def Part.broadcast (p : Part) (l : Link) (tier : Byte) (body : List Byte) (fits : List Byte → Bool) (judge : Judge) : Part :=
  p.frame l body fun p =>
    if (p.link l).answering.isSome then p.overrunFrame l
    else
      match (p.frameTaken l).verdictOf l tier body fits judge with
      | .refused _ _ => p.frameTaken l
      | .accepted _ p' => p'

/-- R188: a body of fixed length. -/
def lengthIs (n : Nat) (body : List Byte) : Bool := body.length == n

/-- R188: a counted body: the count byte stands at an offset, and the length is the fixed part plus the entries. -/
def countedLength (at_ fixedPart entry : Nat) (body : List Byte) : Bool :=
  match body[at_]? with
  | some n => body.length == fixedPart + entry * n.toNat
  | none => false

/-- R188: a body whose length has passed FORMAT has the shape its judge reads; this verdict is never reached. -/
def misfit : Verdict := .refused .format noIndex

end Sys2Proof.Machine
end

