-- ==== Sys2Proof/Machine/Fires.lean ====
section
/-! DEFINITION. Lane travels, the admission and start of a move (R63 to R67), and the arming and firing of a cue queue's head
(R118 to R126). -/

namespace Sys2Proof.Machine

/-! ### Lane travels and demands -/

/-- R48, R49: a lane's travel from the group travel D. -/
def Lane.travel (l : Lane) (d : Int) : Int :=
  if 8 ≤ l.ratio then 0
  else
    let m : Int := (d.natAbs / 2 ^ l.ratio : Nat)
    let signed : Int := if d < 0 then -m else m
    match l.sign with
    | .follow => signed
    | .oppose => -signed
    | .hold => 0

/-- R66: a lane's demand from the group speed: shifted right by the ratio, capped at the nominal speed; 0 for FIXED. -/
def Part.cueDemand (p : Part) (l : Lane) (v : Nat) : Nat := (p.chan l.channel).capDemand (v / 2 ^ l.ratio)

/-- R113: the group travel of a cue. An ABSOLUTE cue derives it from the position of lane 0's channel. -/
def Part.cueTravel (p : Part) (g : Grp) (form : CueForm) : Int :=
  match form with
  | .relative d => d
  | .absolute t =>
    match (p.group g).lanes with
    | [] => 0
    | l :: _ => if l.sign = .oppose then (p.chan l.channel).pos - t else t - (p.chan l.channel).pos

/-- R64: the targets and demands of a cue fire, by lane. -/
def Part.cuePlan (p : Part) (g : Grp) (cue : Cue) : List (Int × Nat) :=
  let d := p.cueTravel g cue.form
  (p.group g).lanes.map fun l => ((p.chan l.channel).pos + l.travel d, p.cueDemand l cue.speed)

/-- R64, R88: the targets of the held move, with demands recomputed from the kept speed. -/
def Part.heldPlan (p : Part) (g : Grp) (m : MoveRecord) : List (Int × Nat) :=
  ((p.group g).lanes.zip m.lanes).map fun lr => (lr.2.target, p.cueDemand lr.1 (m.speed.getD 0))

/-- R64: a target lies outside 0 to 60 000 mm or the channel's soft limits. -/
def outOfBounds (x : Channel) (target : Int) : Bool :=
  target < 0 || Config.maxPosition < target || target < x.config.softLower || x.config.softUpper < target

/-- R64: the first lane whose target is out of bounds. -/
def Part.firstOut (p : Part) (g : Grp) (plan : List (Int × Nat)) : Option Nat :=
  ((p.group g).lanes.zip plan).findIdx? fun lt => outOfBounds (p.chan lt.1.channel) lt.2.1

/-- R65: a lane channel that cannot be reserved. -/
def unreservable (x : Channel) : Bool := x.state != .idle || x.mover != .none

/-! ### Starting a move -/

/-- R66: a lane's entry at a fire. A lane ARRIVED at its start takes no demand (log 14). In a re-fire or a track move a HOLD
lane, or one at ratio 8 to 15, that stands off its target is DRIVING, for which R49 and R50 have it otherwise (log 33). -/
def fireLane (x : Channel) (target : Int) (demand : Nat) : LaneRecord :=
  let arrived := (target - x.pos).natAbs ≤ Config.arrivalMm
  { start := x.pos, target := target, travel := target - x.pos, baseline := x.load,
    state := if arrived then .arrived else .driving, confirmed := arrived,
    demand := if arrived then 0 else demand, full := if arrived then 0 else demand }

/-- UP for upward travel, DOWN for downward (R66). -/
def dirOf (travel : Int) : Dir := if travel < 0 then .down else .up

/-- R65, R66: what the fire does to a lane's channel: it gets the group as mover; an ARRIVED lane's channel goes to
HOLDING, a DRIVING lane's is released with its watch armed (R98). -/
def reserveChannel (g : Grp) (r : LaneRecord) (x : Channel) : Channel :=
  let x : Channel := { x with mover := .group g }
  if r.state = .arrived then { x with state := .holding }
  else (x.start (dirOf r.travel) r.demand).armWatch true

/-- R62, R66: an accepted fire starts the move: the move record is filled, the channels are reserved and released, the group
goes to PREPARING and its control period starts. -/
def Part.startMove (p : Part) (g : Grp) (tier : Nat) (origin : Link) (source : MoveSource) (speed : Option Nat)
    (plan : List (Int × Nat)) : Part :=
  let lanes := (p.group g).lanes
  let records := (lanes.zip plan).map fun lt => fireLane (p.chan lt.1.channel) lt.2.1 lt.2.2
  let p1 := p.modGroup g fun x =>
    { x with state := .preparing, held := false, controlTimer := some Config.controlMs
             move := some { origin := origin, tier := tier, source := source, speed := speed, reason := none,
                            lanes := records } }
  p1.forEach (lanes.zip records) fun p lr => p.modChan lr.1.channel (reserveChannel g lr.2)

/-- R63: the admission of a fire, from MODE to LIMIT, and its start. stateBad says that the group's state or its bound track
refuses this kind of fire. -/
def Part.fire (p : Part) (g : Grp) (tier : Nat) (l : Link) (stateBad : Bool) (source : MoveSource) (speed : Option Nat)
    (plan : List (Int × Nat)) : Verdict :=
  refuseIf (p.ctl.mode != .armed) .mode noIndex <|
    check .tier (p.firstLane g (aboveGuard tier)) <|
    check .claim (p.firstLane g (notOwnedBy l)) <|
    check .unreferenced (p.firstLane g unreferenced) <|
    refuseIf stateBad .state noIndex <|
    check .state (p.firstLane g unreservable) <|
    check .limit ((p.firstOut g plan).map byteOf) <|
    .accepted [] (p.startMove g tier l source speed plan)

/-- R63, R136: a cue may fire when the group is IDLE and no track is bound to it. -/
def Part.cueBarred (p : Part) (g : Grp) : Bool := (p.group g).state != .idle || (p.group g).boundTrack.isSome

/-- R122: the fire of a cue with a tier and a link. -/
def Part.fireCue (p : Part) (g : Grp) (tier : Nat) (l : Link) (cue : Cue) : Verdict :=
  p.fire g tier l (p.cueBarred g) (.cue cue.number) (some cue.speed) (p.cuePlan g cue)

/-- R67, R77: every lane of the group's move is ARRIVED. -/
def Part.allArrived (p : Part) (g : Grp) : Bool :=
  match (p.group g).move with
  | some m => m.lanes.all fun r => r.state == .arrived
  | none => false

/-- Clears the mover of every lane channel of a group, in lane order. -/
def Part.clearLanes (p : Part) (g : Grp) : Part :=
  p.forEach (p.group g).lanes fun p l => p.clearMover l.channel

/-- R77: a cue move completes: movers cleared, control period stopped, move record discarded, IDLE, CUE_DONE. The queue is
told by the caller. -/
def Part.completeCue (p : Part) (g : Grp) (number : Nat) : Part :=
  ((p.clearLanes g).modGroup g fun x => { x with state := .idle, move := none, controlTimer := none }).raise (.group g)
    (.cueDone number)

/-! ### The cue queue -/

/-- R118: the occasions on which arming is judged: a completion (a); an append to an empty list or an unbinding (b, c). -/
inductive Occasion where
  | completion | other
  deriving DecidableEq, Repr

/-- R114, R121, R125: the head leaves the list; arming NONE, dwell timer stopped, and an empty queue is not blocked. -/
def CueQueue.pop (q : CueQueue) : CueQueue :=
  { q with cues := q.cues.tail, arming := .none, dwellTimer := none, blocked := q.blocked && !q.cues.tail.isEmpty }

/-- R125: the queue is blocked when its list still holds a cue. -/
def CueQueue.block (q : CueQueue) : CueQueue := { q with blocked := !q.cues.isEmpty }

/-- R121: the head is disarmed and a running dwell timer stopped. -/
def CueQueue.disarm (q : CueQueue) : CueQueue := { q with arming := .none, dwellTimer := none }

/-- R120: a head that is met too late is dropped with CUE_LATE, and the queue is blocked if cues remain. -/
def Part.dropLate (p : Part) (g : Grp) (cue : Cue) : Part :=
  (p.modQueue g fun q => q.pop.block).raise (.group g) (.cueLate cue.number)

/-- R123: a head refused at fire is removed with CUE_REFUSED, and the queue is blocked if cues remain. -/
def Part.dropRefused (p : Part) (g : Grp) (cue : Cue) (code : Result) (index : Byte) : Part :=
  (p.modQueue g fun q => q.pop.block).raise (.group g) (.cueRefused cue.number code index)

/-- R120: a judgement of an AWAITING_MARK head against the show clock. The Bool says that the head is to fire now. -/
def Part.judgeMark (p : Part) (g : Grp) : Part × Bool :=
  match (p.queue g).arming, (p.queue g).cues with
  | .awaitingMark, cue :: _ =>
    match cue.trigger with
    | .atMark mark =>
      if p.clock.running && mark ≤ p.clock.value then
        if p.clock.value - mark ≤ (p.group g).lateGrace then (p.modQueue g CueQueue.disarm, true)
        else (p.dropLate g cue, false)
      else (p, false)
    | .onGo | .afterPrevious _ => (p, false)
  | _, _ => (p, false)

/-- R118: the head may be armed: the group is IDLE, no track is bound to it, the queue is not blocked, and its arming state
is NONE. -/
def Part.mayArm (p : Part) (g : Grp) : Bool :=
  (p.group g).state == .idle && (p.group g).boundTrack.isNone && !(p.queue g).blocked && (p.queue g).arming == .none

/-- R118, R119, R120: arming is judged on the head. The Bool says that the head is to fire now: a dwell of 0 expires at once,
and a mark is judged at once. -/
def Part.armHead (p : Part) (occ : Occasion) (g : Grp) : Part × Bool :=
  if p.mayArm g then
    match (p.queue g).cues with
    | [] => (p, false)
    | cue :: _ =>
      match cue.trigger with
      | .onGo => (p, false)
      | .afterPrevious dwell =>
        if occ = .completion then
          if dwell = 0 then (p, true)
          else (p.modQueue g fun q => { q with arming := .dwelling, dwellTimer := some dwell }, false)
        else (p, false)
      | .atMark _ => (p.modQueue g fun q => { q with arming := .awaitingMark }).judgeMark g
  else (p, false)

/-- R122, R123, R67: the head is fired under its stored tier and origin link. Refused, it is dropped. Accepted, it leaves
the list; a move that completes at once arms the new head, which may fire in turn. The fuel is the length of the list. -/
def Part.fireHead : Nat → Grp → Part → Part
  | 0, _, p => p
  | n + 1, g, p =>
    match (p.queue g).cues with
    | [] => p
    | cue :: _ =>
      match p.fireCue g cue.tier cue.origin cue with
      | .refused code index => p.dropRefused g cue code index
      | .accepted _ p1 =>
        let p2 := p1.modQueue g CueQueue.pop
        if p2.allArrived g then
          let next := (p2.completeCue g cue.number).armHead .completion g
          if next.2 then Part.fireHead n g next.1 else next.1
        else p2

/-- Fires the head when a judgement says so. -/
def Part.fireIf (r : Part × Bool) (g : Grp) : Part :=
  if r.2 then Part.fireHead (r.1.queue g).cues.length g r.1 else r.1

/-- R118: arming is judged on an occasion, with the fire that may follow at once. -/
def Part.arm (p : Part) (occ : Occasion) (g : Grp) : Part := Part.fireIf (p.armHead occ g) g

/-- R120: an AWAITING_MARK head is judged, with the fire that may follow. -/
def Part.judgeHead (p : Part) (g : Grp) : Part := Part.fireIf (p.judgeMark g) g

/-- R67, R77, R126: the end of a fire's taking: a move whose lanes are all ARRIVED completes and its queue is told. -/
def Part.afterFire (p : Part) (g : Grp) (number : Nat) : Part :=
  if p.allArrived g then (p.completeCue g number).arm .completion g else p

/-- R120, R130: every AWAITING_MARK head is judged; their order is free (log 5). -/
def Part.judgeAll (p : Part) : Part :=
  let waiting := allGroups.filter fun g => (p.queue g).arming == .awaitingMark
  (p.draw waiting.length).forEach (freeOrder p.draws waiting) fun p g => p.judgeHead g

end Sys2Proof.Machine
end

