-- ==== Sys2Proof/Machine/Stops.lean ====
section
/-! DEFINITION. How moves and plays end: a group's entry into and exit from STOPPING (R79 to R84), the ends of a track's play
(R145, R147, R148), a fault reaching a channel (R17), and the halt (R155). -/

namespace Sys2Proof.Machine

/-! ### Entering STOPPING -/

/-- R84: the group's move is a track move of a track. -/
def Group.trackOf (x : Group) : Option Trk :=
  match x.move with
  | some m =>
    match m.source with
    | .track t => some t
    | .cue _ => none
  | none => none

/-- A group that is PREPARING or RUNNING. -/
def Group.active (x : Group) : Bool := x.state == .preparing || x.state == .running

/-- R81: the group enters STOPPING for a reason: control period stopped, every lane channel given a stop in lane order. The
lane states stand as they were, the laggard's too when SYNC_LOST stops the group, for which R78's table has it otherwise
(log 32). -/
def Part.enterStopping (p : Part) (g : Grp) (reason : StopReason) : Part :=
  (p.modGroup g fun x =>
    { x with state := .stopping, controlTimer := none
             move := x.move.map fun m => { m with reason := some reason } }).forEach (p.group g).lanes fun p l =>
    p.modChan l.channel Channel.stop

/-- R82: every lane channel is HOLDING or FAULTED. -/
def Part.atRest (p : Part) (g : Grp) : Bool :=
  (p.group g).lanes.all fun l => (p.chan l.channel).state == .holding || (p.chan l.channel).state == .faulted

/-- R82: the group's part of the exit from STOPPING, by stop reason and kind of move: movers cleared, state, record, event. -/
def Part.exitCore (p : Part) (g : Grp) : Part :=
  match (p.group g).move with
  | none => p
  | some m =>
    let q := p.clearLanes g
    match m.reason, m.source with
    | some .fault, _ =>
      let q := q.modGroup g fun x => { x with state := .faulted }
      match (p.group g).fault with
      | some f => q.raise (.group g) (.groupFaulted f)
      | none => q
    | some .complete, .cue n =>
      (q.modGroup g fun x => { x with state := .idle, move := none }).raise (.group g) (.cueDone n)
    | _, .track _ => q.modGroup g fun x => { x with state := .idle, move := none }
    | _, .cue _ => (q.modGroup g fun x => { x with state := .held, held := true }).raise (.group g) .groupHeld

/-! ### Ends of a play -/

/-- R135: outside a play the track is LOADED while its list holds a waypoint and EMPTY while it holds none. -/
def Track.restState (x : Track) : TrackState := if x.waypoints.isEmpty then .empty else .loaded

/-- R145, R147, R148: the play's segment and timers go, and the track takes its state by its list. -/
def Track.endSegment (x : Track) : Track :=
  { x with state := x.restState, current := none, closing := false, segmentTimer := none, starvationTimer := none }

/-- R147, R148: the sets of the play, the segment, the timers, the origins and the stored tier go. -/
def Track.clearPlay (x : Track) : Track :=
  { x.endSegment with playing := [], arrived := [], origins := Vector.replicate 8 none, tier := none }

/-- R84: a completion order from the track buffer. A PREPARING or RUNNING group takes reason COMPLETE, and completes at once
when every lane channel is HOLDING; a STOPPING group keeps its reason. -/
def Part.completionOrder (p : Part) (g : Grp) : Part :=
  if (p.group g).active then
    let q := p.enterStopping g .complete
    if q.atRest g then q.exitCore g else q
  else p

/-- R147: the play ends: completion orders in group order, the track's records cleared, and the event raised. The sets are
cleared before the orders are given, so that a group's end finds it out of the playing set. -/
def Part.endPlay (p : Part) (t : Trk) (e : Event) : Part :=
  ((p.modTrack t Track.clearPlay).forEach (p.track t).playing Part.completionOrder).raise (.track t) e

/-- R145: every playing group has reached the current segment's targets. -/
def Track.allReached (x : Track) : Bool := x.playing.all x.arrived.contains

/-- R145: a group reports that it has reached its segment's targets. -/
def Part.segmentReached (p : Part) (t : Trk) (g : Grp) : Part :=
  if (p.track t).playing.contains g then
    let q := p.modTrack t fun x => { x with arrived := addGroup g x.arrived }
    if (q.track t).closing && (q.track t).allReached then q.endPlay t .trackEnded else q
  else p

/-- R145: the play is abandoned: origins and stored tier are kept (log 19). -/
def Part.abandonPlay (p : Part) (t : Trk) : Part := (p.modTrack t Track.endSegment).raise (.track t) .trackStopped

/-- R145: the track without a group that has left its play. -/
def Track.dropPlaying (g : Grp) (x : Track) : Track :=
  { x with playing := dropGroup g x.playing, arrived := dropGroup g x.arrived }

/-- R143, R148: a play is under way. -/
def Track.inPlay (x : Track) : Bool := x.state == .playing || x.state == .starved

/-- R145, R149: a group reports that its track move has ended. The last to leave abandons the play, a closing one too (log 18);
a closing track whose remaining groups have all arrived ends it. -/
def Part.moveEnded (p : Part) (t : Trk) (g : Grp) : Part :=
  if (p.track t).playing.contains g then
    let q := p.modTrack t (Track.dropPlaying g)
    if (q.track t).playing.isEmpty then if (q.track t).inPlay then q.abandonPlay t else q
    else if (q.track t).closing && (q.track t).allReached then q.endPlay t .trackEnded
    else q
  else p

/-! ### Leaving STOPPING -/

/-- R82, R126, R145: the group tells its track buffer, or its cue queue of a completion. -/
def Part.tellEnd (p : Part) (g : Grp) (m : MoveRecord) : Part :=
  match m.source with
  | .track t => p.moveEnded t g
  | .cue _ => if m.reason = some .complete then p.arm .completion g else p

/-- R82: a STOPPING group whose lane channels are all HOLDING or FAULTED leaves STOPPING. -/
def Part.exitStopping (p : Part) (g : Grp) : Part :=
  if (p.group g).state = .stopping && p.atRest g then
    match (p.group g).move with
    | some m => (p.exitCore g).tellEnd g m
    | none => p
  else p

/-- R81, R83: a stop reaches a group: a PREPARING or RUNNING group enters STOPPING, and leaves it in the same taking when it is
at rest; any other group is not changed. -/
def Part.stopGroup (p : Part) (g : Grp) (reason : StopReason) : Part :=
  if (p.group g).active then (p.enterStopping g reason).exitStopping g else p

/-- R148: a stop of a track. A PLAYING or STARVED track stops its playing groups in group order and ends its play; any other
discards its origin records. -/
def Part.haltTrack (p : Part) (t : Trk) : Part :=
  match (p.track t).state with
  | .playing | .starved =>
    ((p.modTrack t Track.clearPlay).forEach (p.track t).playing fun p g => p.stopGroup g .request).raise (.track t)
      .trackStopped
  | .empty | .loaded => p.modTrack t fun x => { x with origins := Vector.replicate 8 none }

/-! ### Faults and halts -/

/-- R79: the cause a member fault gives the group. -/
def Part.faultCause (p : Part) (g : Grp) (c : Chan) (k : FaultKind) : GroupFault :=
  match k, (p.group g).lanes.findIdx? fun l => l.channel == c with
  | .stall, some i => .stall i
  | _, _ => .memberFault c k

/-- R79: a fault on a lane channel reaches the group. -/
def Part.memberFault (p : Part) (g : Grp) (c : Chan) (k : FaultKind) : Part :=
  let withCause := p.modGroup g fun x => { x with fault := some (p.faultCause g c k) }
  match (p.group g).state with
  | .preparing | .running => withCause.stopGroup g .fault
  | .stopping =>
    if (p.group g).move.bind (·.reason) = some .fault then p
    else withCause.modGroup g fun x => { x with move := x.move.map fun m => { m with reason := some .fault } }
  | .empty | .idle | .held | .faulted => p

/-- R149: a playing group that takes a halt before its track buffer does; which is a free value (log 6). -/
def Part.haltsFirst (p : Part) (g : Grp) : Bool :=
  (p.group g).active && (p.group g).trackOf.isSome && Config.groupBeforeTrack (p.draws + g.val)

/-- R127: a halt reaches a cue queue. -/
def CueQueue.halt (q : CueQueue) : CueQueue := q.disarm.block

/-- R155: the halt is handed to the blocks that hold motion: groups and tracks, jogs, cue queues. Which playing groups take it
before their track buffer is a free value (log 6); those that do take it in group order, for which the manual gives no order
(log 34). -/
def Part.handHalt (p : Part) : Part :=
  let p := (p.draw 8).forEach (allGroups.filter p.haltsFirst) fun p g => p.stopGroup g .halt
  let p := p.forEach allTracks Part.haltTrack
  let p := p.forEach allGroups fun p g => p.stopGroup g .halt
  let p := p.endJogs fun _ => true
  p.forEach allGroups fun p g => p.modQueue g CueQueue.halt

/-- R155: a halt. Taken while HALTED it changes nothing. -/
def Part.halt (p : Part) (cause : ModeCause) : Part :=
  if p.ctl.mode = .halted then p
  else ((p.modCtl fun m => { m with silenceDisarm := false }).changeMode .halted cause).handHalt

/-- R17, R102, R103: a fault reaches a channel. A kind the record already holds is no new fault. Otherwise the record is
written, the state changes, the mover is told, the notice is raised, and for DEVICE scope the device halts. -/
def Part.faultReaches (p : Part) (c : Chan) (k : FaultKind) : Part :=
  if (p.chan c).configured && !(p.chan c).holdsFault k then
    let p1 := p.modChan c fun x => (x.enterFault k).faultState
    let p2 :=
      match (p.chan c).mover with
      | .group g => p1.memberFault g c k
      | .jog _ => p1.endJog c
      | .none => p1
    let p3 := p2.raise (.channelFault c) (.fault k)
    if k.isDevice then p3.halt (.deviceFault c) else p3
  else p

/-- R80: the engine raises a group fault naming a lane: the fault record and STOPPING first, then the lane channel's fault;
the exit is judged last (log 13). -/
def Part.raiseGroupFault (p : Part) (g : Grp) (lane : Nat) (cause : GroupFault) (k : FaultKind) : Part :=
  let q := (p.modGroup g fun x => { x with fault := some cause }).enterStopping g .fault
  match (p.group g).lanes[lane]? with
  | some l => (q.faultReaches l.channel k).exitStopping g
  | none => q.exitStopping g

end Sys2Proof.Machine
end

