-- ==== Sys2Proof/Machine/Channels.lean ====
section
/-! DEFINITION. The requests that name one channel: CONFIGURE_CHANNEL, SET_POSITION and JOG (R18 to R23). -/

namespace Sys2Proof.Machine

/-! ### CONFIGURE_CHANNEL -/

/-- R2: the configuration a record carries, if every field is in its range. -/
def ChannelConfig.inRange (x : ChannelConfig) : Bool :=
  20 ≤ x.nominalSpeed && x.nominalSpeed ≤ 400 && 10 ≤ x.jogSpeed && x.jogSpeed ≤ x.nominalSpeed
    && x.softLower < x.softUpper && x.softUpper ≤ Config.maxPosition && 125 ≤ x.wll && x.wll ≤ 5000
    && 100 ≤ x.overloadPct && x.overloadPct ≤ 150 && x.underload ≤ 1000 && 10 ≤ x.watchBand && x.watchBand ≤ 500
    && x.guardTier ≤ 7

/-- R18, R47: the channel is a lane of a defined group, in a lane of a kind. -/
def Part.inLane (p : Part) (c : Chan) (test : Lane → Bool) : Bool :=
  allGroups.any fun g =>
    (p.group g).state != .empty && (p.group g).lanes.any fun l => l.channel == c && test l

/-- R47, R51: a ratio at which no FIXED channel stands. -/
def Lane.partRatio (l : Lane) : Bool := 1 ≤ l.ratio && l.ratio ≤ 7

/-- R18: what the STATE step refuses. -/
def Part.configureBad (p : Part) (c : Chan) (kind : ChannelKind) : Bool :=
  let x := p.chan c
  x.mover != .none || !(x.state == .idle || x.state == .faulted || x.state == .absent)
    || (kind == .absent && p.inLane c fun _ => true) || (kind == .absent && x.fault.isSome)
    || (kind == .fixedSpeed && p.inLane c Lane.partRatio)

/-- R19: the channel after an accepted CONFIGURE_CHANNEL. -/
def Channel.configure (mode : DeviceMode) (kind : ChannelKind) (config : ChannelConfig) (x : Channel) : Channel :=
  let y : Channel := { x with kind := kind, config := config, statusSlot := none, positionSlot := none }
  if x.state = .absent then
    if kind = .absent then y
    else { y with state := .idle, rest := x.raw, settling := true, settleTimer := some Config.settleMs
                  watchBaseline := if mode = .parked then some x.load else x.watchBaseline }
  else if kind = .absent then
    { y with state := .absent, offset := 0, referenced := false, watchBaseline := none, settling := false
             settleTimer := none }
  else y

/-- R18, R19: the checks from MODE on, and the effect. -/
def Part.configure (p : Part) (l : Link) (tier : Nat) (c : Chan) (kind : ChannelKind) (config : ChannelConfig) : Verdict :=
  let x := p.chan c
  let i := byteOf c.val
  refuseIf (!(p.ctl.mode == .standby || p.ctl.mode == .parked)) .mode noIndex <|
  refuseIf (1 < tier) .tier i <|
  refuseIf (aboveGuard tier x) .tier i <|
  refuseIf (ownedByOther l x) .claim i <|
  refuseIf (p.configureBad c kind) .state i <|
  .accepted [] (p.modChan c (Channel.configure p.ctl.mode kind config))

/-- R18. -/
def judgeConfigureChannel : Judge := fun l tier body p =>
  match body with
  | [b, k, n1, n2, j1, j2, sl1, sl2, su1, su2, w1, w2, ov, ul1, ul2, wb1, wb2, gt] =>
    p.withChan b fun c =>
      match kindOf k with
      | none => .refused .range b
      | some kind =>
        let config : ChannelConfig :=
          { nominalSpeed := rd16 n1 n2, jogSpeed := rd16 j1 j2, softLower := rd16 sl1 sl2, softUpper := rd16 su1 su2
            wll := rd16 w1 w2, overloadPct := ov.toNat, underload := rd16 ul1 ul2, watchBand := rd16 wb1 wb2
            guardTier := gt.toNat }
        refuseIf (!config.inRange) .range b <|
        p.configure l tier c kind config
  | _ => misfit

/-- CONFIGURE_CHANNEL 10h (R18, R19). -/
def execConfigureChannel (l : Link) (tier : Byte) (body : List Byte) (s : State) : Host.Outcome State Fault Refusal :=
  s.note fun p => p.request l 0x10 tier body (lengthIs 18) judgeConfigureChannel.driven

/-! ### SET_POSITION -/

/-- R20: the channel after an accepted SET_POSITION. -/
def Channel.setPosition (position : Nat) (x : Channel) : Channel :=
  { x with offset := position - x.raw, referenced := true, statusSlot := none, positionSlot := none }

/-- R20. -/
def judgeSetPosition : Judge := fun l tier body p =>
  match body with
  | [b, h, lo] =>
    p.withChan b fun c =>
      refuseIf (Config.maxPosition < rd16 h lo) .range b <|
      refuseIf (!(p.ctl.mode == .standby || p.ctl.mode == .parked)) .mode noIndex <|
      refuseIf (1 < tier) .tier b <|
      refuseIf (aboveGuard tier (p.chan c)) .tier b <|
      refuseIf (ownedByOther l (p.chan c)) .claim b <|
      refuseIf (unreservable (p.chan c)) .state b <|
      .accepted [] (p.modChan c (Channel.setPosition (rd16 h lo)))
  | _ => misfit

/-- SET_POSITION 11h (R20). -/
def execSetPosition (l : Link) (tier : Byte) (body : List Byte) (s : State) : Host.Outcome State Fault Refusal :=
  s.note fun p => p.request l 0x11 tier body (lengthIs 3) judgeSetPosition

/-! ### JOG -/

/-- R22: the demand of a jog; R10 caps it, and takes 0 for a FIXED channel. -/
def Channel.jogDemand (x : Channel) : Nat :=
  if x.referenced then x.config.jogSpeed else min x.config.jogSpeed (x.config.nominalSpeed / 4)

/-- R21, R98: a jog starts: mover, jog record, release and progress watch. -/
def Channel.startJog (l : Link) (d : Dir) (x : Channel) : Channel :=
  (({ x with mover := .jog l, jog := some { direction := d, lease := Config.leaseMs } } : Channel).release d
    x.jogDemand).armWatch true

/-- R21: the channel stands at or beyond the soft limit in a direction. -/
def Channel.beyondSoft (d : Dir) (x : Channel) : Bool :=
  x.referenced &&
    match d with
    | .up => x.config.softUpper ≤ x.pos
    | .down => x.pos ≤ x.config.softLower

/-- R21: the mover is a group. -/
def Channel.groupMoved (x : Channel) : Bool :=
  match x.mover with
  | .group _ => true
  | .none | .jog _ => false

/-- R21: the lease of a jog is restarted. -/
def Channel.renewJog (x : Channel) : Channel :=
  { x with jog := x.jog.map fun j => { j with lease := Config.leaseMs } }

/-- R21: an accepted JOG on a channel whose mover is no group: outcome 0 NO_JOG, 1 STARTED, 2 RENEWED, 3 ENDED. -/
def Part.jog (p : Part) (l : Link) (c : Chan) (dir : Option Dir) : Byte × Part :=
  match (p.chan c).mover, dir with
  | .jog _, some d =>
    if (p.chan c).jog.map (·.direction) = some d then (2, p.modChan c Channel.renewJog) else (3, p.endJog c)
  | .jog _, none => (3, p.endJog c)
  | _, some d => (1, p.modChan c (Channel.startJog l d))
  | _, none => (0, p)

/-- R21: the STATE and LIMIT conditions of UP or DOWN on a channel without a mover. -/
def Part.jogChecks (p : Part) (c : Chan) (b : Byte) (dir : Option Dir) (rest : Verdict) : Verdict :=
  match dir with
  | some d =>
    if (p.chan c).mover = .none then
      refuseIf ((p.chan c).state != .idle) .state b <|
      refuseIf ((p.chan c).beyondSoft d) .limit b rest
    else rest
  | none => rest

/-- R21. -/
def judgeJog : Judge := fun l tier body p =>
  match body with
  | [b, k] =>
    p.withChan b fun c =>
      match jogDirOf k with
      | none => .refused .range b
      | some dir =>
        refuseIf (p.ctl.mode != .armed) .mode noIndex <|
        refuseIf (aboveGuard tier (p.chan c)) .tier b <|
        refuseIf (notOwnedBy l (p.chan c)) .claim b <|
        refuseIf (p.chan c).groupMoved .state b <|
        p.jogChecks c b dir <|
        .accepted [(p.jog l c dir).1] (p.jog l c dir).2
  | _ => misfit

/-- JOG 14h (R21, R22). -/
def execJog (l : Link) (tier : Byte) (body : List Byte) (s : State) : Host.Outcome State Fault Refusal :=
  s.note fun p => p.request l 0x14 tier body (lengthIs 2) judgeJog.driven

/-- JOG_LEASE_EXPIRY (R23): the lease of a running jog has run out (log 4). -/
def execJogLeaseExpiry (c : Chan) (s : State) : Host.Outcome State Fault Refusal :=
  s.take fun p => p.awake fun p => if (p.chan c).jog.map (·.lease) = some 0 then p.endJog c else p

end Sys2Proof.Machine
end

