-- ==== Sys2Proof/Machine/Claims.lean ====
section
/-! DEFINITION. CLAIM and RELEASE (R39 to R44). -/

namespace Sys2Proof.Machine

/-- The number of members whose channel meets a condition. -/
def Part.countChans (p : Part) (members : List Chan) (test : Channel → Bool) : Nat := members.countP fun c => test (p.chan c)

/-- Sets the owner of the members whose channel meets a condition. -/
def Part.setOwners (p : Part) (members : List Chan) (test : Channel → Bool) (owner : Option Link) : Part :=
  p.forEach members fun p c => p.modChan c fun x => if test x then { x with owner := owner } else x

/-- The channel has no owner. -/
def unowned (x : Channel) : Bool := x.owner == none

/-- R40: CLAIM takes a span, all or nothing. -/
def judgeClaim : Judge := fun l tier body p =>
  match body with
  | [a, b] =>
    p.withSpan a b fun members =>
      check .tier (p.firstChan members (aboveGuard tier)) <|
      check .claim (p.firstChan members (ownedByOther l)) <|
      .accepted [byteOf (p.countChans members unowned)] (p.setOwners members unowned (some l))
  | _ => misfit

/-- CLAIM 12h (R40). -/
def execClaim (l : Link) (tier : Byte) (body : List Byte) (s : State) : Host.Outcome State Fault Refusal :=
  s.note fun p => p.request l 0x12 tier body (lengthIs 2) judgeClaim

/-- The channel has an owner that a release takes away: the requester, or with FORCE any. -/
def released (l : Link) (force : Bool) (x : Channel) : Bool := if force then x.owner != none else x.owner == some l

/-- R41, R42: RELEASE of a span, without or with FORCE, from TIER on. -/
def Part.releaseSpan (p : Part) (l : Link) (tier : Nat) (force : Bool) (members : List Chan) : Verdict :=
  refuseIf (force && tier != 0) .tier noIndex <|
  check .tier (p.firstChan members (aboveGuard tier)) <|
  check .state (p.firstChan members fun x => released l force x && x.mover != .none) <|
  .accepted [byteOf (p.countChans members (released l force))] (p.setOwners members (released l force) none)

/-- R41, R42, R188: the FORCE byte is 0 or 1. -/
def judgeRelease : Judge := fun l tier body p =>
  match body with
  | [a, b, force] =>
    p.withSpan a b fun members =>
      refuseIf (1 < force.toNat) .range noIndex <|
      p.releaseSpan l tier (force == 1) members
  | _ => misfit

/-- RELEASE 13h without FORCE (R41). -/
def execRelease (l : Link) (tier : Byte) (body : List Byte) (s : State) : Host.Outcome State Fault Refusal :=
  s.note fun p => p.request l 0x13 tier body (lengthIs 3) judgeRelease

/-- RELEASE 13h with FORCE (R42). -/
def execReleaseForce (l : Link) (tier : Byte) (body : List Byte) (s : State) : Host.Outcome State Fault Refusal :=
  s.note fun p => p.request l 0x13 tier body (lengthIs 3) judgeRelease

end Sys2Proof.Machine
end

