-- ==== Sys2Proof/Machine/Tracks.lean ====
section
/-! DEFINITION. Tracks: binding, feeding, playing and stopping (R137 to R148), the segments and their retargets (R85, R141,
R144, R146), and the two track timers. -/

namespace Sys2Proof.Machine

/-- R31: the modes in which group and track definitions are refused. -/
def Part.standsDown (p : Part) : Bool := p.ctl.mode == .parked || p.ctl.mode == .halted

/-! ### Binding -/

/-- R137: a lane's channel is a lane channel of a group already bound to the track. -/
def Part.sharedLane (p : Part) (t : Trk) (g : Grp) : Option Byte :=
  ((p.group g).lanes.findIdx? fun l =>
    (p.track t).bound.any fun h => (p.group h).lanes.any fun m => m.channel == l.channel).map byteOf

/-- R137, R121: the group is bound, the track has an owner, and the group's head is disarmed. -/
def Part.bind (p : Part) (l : Link) (t : Trk) (g : Grp) : Part :=
  ((p.modTrack t fun x =>
      { x with bound := addGroup g x.bound, owner := if x.bound.isEmpty then some l else x.owner }).modGroup g fun x =>
      { x with boundTrack := some t }).modQueue g CueQueue.disarm

/-- R137, from MODE on. -/
def Part.bindChecked (p : Part) (l : Link) (t : Trk) (g : Grp) : Verdict :=
  refuseIf p.standsDown .mode noIndex <|
  refuseIf ((p.track t).owner == some l.other) .claim noIndex <|
  refuseIf ((p.group g).state != .idle) .state noIndex <|
  refuseIf (p.group g).boundTrack.isSome .state noIndex <|
  refuseIf (p.track t).inPlay .state noIndex <|
  check .state (p.sharedLane t g) <|
  .accepted [] (p.bind l t g)

/-- R137. -/
def judgeBindTrack : Judge := fun l _ body p =>
  match body with
  | [a, b] => withTrk a fun t => withGrp b fun g => p.bindChecked l t g
  | _ => misfit

/-- BIND_TRACK 30h (R137). -/
def execBindTrack (l : Link) (tier : Byte) (body : List Byte) (s : State) : Host.Outcome State Fault Refusal :=
  s.note fun p => p.request l 0x30 tier body (lengthIs 2) judgeBindTrack

/-- R138: the track without a group; an unbound track has no owner and no waypoints. -/
def Track.dropBound (g : Grp) (x : Track) : Track :=
  let y : Track := { x with bound := dropGroup g x.bound, origins := x.origins.set g none }
  if y.bound.isEmpty then { y with owner := none, waypoints := [], state := .empty } else y

/-- R138, R118: a group is unbound, and its queue judges arming by occasion (c). -/
def Part.unbind (p : Part) (t : Trk) (g : Grp) : Part :=
  ((p.modTrack t (Track.dropBound g)).modGroup g fun x => { x with boundTrack := none }).arm .other g

/-- R138. -/
def judgeUnbindTrack : Judge := fun _ _ body p =>
  match body with
  | [a, b] =>
    withTrk a fun t =>
      withGrp b fun g =>
        refuseIf p.standsDown .mode noIndex <|
        refuseIf (!(p.track t).bound.contains g) .state noIndex <|
        refuseIf ((p.group g).state != .idle) .state noIndex <|
        .accepted [] (p.unbind t g)
  | _ => misfit

/-- UNBIND_TRACK 31h (R138). -/
def execUnbindTrack (l : Link) (tier : Byte) (body : List Byte) (s : State) : Host.Outcome State Fault Refusal :=
  s.note fun p => p.request l 0x31 tier body (lengthIs 2) judgeUnbindTrack.driven

/-! ### Segments -/

/-- R141: a VARIABLE lane's demand for a segment; R10 takes 0 for a FIXED channel. -/
def segmentDemand (x : Channel) (delta : Int) (duration : Nat) : Nat :=
  x.capDemand (max 10 ((delta.natAbs * 1000 + duration - 1) / duration))

/-- R141: the target and demand of one lane for a waypoint, from its origin. -/
def Part.segmentLane (p : Part) (w : Waypoint) (l : Lane) (origin : Int) : Int × Nat :=
  let target := origin + l.travel w.offset
  (target, segmentDemand (p.chan l.channel) (target - (p.chan l.channel).pos) w.duration)

/-- The lane channels' latest positions. -/
def Part.positions (p : Part) (g : Grp) : List Int := (p.group g).lanes.map fun l => (p.chan l.channel).pos

/-- R142, R143: a group's origins; the latest positions stand in for origins it does not have. -/
def Part.originsOf (p : Part) (t : Trk) (g : Grp) : List Int := ((p.track t).origins[g]).getD (p.positions g)

/-- R141: the targets and demands of a group for a waypoint. -/
def Part.segmentPlan (p : Part) (t : Trk) (g : Grp) (w : Waypoint) : List (Int × Nat) :=
  ((p.group g).lanes.zip (p.originsOf t g)).map fun lo => p.segmentLane w lo.1 lo.2

/-- R85: the lane's channel is MOVING in a direction. -/
def Channel.movesToward (d : Dir) (x : Channel) : Bool := x.state == .moving && x.direction == some d

/-- R85: a lane's entry after a new target. A lane within the arrival band is ARRIVED, with no demand (logs 14, 15); any other
is DRIVING and released, a HOLD lane and one at ratio 8 to 15 too, for which R49 and R50 have it otherwise (log 33). -/
def LaneRecord.retarget (x : Channel) (target : Int) (demand : Nat) (r : LaneRecord) : LaneRecord :=
  let travel := target - x.pos
  let arrived := travel.natAbs ≤ Config.arrivalMm
  { r with start := x.pos, target := target, travel := travel
           state := if arrived then .arrived else .driving
           confirmed := decide arrived || (r.confirmed && x.movesToward (dirOf travel))
           demand := if arrived then 0 else demand, full := if arrived then 0 else demand }

/-- R85, R98: what a retarget does to the lane's channel: a stop with the watch disarmed, or a release with it armed. -/
def Channel.follow (r : LaneRecord) (x : Channel) : Channel :=
  if r.state = .arrived then x.stop.armWatch false else (x.release (dirOf r.travel) r.demand).armWatch true

/-- R85: the lane entries of a move after new targets. -/
def Part.retargetLanes (p : Part) (g : Grp) (plan : List (Int × Nat)) (m : MoveRecord) : List LaneRecord :=
  (((p.group g).lanes.zip m.lanes).zip plan).map fun lrt =>
    lrt.1.2.retarget (p.chan lrt.1.1.channel) lrt.2.1 lrt.2.2

/-- R85: a retarget, refused at LIMIT alone. With a lane unconfirmed the group is PREPARING. -/
def Part.retarget (p : Part) (g : Grp) (plan : List (Int × Nat)) : Part :=
  match (p.group g).move with
  | none => p
  | some m =>
    if (p.firstOut g plan).isSome then p
    else
      let records := p.retargetLanes g plan m
      let q := p.modGroup g fun x =>
        { x with move := some { m with lanes := records }
                 state := if records.all (·.confirmed) then x.state else .preparing }
      q.forEach ((p.group g).lanes.zip records) fun q lr => q.modChan lr.1.channel (Channel.follow lr.2)

/-- R144: the head waypoint becomes the current segment. -/
def Track.takeHead (x : Track) : Track :=
  match x.waypoints with
  | [] => x
  | w :: rest =>
    { x with waypoints := rest, current := some w, segmentTimer := some w.duration, arrived := [], closing := false
             state := .playing }

/-- R144: the head waypoint becomes the current segment, and every playing group that is PREPARING or RUNNING is retargeted. -/
def Part.startSegment (p : Part) (t : Trk) : Part :=
  match (p.track t).waypoints with
  | [] => p
  | w :: _ =>
    (p.modTrack t Track.takeHead).forEach (p.track t).playing fun p g =>
      if (p.group g).active then p.retarget g (p.segmentPlan t g w) else p

/-! ### Feeding -/

/-- R139: a waypoint of the batch is out of its range, or carries END without being the last. -/
def waypointBad (isLast : Bool) (w : Waypoint) : Bool :=
  w.offset < -30000 || 30000 < w.offset || w.duration < 40 || 60000 < w.duration || (w.last && !isLast)

/-- R139: the first waypoint of the batch that RANGE refuses. -/
def firstBadWaypoint (batch : List Waypoint) : Option Nat :=
  batch.zipIdx.findIdx? fun wi => waypointBad (wi.2 + 1 == batch.length) wi.1

/-- R140: an accepted FEED_TRACK. -/
def Part.feed (p : Part) (t : Trk) (batch : List Waypoint) : Part :=
  let q := p.modTrack t fun x =>
    { x with waypoints := x.waypoints ++ batch, state := if x.state = .empty then .loaded else x.state }
  if (p.track t).state = .starved then
    (q.modTrack t fun x => { x with starvationTimer := none }).startSegment t
  else q

/-- R139, from MODE on. The reply carries the number of waypoints the list then holds (R140). -/
def Part.feedChecked (p : Part) (l : Link) (t : Trk) (batch : List Waypoint) : Verdict :=
  refuseIf p.standsDown .mode noIndex <|
  refuseIf ((p.track t).owner != some l) .claim noIndex <|
  refuseIf ((p.track t).waypoints.any (·.last)) .state noIndex <|
  refuseIf (Config.maxWaypoints < (p.track t).waypoints.length + batch.length) .capacity noIndex <|
  .accepted [byteOf ((p.feed t batch).track t).waypoints.length] (p.feed t batch)

/-- R139. -/
def judgeFeedTrack : Judge := fun l _ body p =>
  match body with
  | a :: n :: rest =>
    withTrk a fun t =>
      refuseIf (n.toNat < 1 || 8 < n.toNat) .range noIndex <|
      check .range ((firstBadWaypoint (waypointsOf rest)).map byteOf) <|
      p.feedChecked l t (waypointsOf rest)
  | _ => misfit

/-- FEED_TRACK 32h (R139, R140). -/
def execFeedTrack (l : Link) (tier : Byte) (body : List Byte) (s : State) : Host.Outcome State Fault Refusal :=
  s.note fun p => p.request l 0x32 tier body (countedLength 1 2 5) judgeFeedTrack.driven

/-! ### Playing -/

/-- R142: every lane of every bound group, groups in group order and lanes in lane order. -/
def Part.boundLanes (p : Part) (t : Trk) : List Lane := (p.track t).bound.flatMap fun g => (p.group g).lanes

/-- R142: the first lane channel of the bound groups that meets a condition, as a channel index. -/
def Part.firstBound (p : Part) (t : Trk) (bad : Channel → Bool) : Option Byte :=
  ((p.boundLanes t).find? fun l => bad (p.chan l.channel)).map fun l => byteOf l.channel.val

/-- R142: the first lane of the bound groups whose target for a waypoint is out of bounds, as a channel index. -/
def Part.firstBoundOut (p : Part) (t : Trk) (w : Waypoint) : Option Byte :=
  (((p.track t).bound.flatMap fun g => (p.group g).lanes.zip (p.segmentPlan t g w)).find? fun lt =>
    outOfBounds (p.chan lt.1.channel) lt.2.1).map fun lt => byteOf lt.1.channel.val

/-- R143: one bound group takes its origins, if it has none. -/
def Part.takeOrigins (p : Part) (t : Trk) (g : Grp) : Part :=
  p.modTrack t fun x => { x with origins := x.origins.set g (some (p.originsOf t g)) }

/-- R143: the track's side of the start of a play. -/
def Track.beginPlay (tier : Nat) (x : Track) : Track :=
  { x with tier := some tier, playing := x.bound, arrived := [] }.takeHead

/-- R143: an accepted PLAY_TRACK: origins are taken, the head becomes current, and every bound group fires its track move. -/
def Part.play (p : Part) (l : Link) (tier : Nat) (t : Trk) (w : Waypoint) : Part :=
  let q := p.forEach (p.track t).bound fun p g => p.takeOrigins t g
  (q.modTrack t (Track.beginPlay tier)).forEach (p.track t).bound fun p g =>
    p.startMove g tier l (.track t) none (p.segmentPlan t g w)

/-- R142, from MODE on. The requester has been found to be the owner link when the play starts. -/
def Part.playChecked (p : Part) (l : Link) (tier : Nat) (t : Trk) : Verdict :=
  refuseIf (p.ctl.mode != .armed) .mode noIndex <|
  check .tier (p.firstBound t (aboveGuard tier)) <|
  refuseIf ((p.track t).owner != some l) .claim noIndex <|
  check .claim (p.firstBound t (notOwnedBy l)) <|
  check .unreferenced (p.firstBound t unreferenced) <|
  refuseIf (p.track t).inPlay .state noIndex <|
  match (p.track t).waypoints with
  | [] => .refused .state noIndex
  | w :: _ =>
    refuseIf ((p.track t).bound.any fun g => (p.group g).state != .idle) .state noIndex <|
    check .state (p.firstBound t unreservable) <|
    check .limit (p.firstBoundOut t w) <|
    .accepted [] (p.play l tier t w)

/-- R142. -/
def judgePlayTrack : Judge := fun l tier body p =>
  match body with
  | [a] => withTrk a fun t => p.playChecked l tier t
  | _ => misfit

/-- PLAY_TRACK 33h (R142, R143). -/
def execPlayTrack (l : Link) (tier : Byte) (body : List Byte) (s : State) : Host.Outcome State Fault Refusal :=
  s.note fun p => p.request l 0x33 tier body (lengthIs 1) judgePlayTrack.driven

/-! ### Stopping and the timers -/

/-- R148. -/
def judgeStopTrack : Judge := fun _ _ body p =>
  match body with
  | [a] => withTrk a fun t => .accepted [] (p.haltTrack t)
  | _ => misfit

/-- STOP_TRACK 34h (R148). -/
def execStopTrack (l : Link) (tier : Byte) (body : List Byte) (s : State) : Host.Outcome State Fault Refusal :=
  s.note fun p => p.request l 0x34 tier body (lengthIs 1) judgeStopTrack.driven

/-- R146: the first lane of a group farther than its level limit from its segment target. -/
def Part.lagging (p : Part) (t : Trk) (g : Grp) (w : Waypoint) : Option Nat :=
  ((p.group g).lanes.zip (p.segmentPlan t g w)).findIdx? fun lt =>
    (p.group g).levelLimit < ((p.chan lt.1.channel).pos - lt.2.1).natAbs

/-- R146: lag is judged on one playing group. -/
def Part.judgeLag (p : Part) (t : Trk) (w : Waypoint) (g : Grp) : Part :=
  if (p.group g).active then
    match p.lagging t g w with
    | some i => (p.raiseGroupFault g i (.trackLag i) .trackLag).raise (.track t) (.trackLag g i)
    | none => p
  else p

/-- R146: what follows the expiry of a segment. -/
def Part.afterSegment (p : Part) (t : Trk) (w : Waypoint) : Part :=
  if w.last then
    let q := p.modTrack t fun x => { x with closing := true }
    if (q.track t).allReached then q.endPlay t .trackEnded else q
  else if (p.track t).waypoints.isEmpty then
    (p.modTrack t fun x =>
      { x with current := none, state := .starved, starvationTimer := some Config.starvationMs }).raise (.track t)
      .trackStarved
  else p.startSegment t

/-- R146: the segment timer expires. A play that lost its last group to the lag check is over. -/
def Part.segmentExpires (p : Part) (t : Trk) (w : Waypoint) : Part :=
  let q := (p.modTrack t fun x => { x with segmentTimer := none }).forEach (p.track t).playing fun p g => p.judgeLag t w g
  if (q.track t).state = .playing then q.afterSegment t w else q

/-- SEGMENT_TIMER_EXPIRY (R146, log 4). -/
def execSegmentTimerExpiry (t : Trk) (s : State) : Host.Outcome State Fault Refusal :=
  s.take fun p => p.awake fun p =>
    match (p.track t).current with
    | some w => if (p.track t).segmentTimer.out then p.segmentExpires t w else p
    | none => p

/-- STARVATION_TIMER_EXPIRY (R147, log 4). -/
def execStarvationTimerExpiry (t : Trk) (s : State) : Host.Outcome State Fault Refusal :=
  s.take fun p => p.awake fun p => if (p.track t).starvationTimer.out then p.endPlay t .trackStopped else p

end Sys2Proof.Machine
end

