-- ==== Sys2Proof/Machine/Cues.lean ====
section
/-! DEFINITION. QUEUE_CUE, FLUSH_CUES and SET_CLOCK, and the expiries that fire heads (R112 to R131). -/

namespace Sys2Proof.Machine

/-! ### QUEUE_CUE -/

/-- R115, R187: the form of a cue with D or T, if in range. -/
def cueFormOf (form a b c : Byte) : Option CueForm :=
  match form.toNat with
  | 0 => if rdS24 a b c < -60000 || 60000 < rdS24 a b c then none else some (.relative (rdS24 a b c))
  | 1 => if Config.maxPosition < rd24 a b c then none else some (.absolute (rd24 a b c))
  | _ => none

/-- R115: the trigger of a cue with its dwell or mark, if in range. -/
def triggerOf (trigger a b c d : Byte) : Option Trigger :=
  match trigger.toNat with
  | 0 => some .onGo
  | 1 => if 600000 < rd32 a b c d then none else some (.afterPrevious (rd32 a b c d))
  | 2 => some (.atMark (rd32 a b c d))
  | _ => none

/-- R113: an ABSOLUTE cue needs lane 0 at ratio 0; an EMPTY group has no lane 0 and passes. -/
def Part.absoluteBad (p : Part) (g : Grp) (form : CueForm) : Bool :=
  match form, (p.group g).lanes with
  | .absolute _, l :: _ => l.ratio != 0
  | _, _ => false

/-- R117, R118: the cue joins the tail; put into an empty list it is the head, and arming is judged on it. -/
def Part.queueCue (p : Part) (g : Grp) (cue : Cue) : Part :=
  let q := p.modQueue g fun x => { x with cues := x.cues ++ [cue] }
  if (p.queue g).cues.isEmpty then q.arm .other g else q

/-- R116, and the reply's count after the append (R117). -/
def Part.queueChecked (p : Part) (l : Link) (tier : Nat) (g : Grp) (cue : Cue) : Verdict :=
  refuseIf p.standsDown .mode noIndex <|
  check .tier (p.firstLane g (aboveGuard tier)) <|
  check .claim (p.firstLane g (notOwnedBy l)) <|
  check .unreferenced (p.firstLane g unreferenced) <|
  refuseIf ((p.group g).state == .empty) .state noIndex <|
  refuseIf ((p.queue g).cues.any fun x => x.number == cue.number) .state noIndex <|
  refuseIf (Config.maxCues ≤ (p.queue g).cues.length) .capacity noIndex <|
  .accepted [byteOf ((p.queue g).cues.length + 1)] (p.queueCue g cue)

/-- R115, R113. All range conditions but the last carry FFh, so their order does not show. -/
def judgeQueueCue : Judge := fun l tier body p =>
  match body with
  | [b, n1, n2, form, d1, d2, d3, v1, v2, trigger, m1, m2, m3, m4] =>
    withGrp b fun g =>
      match cueFormOf form d1 d2 d3, triggerOf trigger m1 m2 m3 m4 with
      | some f, some t =>
        refuseIf (rd16 n1 n2 == 0 || rd16 v1 v2 < 10 || 400 < rd16 v1 v2) .range noIndex <|
        refuseIf (p.absoluteBad g f) .range 0 <|
        p.queueChecked l tier g
          { number := rd16 n1 n2, form := f, speed := rd16 v1 v2, trigger := t, tier := tier, origin := l }
      | _, _ => .refused .range noIndex
  | _ => misfit

/-- QUEUE_CUE 22h (R115 to R117). -/
def execQueueCue (l : Link) (tier : Byte) (body : List Byte) (s : State) : Host.Outcome State Fault Refusal :=
  s.note fun p => p.request l 0x22 tier body (lengthIs 14) judgeQueueCue.driven

/-! ### FLUSH_CUES -/

/-- R128. -/
def judgeFlushCues : Judge := fun l tier body p =>
  match body with
  | [b] =>
    withGrp b fun g =>
      refuseIf p.standsDown .mode noIndex <|
      check .tier (p.firstLane g (aboveGuard tier)) <|
      check .claim (p.firstLane g (ownedByOther l)) <|
      .accepted [byteOf (p.queue g).cues.length] (p.setQueue g CueQueue.clear)
  | _ => misfit

/-- FLUSH_CUES 26h (R128). -/
def execFlushCues (l : Link) (tier : Byte) (body : List Byte) (s : State) : Host.Outcome State Fault Refusal :=
  s.note fun p => p.request l 0x26 tier body (lengthIs 1) judgeFlushCues

/-! ### SET_CLOCK -/

/-- The show clock takes a value and a run state. -/
def Part.setClock (p : Part) (value : Nat) (running : Bool) : Part :=
  { p with clock := { value := value, running := running } }

/-- R130, R120, R129: START of a STOPPED clock judges every waiting head; at the last value the clock stays STOPPED. The heads
are judged as on a RUNNING clock until the last of them has been, a head that a completion inside this judgement arms
among them (log 29). -/
def Part.startClock (p : Part) : Part :=
  if p.clock.running then p
  else
    let q := (p.setClock p.clock.value true).judgeAll
    if p.clock.value = Config.clockMax then q.setClock Config.clockMax false else q

/-- R130: the clock as a reply carries it. -/
def clockBytes (k : ShowClock) : List Byte := wr32 k.value ++ [wrFlag k.running]

/-- R130: an accepted SET_CLOCK. -/
def answerClock (p : Part) : Verdict := .accepted (clockBytes p.clock) p

/-- R130, R188: the action byte says which action the request has. -/
def judgeSetClock : Judge := fun _ _ body p =>
  match body with
  | [action, a, b, c, d] =>
    if action = 0 then
      refuseIf p.clock.running .state noIndex <|
      answerClock (p.setClock (rd32 a b c d) false)
    else if action = 1 then answerClock p.startClock
    else if action = 2 then answerClock (p.setClock p.clock.value false)
    else .refused .range noIndex
  | _ => misfit

/-- SET_CLOCK 27h SET (R130). -/
def execSetClockSet (l : Link) (tier : Byte) (body : List Byte) (s : State) : Host.Outcome State Fault Refusal :=
  s.note fun p => p.request l 0x27 tier body (lengthIs 5) judgeSetClock.driven

/-- SET_CLOCK 27h START (R130). -/
def execSetClockStart (l : Link) (tier : Byte) (body : List Byte) (s : State) : Host.Outcome State Fault Refusal :=
  s.note fun p => p.request l 0x27 tier body (lengthIs 5) judgeSetClock.driven

/-- SET_CLOCK 27h HOLD (R130). -/
def execSetClockHold (l : Link) (tier : Byte) (body : List Byte) (s : State) : Host.Outcome State Fault Refusal :=
  s.note fun p => p.request l 0x27 tier body (lengthIs 5) judgeSetClock.driven

/-! ### Dwells, marks and the end of the clock (log 4) -/

/-- R119: the dwell of a DWELLING head runs out, and the head fires. -/
def Part.dwellExpires (p : Part) (g : Grp) : Part := Part.fireIf (p.modQueue g CueQueue.disarm, true) g

/-- DWELL_EXPIRY (R119). -/
def execDwellExpiry (g : Grp) (s : State) : Host.Outcome State Fault Refusal :=
  s.take fun p => p.awake fun p => if (p.queue g).dwellTimer.out then p.dwellExpires g else p

/-- R120: the mark an AWAITING_MARK head waits for. -/
def CueQueue.mark (q : CueQueue) : Option Nat :=
  match q.arming, q.cues with
  | .awaitingMark, cue :: _ =>
    match cue.trigger with
    | .atMark m => some m
    | .onGo | .afterPrevious _ => none
  | _, _ => none

/-- MARK_REACHED (R120): the running clock has reached the mark of a waiting head (log 4). -/
def execMarkReached (g : Grp) (s : State) : Host.Outcome State Fault Refusal :=
  s.take fun p => p.awake fun p => p.judgeHead g

/-- SHOW_CLOCK_SATURATE (R129): the running clock has reached its last value, is judged at it (log 29), and stops. -/
def execShowClockSaturate (s : State) : Host.Outcome State Fault Refusal :=
  s.take fun p => p.awake fun p =>
    if p.clock.running && p.clock.value == Config.clockMax then p.judgeAll.setClock Config.clockMax false else p

end Sys2Proof.Machine
end

