-- ==== Sys2Proof/Machine/Feedback.lean ====
section
/-! DEFINITION. Feedback arrivals and the channel timers: the six steps of a sample (R5), standstill (R13, R14), motion
confirm (R11), fault detection (R93 to R98), the load watch (R111), and the expiries of R6, R11, R15, R16 and R98. -/

namespace Sys2Proof.Machine

/-! ### Taking the sample -/

/-- R4: a load above 9 999 kg is delivered as 9 999 kg. -/
def deliver (x : Sample) : Sample := { x with load := min x.load Config.maxLoad }

/-- R4: an arrival at a drive port. The feedback timer of a channel that does not exist does not run (R1). -/
def Port.arrive (live : Bool) (x : Sample) (q : Port) : Port :=
  { q with sample := x, arrivedSinceLoss := true, feedbackTimer := if live then some Config.feedbackMs else q.feedbackTimer }

/-- R5 step 1: live values and raw count are replaced, and the raw count joins the history. -/
def Channel.takeSample (s : Sample) (x : Channel) : Channel :=
  { x with raw := s.raw, load := s.load, upperOpen := s.upperOpen, lowerOpen := s.lowerOpen, driveFault := s.driveFault
           history := (s.raw :: x.history).take 3 }

/-! ### Standstill -/

/-- R14: the channel leaves STOPPING. With a fault record no release waits (R10: a fault discards it). -/
def Channel.leaveStopping (x : Channel) : Channel :=
  let y : Channel := { x with standstillTimer := none, rest := x.raw }
  if y.fault.isSome then { y with state := .faulted, pendingRelease := none }
  else
    match y.pendingRelease with
    | some r => y.start r.direction r.demand
    | none => if y.mover = .none then { y with state := .idle } else { y with state := .holding }

/-- R16: settling ends at a standstill. -/
def Channel.endSettling (x : Channel) : Channel := { x with rest := x.raw, settling := false, settleTimer := none }

/-- R13, R14, R16: what a standstill ends. -/
def Channel.standstill (x : Channel) : Channel :=
  let y := if x.settling then x.endSettling else x
  if y.state = .stopping then y.leaveStopping else y

/-- R14: the group that moves a channel sees it reach HOLDING or FAULTED. -/
def Part.tellMover (p : Part) (c : Chan) : Part :=
  match (p.chan c).mover with
  | .group g => p.exitStopping g
  | .none | .jog _ => p

/-- R5 step 3: standstill is judged on the new history. -/
def Part.judgeStandstill (p : Part) (c : Chan) : Part :=
  if atStandstill (p.chan c).history then (p.modChan c Channel.standstill).tellMover c else p

/-! ### Motion confirm -/

/-- The distance from one raw count to another in a direction. -/
def gain (d : Dir) (mark raw : Int) : Int :=
  match d with
  | .up => raw - mark
  | .down => mark - raw

/-- R11: the channel is confirmed. -/
def Channel.confirmed (x : Channel) : Bool :=
  x.state == .starting &&
    match x.direction, x.confirmMark with
    | some d, some mark => Config.confirmMm ≤ gain d mark x.raw
    | _, _ => false

/-- R11, R98: the confirmed channel goes to MOVING. -/
def Channel.toMoving (x : Channel) : Channel :=
  ({ x with state := .moving, confirmTimer := none, confirmMark := none } : Channel).syncWatch

/-- R11, R76: a group counts the confirmation of the lane of a channel. -/
def Group.confirmLane (c : Chan) (x : Group) : Group :=
  { x with move := x.move.map fun m =>
      { m with lanes := (x.lanes.zip m.lanes).map fun lr =>
          if lr.1.channel = c then { lr.2 with confirmed := true } else lr.2 } }

/-- R5 step 4: in STARTING, motion confirm is judged, and the mover is told. -/
def Part.judgeConfirm (p : Part) (c : Chan) : Part :=
  if (p.chan c).confirmed then
    let q := p.modChan c Channel.toMoving
    match (p.chan c).mover with
    | .group g => q.modGroup g (Group.confirmLane c)
    | .none | .jog _ => q
  else p

/-- R5 step 5, R22: the soft-limit stop of a referenced jog. -/
def Part.judgeJogLimit (p : Part) (c : Chan) : Part :=
  let x := p.chan c
  match x.jog with
  | some j =>
    let reached : Bool := match j.direction with
      | .up => x.config.softUpper ≤ x.pos
      | .down => x.pos ≤ x.config.softLower
    if x.referenced && reached then p.endJog c else p
  | none => p

/-! ### Fault detection -/

/-- R95: the load is above the overload threshold. -/
def Channel.overloaded (x : Channel) : Bool := x.config.wll * x.config.overloadPct < 100 * x.load

/-- R96: the extreme after a sample. -/
def Channel.moveExtreme (x : Channel) : Channel :=
  match x.direction, x.reversalExtreme with
  | some d, some e => if 0 < gain d e x.raw then { x with reversalExtreme := some x.raw } else x
  | _, _ => x

/-- R96: the raw count lies 10 mm or more from the extreme against the commanded direction. -/
def Channel.reversed (x : Channel) : Bool :=
  match x.direction, x.reversalExtreme with
  | some d, some e => gain d e x.raw ≤ -Config.reversedMm
  | _, _ => false

/-- R97: more than 20 mm from rest, at rest. -/
def Channel.runsAway (x : Channel) : Bool :=
  (x.state == .idle || x.state == .holding || x.state == .faulted) && !x.settling
    && Config.runawayMm < (x.raw - x.rest).natAbs

/-- R98: 3 mm of progress beyond the mark. -/
def Channel.progressed (x : Channel) : Bool :=
  match x.direction, x.progressMark with
  | some d, some mark => Config.confirmMm ≤ gain d mark x.raw
  | _, _ => false

/-- R98: the watch after a sample: progress moves the mark and restarts the timer. -/
def Channel.moveProgress (x : Channel) : Channel :=
  if x.progressTimer = .stopped then x
  else if x.progressed then { x with progressMark := some x.raw, progressTimer := .running Config.progressMs }
  else x

/-- R93 to R98: the kinds a sample meets, in the order of the checks, on the channel as step 6 begins. -/
def Channel.detected (x : Channel) : List FaultKind :=
  [(x.upperOpen || x.lowerOpen, .finalLimit), (x.driveFault, .driveFault), (x.overloaded, .overload),
   (x.live && x.load < x.config.underload, .slack), (x.moveExtreme.reversed, .reversed), (x.runsAway, .runaway),
   (x.progressTimer == .expired && !x.progressed, FaultKind.stall)].filterMap fun (bk : Bool × FaultKind) =>
    if bk.1 then some bk.2 else none

/-- R5 step 6, R93: the faults of a sample are entered and act one after the other. -/
def Part.detect (p : Part) (c : Chan) : Part :=
  (p.modChan c fun x => x.moveExtreme.moveProgress).forEach (p.chan c).detected fun p k => p.faultReaches c k

/-- R111: the load watch, against the baseline the channel held when the taking of the sample began. A baseline discarded in
the same taking is not retaken. -/
def Part.watchLoad (p : Part) (c : Chan) (baseline : Option Nat) : Part :=
  match baseline with
  | some b =>
    if (p.chan c).config.watchBand < ((p.chan c).load - b : Int).natAbs then
      (p.modChan c fun x => { x with watchBaseline := x.watchBaseline.map fun _ => x.load }).raise (.loadWatch c)
        (.loadWatch (p.chan c).load)
    else p
  | none => p

/-- R5 steps 2 to 6, on a channel that has taken a sample. -/
def Part.judgeSample (p : Part) (c : Chan) (baseline : Option Nat) : Part :=
  if (p.chan c).configured then
    ((((p.judgeStandstill c).judgeConfirm c).judgeJogLimit c).detect c).watchLoad c baseline
  else p

/-- R4, R5: a feedback arrival. The Channel Table discards the samples of a channel that does not exist (R1). -/
def Part.sampleArrives (p : Part) (c : Chan) (s : Sample) : Part :=
  let q := p.modPort c (Port.arrive (p.hasChan c) s)
  if p.hasChan c then (q.modChan c (Channel.takeSample s)).judgeSample c (p.chan c).watchBaseline else q

/-- FEEDBACK_ARRIVAL (R4, R5). -/
def execFeedbackArrival (c : Chan) (sample : Sample) (s : State) : Host.Outcome State Fault Refusal :=
  s.take fun p => p.awake fun p => p.sampleArrives c (deliver sample)

/-! ### Timer expiries (log 4) -/

/-- R6, R99: feedback of a channel is lost. The history is emptied (log 21). -/
def Part.feedbackLost (p : Part) (c : Chan) : Part :=
  ((p.modPort c fun q => { q with feedbackTimer := none, arrivedSinceLoss := false }).modChan c fun x =>
    { x with history := [] }).faultReaches c .feedbackLost

/-- FEEDBACK_TIMER_EXPIRY (R6, R99). -/
def execFeedbackTimerExpiry (c : Chan) (s : State) : Host.Outcome State Fault Refusal :=
  s.take fun p => p.awake fun p => if (p.port c).feedbackTimer.out then p.feedbackLost c else p

/-- CONFIRM_TIMER_EXPIRY (R11): no motion confirm within 600 ms is STALL. -/
def execConfirmTimerExpiry (c : Chan) (s : State) : Host.Outcome State Fault Refusal :=
  s.take fun p => p.awake fun p =>
    if (p.chan c).confirmTimer.out then
      (p.modChan c fun x => { x with confirmTimer := none }).faultReaches c .stall
    else p

/-- STANDSTILL_TIMER_EXPIRY (R15): no standstill within 2 000 ms is RUNAWAY. -/
def execStandstillTimerExpiry (c : Chan) (s : State) : Host.Outcome State Fault Refusal :=
  s.take fun p => p.awake fun p =>
    if (p.chan c).standstillTimer.out then
      (p.modChan c fun x => { x with standstillTimer := none }).faultReaches c .runaway
    else p

/-- SETTLE_TIMER_EXPIRY (R16): a channel that does not settle within 2 000 ms detects RUNAWAY, and settling ends. -/
def execSettleTimerExpiry (c : Chan) (s : State) : Host.Outcome State Fault Refusal :=
  s.take fun p => p.awake fun p =>
    if (p.chan c).settleTimer.out then
      (p.modChan c fun x => { x with settleTimer := none, settling := false }).faultReaches c .runaway
    else p

/-- PROGRESS_TIMER_EXPIRY (R98): on its own it detects nothing. -/
def execProgressTimerExpiry (c : Chan) (s : State) : Host.Outcome State Fault Refusal :=
  s.note fun p => p.awake fun p =>
    p.modChan c fun x => if x.progressTimer = .running 0 then { x with progressTimer := .expired } else x

end Sys2Proof.Machine
end

