-- ==== Sys2Proof/Machine/Faults.lean ====
section
/-! DEFINITION. CLEAR_FAULT, on a span (R104 to R106) and on a group (R90). -/

namespace Sys2Proof.Machine

/-! ### The span form -/

/-- R104: the clearing condition of one kind. -/
def Part.clearable (p : Part) (c : Chan) (k : FaultKind) : Bool :=
  let x := p.chan c
  match k with
  | .overload => !x.overloaded
  | .runaway => atStandstill x.history
  | .finalLimit => !x.upperOpen && !x.lowerOpen
  | .driveFault => !x.driveFault
  | .feedbackLost => (p.port c).arrivedSinceLoss
  | .slack | .stall | .reversed | .loadShift | .syncLost | .trackLag => true

/-- R105: the STATE step refuses a member with a record that is STOPPING or holds a kind that cannot be cleared. -/
def Part.clearBad (p : Part) (c : Chan) : Bool :=
  match (p.chan c).fault with
  | some r => (p.chan c).state == .stopping || (r.first :: r.further).any fun k => !p.clearable c k
  | none => false

/-- R106, R17: the record is discarded, and the channel leaves FAULTED. -/
def Channel.clearFault (x : Channel) : Channel :=
  { x with fault := none, rest := if x.holdsFault .runaway then x.raw else x.rest
           state := if x.state = .faulted then (if x.mover = .none then .idle else .holding) else x.state }

/-- R106: the records of the members that have one are discarded, in channel order. -/
def Part.clearSpan (p : Part) (members : List Chan) : Part :=
  p.forEach members fun p c => p.modChan c fun x => if x.fault.isSome then x.clearFault else x

/-- R105, R106, on the members of a span, from TIER on. -/
def Part.clearFaults (p : Part) (l : Link) (tier : Nat) (members : List Chan) : Verdict :=
  check .tier (if 1 < tier then p.firstChan members holdsGrave else none) <|
  check .tier (p.firstChan members (aboveGuard tier)) <|
  check .claim (p.firstChan members (ownedByOther l)) <|
  check .state ((members.find? p.clearBad).map fun c => byteOf c.val) <|
  .accepted [byteOf (p.countChans members fun x => x.fault.isSome)] (p.clearSpan members)

/-! ### The group form -/

/-- R90: an accepted CLEAR_FAULT on a group. A cue move becomes the held move; a track move is discarded, and the group
unbound. -/
def Part.clearGroup (p : Part) (g : Grp) : Part :=
  match (p.group g).trackOf with
  | some t => (p.modGroup g fun x => { x with fault := none, move := none, state := .idle }).unbind t g
  | none => p.modGroup g fun x => { x with fault := none, state := .held, held := true }

/-- R90, from TIER on. -/
def Part.clearGroupFault (p : Part) (l : Link) (tier : Nat) (g : Grp) : Verdict :=
  check .tier (if 1 < tier then p.firstLane g holdsGrave else none) <|
  check .tier (p.firstLane g (aboveGuard tier)) <|
  check .claim (p.firstLane g (ownedByOther l)) <|
  refuseIf ((p.group g).state != .faulted) .state noIndex <|
  check .state (p.firstLane g fun x => x.fault.isSome) <|
  .accepted [] (p.clearGroup g)

/-- R90, R105, R188: the form byte says which form the request has; in the group form the last byte is ignored. -/
def judgeClearFault : Judge := fun l tier body p =>
  match body with
  | [form, a, b] =>
    if form = 0 then p.withSpan a b fun members => p.clearFaults l tier members
    else if form = 1 then withGrp a fun g => p.clearGroupFault l tier g
    else .refused .range noIndex
  | _ => misfit

/-- CLEAR_FAULT 15h on a span (R105, R106). -/
def execClearFaultSpan (l : Link) (tier : Byte) (body : List Byte) (s : State) : Host.Outcome State Fault Refusal :=
  s.note fun p => p.request l 0x15 tier body (lengthIs 3) judgeClearFault.driven

/-- CLEAR_FAULT 15h on a group (R90). -/
def execClearFaultGroup (l : Link) (tier : Byte) (body : List Byte) (s : State) : Host.Outcome State Fault Refusal :=
  s.note fun p => p.request l 0x15 tier body (lengthIs 3) judgeClearFault.driven

end Sys2Proof.Machine
end

