-- ==== Sys2Proof/Machine/Groups.lean ====
section
/-! DEFINITION. The requests to groups: DEFINE_GROUP, DELETE_GROUP, GO, STOP and CANCEL (R54 to R57, R86 to R89, R124). -/

namespace Sys2Proof.Machine

/-! ### DEFINE_GROUP -/

/-- R54: the four parameters, judged before the lanes. -/
def groupParamsBad (syncWindow levelLimit loadTolerance lateGrace : Nat) : Bool :=
  syncWindow < 10 || 250 < syncWindow || levelLimit < 2 * syncWindow || 1000 < levelLimit || loadTolerance < 5
    || 60 < loadTolerance || 5000 < lateGrace

/-- R54: a lane that passes every condition of its entry: its channel exists, its codes are known, no earlier lane names its
channel, lane 0 does not HOLD, and no FIXED channel stands at ratio 1 to 7. -/
def Part.laneOf (p : Part) (earlier : List Lane) (b s r : Byte) : Option Lane :=
  match p.chanOf b, signOf s with
  | some c, some sign =>
    let lane : Lane := { channel := c, sign := sign, ratio := r.toNat }
    if 15 < r.toNat || earlier.any (·.channel == c) || (earlier.isEmpty && sign == .hold)
      || ((p.chan c).kind == .fixedSpeed && 1 ≤ r.toNat && r.toNat ≤ 7)
    then none else some lane
  | _, _ => none

/-- R54: the lane list of the body, or the index of the first lane that RANGE refuses. -/
def Part.lanesOf (p : Part) (earlier : List Lane) : List (Byte × Byte × Byte) → Except Nat (List Lane)
  | [] => .ok earlier
  | e :: rest =>
    match p.laneOf earlier e.1 e.2.1 e.2.2 with
    | none => .error earlier.length
    | some lane => p.lanesOf (earlier ++ [lane]) rest

/-- R56: the group after an accepted DEFINE_GROUP. -/
def Group.define (lanes : List Lane) (syncWindow levelLimit loadTolerance lateGrace : Nat) (x : Group) : Group :=
  { x with state := .idle, lanes := lanes, syncWindow := syncWindow, levelLimit := levelLimit
           loadTolerance := loadTolerance, lateGrace := lateGrace, boundTrack := none, move := none, held := false
           fault := none }

/-- R55: the STATE step of DEFINE_GROUP and DELETE_GROUP: the queue holds a cue, or a track is bound. -/
def Part.definitionInUse (p : Part) (g : Grp) : Bool := !(p.queue g).cues.isEmpty || (p.group g).boundTrack.isSome

/-- R55: the first lane, as an index, whose channel is ABSENT. -/
def Part.firstAbsentLane (p : Part) (lanes : List Lane) : Option Byte :=
  (lanes.findIdx? fun l => !(p.chan l.channel).configured).map byteOf

/-- R54 to R56. -/
def judgeDefineGroup : Judge := fun _ _ body p =>
  match body with
  | b :: n :: sw :: ll1 :: ll2 :: lt :: lg1 :: lg2 :: rest =>
    withGrp b fun g =>
      refuseIf (n.toNat < 1 || 8 < n.toNat) .range noIndex <|
      refuseIf (groupParamsBad sw.toNat (rd16 ll1 ll2) lt.toNat (rd16 lg1 lg2)) .range noIndex <|
      match p.lanesOf [] (triples rest) with
      | .error i => .refused .range (byteOf i)
      | .ok lanes =>
        refuseIf p.standsDown .mode noIndex <|
        refuseIf (!((p.group g).state == .empty || (p.group g).state == .idle)) .state noIndex <|
        refuseIf (p.definitionInUse g) .state noIndex <|
        check .state (p.firstAbsentLane lanes) <|
        .accepted [] (p.modGroup g (Group.define lanes sw.toNat (rd16 ll1 ll2) lt.toNat (rd16 lg1 lg2)))
  | _ => misfit

/-- DEFINE_GROUP 20h (R54 to R56). -/
def execDefineGroup (l : Link) (tier : Byte) (body : List Byte) (s : State) : Host.Outcome State Fault Refusal :=
  s.note fun p => p.request l 0x20 tier body (countedLength 1 8 3) judgeDefineGroup

/-! ### DELETE_GROUP -/

/-- R57: the group after an accepted DELETE_GROUP: EMPTY, no lanes, the power-on parameters. -/
def Group.delete (x : Group) : Group :=
  { x with state := .empty, lanes := [], syncWindow := Group.powerOn.syncWindow, levelLimit := Group.powerOn.levelLimit
           loadTolerance := Group.powerOn.loadTolerance, lateGrace := Group.powerOn.lateGrace }

/-- R57. -/
def judgeDeleteGroup : Judge := fun _ _ body p =>
  match body with
  | [b] =>
    withGrp b fun g =>
      refuseIf p.standsDown .mode noIndex <|
      refuseIf ((p.group g).state != .idle) .state noIndex <|
      refuseIf (p.definitionInUse g) .state noIndex <|
      .accepted [] (p.modGroup g Group.delete)
  | _ => misfit

/-- DELETE_GROUP 21h (R57). -/
def execDeleteGroup (l : Link) (tier : Byte) (body : List Byte) (s : State) : Host.Outcome State Fault Refusal :=
  s.note fun p => p.request l 0x21 tier body (lengthIs 1) judgeDeleteGroup

/-! ### GO -/

/-- R124: an accepted GO on an IDLE group takes the head from the list and clears arming and block. -/
def CueQueue.takeByGo (q : CueQueue) : CueQueue := { q.pop with blocked := false }

/-- R124: an accepted GO on a HELD group clears the blocked flag. -/
def CueQueue.unblock (q : CueQueue) : CueQueue := { q with blocked := false }

/-- R88: GO on a HELD group re-fires the held move. -/
def Part.refire (p : Part) (l : Link) (tier : Nat) (g : Grp) (m : MoveRecord) : Verdict :=
  (p.fire g tier l (p.group g).boundTrack.isSome m.source m.speed (p.heldPlan g m)).andThen fun q =>
    (q.modQueue g CueQueue.unblock).afterFire g (match m.source with | .cue n => n | .track _ => 0)

/-- R87, R124: GO on a group that is not HELD fires the head cue, or is refused STATE: the group is not IDLE, is bound, or its
queue is empty. -/
def Part.goHead (p : Part) (l : Link) (tier : Nat) (g : Grp) : Verdict :=
  match (p.queue g).cues with
  | [] => p.fire g tier l true (.cue 0) none []
  | cue :: _ =>
    (p.fireCue g tier l cue).andThen fun q => (q.modQueue g CueQueue.takeByGo).afterFire g cue.number

/-- R87. -/
def judgeGo : Judge := fun l tier body p =>
  match body with
  | [b] =>
    withGrp b fun g =>
      match (p.group g).state, (p.group g).move with
      | .held, some m => p.refire l tier g m
      | _, _ => p.goHead l tier g
  | _ => misfit

/-- GO 23h (R87, R88, R124). -/
def execGo (l : Link) (tier : Byte) (body : List Byte) (s : State) : Host.Outcome State Fault Refusal :=
  s.note fun p => p.request l 0x23 tier body (lengthIs 1) judgeGo.driven

/-! ### STOP -/

/-- R86, R121: a STOP reaches the queue of an IDLE group: an armed head is disarmed and the queue blocked. -/
def CueQueue.stopped (q : CueQueue) : CueQueue := if q.arming = .none then q else q.disarm.block

/-- R86: a STOP reaches one group. -/
def Part.stopRequest (p : Part) (g : Grp) : Part :=
  if (p.group g).state = .idle then p.modQueue g CueQueue.stopped else p.stopGroup g .request

/-- R86: the groups a STOP names, if every number is one of a group and none repeats. -/
def groupsOf : List Byte → Option (List Grp)
  | [] => some []
  | b :: rest =>
    match grpOf b, groupsOf rest with
    | some g, some gs => if gs.contains g then none else some (g :: gs)
    | _, _ => none

/-- R86. -/
def judgeStop : Judge := fun _ _ body p =>
  match body with
  | n :: rest =>
    refuseIf (8 < n.toNat) .range noIndex <|
    match groupsOf rest with
    | none => .refused .range noIndex
    | some gs => .accepted [] (p.forEach (if n.toNat = 0 then allGroups else gs) Part.stopRequest)
  | [] => misfit

/-- STOP 24h (R86). -/
def execStop (l : Link) (tier : Byte) (body : List Byte) (s : State) : Host.Outcome State Fault Refusal :=
  s.note fun p => p.request l 0x24 tier body (countedLength 0 1 1) judgeStop.driven

/-! ### CANCEL -/

/-- R89: a held move is discarded, and a queue that holds a cue is blocked. -/
def Part.cancel (p : Part) (g : Grp) : Part :=
  if (p.group g).state = .held then
    (p.modGroup g fun x => { x with state := .idle, move := none, held := false }).modQueue g CueQueue.block
  else p

/-- R89: the states in which CANCEL is refused. -/
def Group.uncancellable (x : Group) : Bool := x.active || x.state == .stopping || x.state == .faulted

/-- R89. -/
def judgeCancel : Judge := fun l tier body p =>
  match body with
  | [b] =>
    withGrp b fun g =>
      check .tier (p.firstLane g (aboveGuard tier)) <|
      check .claim (p.firstLane g (ownedByOther l)) <|
      refuseIf (p.group g).uncancellable .state noIndex <|
      .accepted [] (p.cancel g)
  | _ => misfit

/-- CANCEL 25h (R89). -/
def execCancel (l : Link) (tier : Byte) (body : List Byte) (s : State) : Host.Outcome State Fault Refusal :=
  s.note fun p => p.request l 0x25 tier body (lengthIs 1) judgeCancel

end Sys2Proof.Machine
end

