-- ==== Sys2Proof/Machine/Resets.lean ====
section
/-! DEFINITION. The resets (R166, R167): what taking a reset does to each block (R24, R25, R60, R61, R108, R129, R133, R134,
8.6, R169, R171, R174, R175, R179), and how the state after it is established. -/

namespace Sys2Proof.Machine

/-- R25, R108: the kinds whose records survive a line or command reset. -/
def FaultKind.survives (k : FaultKind) : Bool :=
  k == .overload || k == .reversed || k == .runaway || k == .finalLimit

/-- R25, R108: the filter of a fault record at a line or command reset. -/
def FaultRecord.filter (r : FaultRecord) : Option FaultRecord :=
  if r.first.survives then some { r with further := r.further.filter FaultKind.survives } else none

/-- R25, R108, R179: the line and command reset values of an existing channel. Its settle timer starts at the reset's end. -/
def Channel.reset (x : Channel) : Channel :=
  let fault := x.fault.bind FaultRecord.filter
  { x with
    history := [], direction := none, confirmMark := none, pendingRelease := none, jog := none, demand := 0
    mover := .none, owner := none, statusSlot := none, positionSlot := none, confirmTimer := none
    standstillTimer := none, settleTimer := none, releaseOnEnd := false, fault := fault
    state := if x.configured then (if fault.isSome then .faulted else .idle) else .absent
    settling := x.configured, rest := if x.configured then x.raw else x.rest, watchBaseline := none
    reversalExtreme := none, watchArmed := false, progressMark := none, progressTimer := .stopped }

/-- R61: the line and command reset values of a group. -/
def Group.reset (x : Group) : Group :=
  { x with state := if x.state == .empty then .empty else .idle, move := none, held := false, fault := none
           boundTrack := none, controlTimer := none }

/-- R166, R169, R171, R174, R175: what a reset takes from a link interface. Period and report enables are kept. -/
def LinkIf.reset (x : LinkIf) : LinkIf :=
  ({ x with assembler := .hunting, answering := none, overrun := false, overrunSince := false, lastLink := none
            watchdog := { x.watchdog with timer := none } } : LinkIf).setPending []

/-- R25: takes f over every existing channel. -/
def Part.eachChannel (p : Part) (f : Channel → Channel) : Part :=
  p.forEach allChans fun p c => if p.hasChan c then p.modChan c f else p

/-- R166: a line or command reset is taken: every block takes its values, and no timer runs. -/
def Part.takeReset (p : Part) : Part :=
  let p := p.eachChannel Channel.reset
  let p := p.forEach allChans fun p c => p.modPort c fun x => { x with feedbackTimer := none }
  let p := p.forEach allGroups fun p g => p.modGroup g Group.reset
  let p := { p with queues := Vector.replicate 8 CueQueue.clear, tracks := Vector.replicate 2 Track.clear
                    clock := { p.clock with running := false }, linkA := p.linkA.reset, linkB := p.linkB.reset
                    codes := EventCodes.none }
  p.modCtl fun m => { m with mainPower := false, powerGoodTimer := none, silenceDisarm := false, resetDue := false }

/-- R167: the mode after a reset. -/
def Part.modeAfterReset (p : Part) (cause : ResetCause) : DeviceMode :=
  if p.ctl.estop || p.deviceFault.isSome then .halted
  else if cause != .powerOn && p.ctl.mode == .parked then .parked
  else .standby

/-- R4, R16, R25, 8.6: the timers that run from the end of a reset. -/
def Part.startTimers (p : Part) : Part :=
  let p := p.forEach allChans fun p c =>
    if p.hasChan c then p.modPort c fun x => { x with feedbackTimer := some Config.feedbackMs } else p
  let p := p.eachChannel fun x => if x.settling then { x with settleTimer := some Config.settleMs } else x
  let p := p.modLink .a fun x => { x with watchdog := x.watchdog.restart }
  p.modLink .b fun x => { x with watchdog := x.watchdog.restart }

/-- R167: a reset ends: the record is written, the mode established with main power and baselines, and MODE raised. -/
def Part.endReset (p : Part) (cause : ResetCause) : Part :=
  let new := p.modeAfterReset cause
  let old := p.ctl.mode
  let p := p.startTimers.modCtl fun m =>
    ({ m with mode := new, resetCause := cause, fromParked := cause != .powerOn && old == .parked, held := false }
      : ModeCtl).setPower new.powered
  let p := if new = .parked then p.takeBaselines else p
  p.post .mode (.modeChange new old .reset)

/-- R24, R60, R129, R133, R134, R159, R165, R174, R175: the power-on values of every block, with the straps and input levels
sampled. PARKED is the mode that R167 reports as left after power-on. A line reset that held the part is over, be its input
still asserted (log 30). -/
def Part.powerOn (straps : Straps) (estop powerGood : Bool) (draws : Nat) : Part :=
  { channels := Vector.replicate 16 Channel.powerOn
    ports := Vector.ofFn fun c : Fin 16 => Port.powerOn c.val draws
    groups := Vector.replicate 8 Group.powerOn
    queues := Vector.replicate 8 CueQueue.clear
    clock := { value := 0, running := false }
    tracks := Vector.replicate 2 Track.clear
    linkA := LinkIf.powerOn Enables.all
    linkB := LinkIf.powerOn Enables.pendant
    codes := EventCodes.none
    ctl := { mode := .parked, mainPower := false, estop := estop, powerGood := powerGood, powerGoodTimer := none,
             straps := straps, resetCause := .powerOn, fromParked := false, wakes := Enables.wake, silenceDisarm := false,
             held := false, resetDue := false }
    draws := draws + 1 }

/-- R166: a command reset, taken and ended at once. -/
def Part.commandReset (p : Part) : Part := p.takeReset.endReset .command

/-! ### The reset commands -/

/-- POWER_ON_RESET (R166, R167): supply is applied; the straps and input levels are sampled. -/
def execPowerOnReset (straps : Straps) (estop powerGood : Bool) (s : State) : Host.Outcome State Fault Refusal :=
  s.take fun p => (Part.powerOn straps estop powerGood p.draws).endReset .powerOn

/-- LINE_RESET_ASSERT (R166): the RESET input is asserted and holds the part in reset (log 12). -/
def execLineResetAssert (s : State) : Host.Outcome State Fault Refusal :=
  s.take fun p => p.awake fun p => p.takeReset.modCtl fun m => { m with held := true }

/-- LINE_RESET_RELEASE (R166, R167): the RESET input is released and the state after the reset is established. -/
def execLineResetRelease (s : State) : Host.Outcome State Fault Refusal :=
  s.take fun p => if p.ctl.held then p.endReset .line else p

/-- COMMAND_RESET (R166): the reset that an accepted RESET has scheduled is taken (log 11). -/
def execCommandReset (s : State) : Host.Outcome State Fault Refusal :=
  s.take fun p => if p.ctl.resetDue then p.commandReset else p

/-- R171: the last byte of a link's reply has been sent. The overrun flag the reply carried is cleared; one set since its
composing stays (log 9). -/
def LinkIf.replySent (x : LinkIf) : LinkIf :=
  { x with answering := none, overrun := x.overrunSince, overrunSince := false }

/-- REPLY_SENT (R171, R166): the link stops answering. The last byte of the RESET reply takes the command reset. RESET is
taken from Link A alone (R34). -/
def execReplySent (l : Link) (s : State) : Host.Outcome State Fault Refusal :=
  s.take fun p =>
    if (p.link l).answering.isSome then
      let q := p.modLink l LinkIf.replySent
      if p.ctl.resetDue && l == .a then q.commandReset else q
    else p

end Sys2Proof.Machine
end

