-- ==== Sys2Proof/Machine/Links.lean ====
section
/-! DEFINITION. The links' own requests and events: IDENTIFY, HEARTBEAT, SET_WATCHDOG, SET_NOTICES, unknown kinds, frames,
and link silence (R28, R160 to R164, R169 to R177). -/

namespace Sys2Proof.Machine

/-! ### IDENTIFY -/

/-- R173: the data of an IDENTIFY reply. -/
def Part.identity (p : Part) (l : Link) : List Byte :=
  [0x0A, 0x4B, 0x04, 0x16, 0x01, byteOf p.ctl.straps.rackId.val, if p.ctl.straps.sixteen then 16 else 8,
   wrFlag p.ctl.straps.lockout, if p.ctl.straps.floorThree then 3 else 1, resetCauseCode p.ctl.resetCause,
   wrFlag p.ctl.fromParked, byteOf p.chanCount, linkCode l]

/-- R173: IDENTIFY has no condition and changes nothing. -/
def judgeIdentify : Judge := fun l _ _ p => .accepted (p.identity l) p

/-- IDENTIFY 01h (R173). -/
def execIdentify (l : Link) (tier : Byte) (body : List Byte) (s : State) : Host.Outcome State Fault Refusal :=
  s.note fun p => p.request l 0x01 tier body (lengthIs 0) judgeIdentify

/-! ### HEARTBEAT -/

/-- R190: the four summary bytes of a pair, as things stand (R176). -/
def Part.summary (p : Part) (l : Link) (q : NoticePair) : List Byte :=
  match q with
  | .mode => [modeCode p.ctl.mode, wrFlag p.ctl.mainPower, 0, 0]
  | .link => [watchdogCode (p.link l.other).watchdog.state, 0, 0, 0]
  | .channelFault c =>
    channelStateCode (p.chan c).state ::
      (match (p.chan c).fault with
       | some r => faultCode r.first :: kindMask r.further
       | none => [0, 0, 0])
  | .group g =>
    [groupStateCode (p.group g).state, byteOf (p.queue g).cues.length, wrFlag (p.queue g).blocked, 0]
  | .track t =>
    [trackStateCode (p.track t).state, byteOf (p.track t).waypoints.length, groupMask (p.track t).bound, 0]
  | .loadWatch c => wr16 (p.chan c).load ++ wrLoad (p.chan c).watchBaseline

/-- R174: the last-event code of a pair as a link sees it. -/
def Part.lastEvent (p : Part) (l : Link) (q : NoticePair) : Option Event :=
  match q with
  | .mode => p.codes.mode
  | .link => (p.link l).lastLink
  | .channelFault c => p.codes.faults[c]
  | .group g => p.codes.groups[g]
  | .track t => p.codes.tracks[t]
  | .loadWatch c => p.codes.watches[c]

/-- R190: a 12-byte notice: source, index, event code and data, summary. -/
def Part.notice (p : Part) (l : Link) (q : NoticePair) : List Byte :=
  [sourceCode q, pairIndex q] ++ eventBytes (p.lastEvent l q) ++ p.summary l q

/-- R176: the pair a HEARTBEAT delivers: the first of the pending set in the order of delivery. -/
def LinkIf.chosen (x : LinkIf) : Option NoticePair := NoticePair.all.find? fun q => x.pending.contains q

/-- R176: HEARTBEAT removes the chosen pair and delivers it. Beside an event raised in another taking, what it delivers
follows the order of the two takings as R178 has it in words; row 1 of R178's table gives the two outcomes to the other
order (log 31). -/
def judgeHeartbeat : Judge := fun l _ _ p =>
  match (p.link l).chosen with
  | none => .accepted [modeCode p.ctl.mode, 0] p
  | some q =>
    let left := (p.link l).pending.filter fun r => r != q
    .accepted ([modeCode p.ctl.mode, byteOf left.length] ++ p.notice l q) (p.modLink l (LinkIf.setPending left))

/-- HEARTBEAT 02h (R176). -/
def execHeartbeat (l : Link) (tier : Byte) (body : List Byte) (s : State) : Host.Outcome State Fault Refusal :=
  s.note fun p => p.request l 0x02 tier body (lengthIs 0) judgeHeartbeat

/-! ### SET_WATCHDOG -/

/-- R161: the watchdog at a period: OFF at 0, else RUNNING from the period. -/
def Watchdog.atPeriod (period : Nat) : Watchdog := ({ period := period, state := .off, timer := none } : Watchdog).restart

/-- R161: a period is 0 or 100 to 5 000 ms. -/
def periodBad (n : Nat) : Bool := n != 0 && (n < 100 || 5000 < n)

/-- R161: SET_WATCHDOG sets the requesting link's period. -/
def judgeSetWatchdog : Judge := fun l _ body p =>
  match body with
  | [h, lo] =>
    refuseIf (periodBad (rd16 h lo)) .range noIndex <|
    refuseIf (p.ctl.mode == .armed && rd16 h lo == 0) .mode noIndex <|
    .accepted (wr16 (rd16 h lo)) (p.modLink l fun x => { x with watchdog := Watchdog.atPeriod (rd16 h lo) })
  | _ => misfit

/-- SET_WATCHDOG 03h (R161). -/
def execSetWatchdog (l : Link) (tier : Byte) (body : List Byte) (s : State) : Host.Outcome State Fault Refusal :=
  s.note fun p => p.request l 0x03 tier body (lengthIs 2) judgeSetWatchdog

/-! ### SET_NOTICES -/

/-- R177: a link's report enables are replaced, and the pairs of kinds turned off leave its pending set. -/
def LinkIf.setReports (e : Enables) (x : LinkIf) : LinkIf :=
  ({ x with reports := e } : LinkIf).setPending (x.pending.filter e.has)

/-- R177: SET_NOTICES replaces the link's report enables and the device's wake enables. -/
def judgeSetNotices : Judge := fun l tier body p =>
  match body with
  | [reports, wakes] =>
    refuseIf (enablesOf wakes).mode .range noIndex <|
    refuseIf (enablesOf wakes != p.ctl.wakes && 1 < tier) .tier noIndex <|
    .accepted [enablesMask (enablesOf reports), enablesMask (enablesOf wakes)]
      ((p.modLink l (LinkIf.setReports (enablesOf reports))).modCtl fun m => { m with wakes := enablesOf wakes })
  | _ => misfit

/-- SET_NOTICES 08h (R177). -/
def execSetNotices (l : Link) (tier : Byte) (body : List Byte) (s : State) : Host.Outcome State Fault Refusal :=
  s.note fun p => p.request l 0x08 tier body (lengthIs 2) judgeSetNotices

/-! ### Unknown kinds -/

/-- R28: the request kinds of the part. -/
def knownKind (kind : Byte) : Bool :=
  (0x01 ≤ kind && kind ≤ 0x08) || (0x10 ≤ kind && kind ≤ 0x15) || (0x20 ≤ kind && kind ≤ 0x27)
    || (0x30 ≤ kind && kind ≤ 0x34) || (0x40 ≤ kind && kind ≤ 0x44)

/-- R28, R172: a frame of an unknown kind is refused UNKNOWN whatever its tier and body hold. -/
def Part.unknown (p : Part) (l : Link) (kind : Byte) (body : List Byte) : Part :=
  p.frame l body fun p =>
    if (p.link l).answering.isSome then p.overrunFrame l else (p.frameTaken l).answer l kind .unknown noIndex []

/-- UNKNOWN_KIND (R28). With the code of a request of the part it is no such event, and changes nothing (log 26). -/
def execUnknownKind (l : Link) (kind _tier : Byte) (body : List Byte) (s : State) : Host.Outcome State Fault Refusal :=
  s.note fun p => if knownKind kind then p else p.unknown l kind body

/-! ### Frames -/

/-- R169: the frame assembler of a link takes a state, unless a line reset holds the part. -/
def Part.assemble (p : Part) (l : Link) (a : Assembler) : Part := p.awake fun p => p.assembler l a

/-- FRAME_START (R169): A5h starts a frame, of which no byte has come yet. On a link that is ASSEMBLING, where R169 gives no such
event, it starts the frame anew, and the bytes held are lost (log 2). -/
def execFrameStart (l : Link) (s : State) : Host.Outcome State Fault Refusal :=
  s.note fun p => p.assemble l (.assembling [])

/-- FRAME_CRC_ERROR (R169): the frame is discarded. -/
def execFrameCrcError (l : Link) (s : State) : Host.Outcome State Fault Refusal :=
  s.note fun p => p.assemble l .hunting

/-- FRAME_LENGTH_ERROR (R169): the frame is discarded. -/
def execFrameLengthError (l : Link) (s : State) : Host.Outcome State Fault Refusal :=
  s.note fun p => p.assemble l .hunting

/-- FRAME_GAP_TIMEOUT (R169): the frame is discarded. -/
def execFrameGapTimeout (l : Link) (s : State) : Host.Outcome State Fault Refusal :=
  s.note fun p => p.assemble l .hunting

/-- FRAME_IGNORED (R170): the frame is complete, and has no other effect. -/
def execFrameIgnored (l : Link) (s : State) : Host.Outcome State Fault Refusal :=
  s.note fun p => p.assemble l .hunting

/-- FRAME_OVERRUN (R171): a frame that would be taken completes while the link is answering. On a link that is not answering
there is no such event (log 26). -/
def execFrameOverrun (l : Link) (s : State) : Host.Outcome State Fault Refusal :=
  s.note fun p => p.awake fun p => if (p.link l).answering.isSome then p.overrunFrame l else p

/-! ### Link silence -/

/-- R163: a silent link's claim on one channel: given up at once, or when the mover ends. -/
def Channel.silence (l : Link) (x : Channel) : Channel :=
  if x.owner = some l then
    if x.mover = .none then { x with owner := none } else { x with releaseOnEnd := true }
  else x

/-- R83: silence reaches a group engine. -/
def Part.silenceGroup (p : Part) (l : Link) (g : Grp) : Part :=
  if (p.group g).move.map (·.origin) = some l then p.stopGroup g .silence else p

/-- R164: silence reaches the Mode Controller. -/
def Part.judgeSilence (p : Part) (l : Link) : Part :=
  if p.ctl.mode = .armed && (p.link l.other).watchdog.state != .running then
    (p.modCtl fun m => { m with silenceDisarm := true }).judgeDisarm
  else p

/-- R162: link silence, taken by each block concerned. The group engines take it in group order, for which the manual gives no
order; on a closing track it decides how the play ends (log 34). -/
def Part.linkSilence (p : Part) (l : Link) : Part :=
  let p := p.modLink l fun x => { x with watchdog := { x.watchdog with state := .expired, timer := none } }
  let p := p.forEach allGroups fun p g => p.silenceGroup l g
  let p := p.endJogs fun k => k == l
  let p := p.forEach allChans fun p c => p.modChan c (Channel.silence l)
  (p.raiseLink l.other).judgeSilence l

/-- WATCHDOG_EXPIRY (R162, R168, R178): the timer of a watchdog has run out (log 4). After a frame that restarted it there is no
silence. -/
def execWatchdogExpiry (l : Link) (s : State) : Host.Outcome State Fault Refusal :=
  s.take fun p => p.awake fun p => if (p.link l).watchdog.timer.out then p.linkSilence l else p

end Sys2Proof.Machine
end

