-- ==== Sys2Proof/Machine/Modes.lean ====
section
/-! DEFINITION. SET_MODE, HALT, RESUME, RESET and the Mode Controller's input levels (R152 to R158, R166). -/

namespace Sys2Proof.Machine

/-! ### SET_MODE -/

/-- R31, R153: the pairs of modes that SET_MODE refuses MODE. -/
def Part.modePairBad (p : Part) (target : DeviceMode) : Bool :=
  match p.ctl.mode, target with
  | .halted, _ => true
  | .parked, .armed => true
  | .armed, .parked => true
  | .standby, .armed => p.ctl.straps.lockout
  | _, _ => false

/-- R153: the conditions of STANDBY to ARMED and of ARMED to STANDBY. -/
def Part.modeStateChecks (p : Part) (target : DeviceMode) (rest : Verdict) : Verdict :=
  match p.ctl.mode, target with
  | .standby, .armed =>
    refuseIf p.ctl.estop .state noIndex <|
    refuseIf (!p.ctl.powerGood) .state noIndex <|
    check .state (p.deviceFault.map fun c => byteOf c.val) rest
  | .armed, .standby => check .state (p.firstMover.map fun c => byteOf c.val) rest
  | _, _ => rest

/-- R154: an accepted SET_MODE. -/
def Part.setMode (p : Part) (target : DeviceMode) : Part :=
  if target = p.ctl.mode then p
  else (p.modCtl fun m => { m with silenceDisarm := false }).changeMode target .request

/-- R153, R154. -/
def judgeSetMode : Judge := fun _ _ body p =>
  match body with
  | [b] =>
    match modeTargetOf b with
    | none => .refused .range noIndex
    | some target =>
      refuseIf (p.modePairBad target) .mode noIndex <|
      p.modeStateChecks target <|
      .accepted [modeCode target] (p.setMode target)
  | _ => misfit

/-- SET_MODE 04h (R153, R154). -/
def execSetMode (l : Link) (tier : Byte) (body : List Byte) (s : State) : Host.Outcome State Fault Refusal :=
  s.note fun p => p.request l 0x04 tier body (lengthIs 1) judgeSetMode.driven

/-! ### HALT -/

/-- R157: HALT halts the device; its reply carries the mode after the request. -/
def judgeHalt : Judge := fun _ _ _ p =>
  .accepted [modeCode (p.halt .haltRequest).ctl.mode] (p.halt .haltRequest)

/-- HALT 05h (R157). -/
def execHalt (l : Link) (tier : Byte) (body : List Byte) (s : State) : Host.Outcome State Fault Refusal :=
  s.note fun p => p.request l 0x05 tier body (lengthIs 0) judgeHalt.driven

/-- BROADCAST_HALT (R157, R170): a HALT to address 31, taken and not answered. -/
def execBroadcastHalt (l : Link) (tier : Byte) (body : List Byte) (s : State) : Host.Outcome State Fault Refusal :=
  s.note fun p => p.broadcast l tier body (lengthIs 0) judgeHalt.driven

/-! ### RESUME -/

/-- R158: a channel is at rest. -/
def Channel.atRest (x : Channel) : Bool :=
  !(x.state == .starting || x.state == .moving || x.state == .stopping) && atStandstill x.history

/-- R158: the lowest configured channel that is not at rest. -/
def Part.firstUnrest (p : Part) : Option Chan := allChans.find? fun c => (p.chan c).configured && !(p.chan c).atRest

/-- R158. -/
def judgeResume : Judge := fun _ _ _ p =>
  refuseIf (p.ctl.mode != .halted) .mode noIndex <|
  refuseIf p.ctl.estop .state noIndex <|
  check .state (p.deviceFault.map fun c => byteOf c.val) <|
  check .state (p.firstUnrest.map fun c => byteOf c.val) <|
  .accepted [modeCode .standby] (p.changeMode .standby .resume)

/-- RESUME 06h (R158). -/
def execResume (l : Link) (tier : Byte) (body : List Byte) (s : State) : Host.Outcome State Fault Refusal :=
  s.note fun p => p.request l 0x06 tier body (lengthIs 0) judgeResume.driven

/-! ### RESET -/

/-- R166: an accepted RESET schedules the command reset for the end of its reply. -/
def judgeReset : Judge := fun _ tier _ p =>
  refuseIf (tier != 0) .tier noIndex <|
  .accepted [] (p.modCtl fun m => { m with resetDue := true })

/-- RESET 07h (R166). -/
def execReset (l : Link) (tier : Byte) (body : List Byte) (s : State) : Host.Outcome State Fault Refusal :=
  s.note fun p => p.request l 0x07 tier body (lengthIs 0) judgeReset

/-! ### Input levels -/

/-- EMERGENCY_STOP_ASSERT (R156): the level is recorded and the device halts. In line reset the level is recorded alone
(log 12). -/
def execEmergencyStopAssert (s : State) : Host.Outcome State Fault Refusal :=
  s.take fun p =>
    let q := p.modCtl fun m => { m with estop := true }
    q.awake fun q => q.halt .emergencyStop

/-- EMERGENCY_STOP_RELEASE (R156): the level is recorded; no mode changes. -/
def execEmergencyStopRelease (s : State) : Host.Outcome State Fault Refusal :=
  s.note fun p => p.modCtl fun m => { m with estop := false }

/-- R152: power-good goes absent: with main power on, a change from present starts the power-good timer. -/
def ModeCtl.powerGoodLost (m : ModeCtl) : ModeCtl :=
  { m with powerGood := false
           powerGoodTimer := if m.powerGood && m.mainPower then some Config.powerGoodMs else m.powerGoodTimer }

/-- POWER_GOOD_ABSENT (R152). In line reset main power is off, so no timer starts. -/
def execPowerGoodAbsent (s : State) : Host.Outcome State Fault Refusal := s.note fun p => p.modCtl ModeCtl.powerGoodLost

/-- POWER_GOOD_PRESENT (R152): the level is recorded and the timer stops. -/
def execPowerGoodPresent (s : State) : Host.Outcome State Fault Refusal :=
  s.note fun p => p.modCtl fun m => { m with powerGood := true, powerGoodTimer := none }

/-- POWER_GOOD_TIMER_EXPIRY (R152, R155): a power-good loss halts the device. -/
def execPowerGoodTimerExpiry (s : State) : Host.Outcome State Fault Refusal :=
  s.take fun p => p.awake fun p =>
    if p.ctl.powerGoodTimer.out then (p.modCtl fun m => { m with powerGoodTimer := none }).halt .powerLoss else p

end Sys2Proof.Machine
end

