-- ==== Sys2Proof/Machine/Periods.lean ====
section
/-! DEFINITION. The control period of a group engine (R69 to R78). -/

namespace Sys2Proof.Machine

/-! ### Laggard and leads -/

/-- 4.1: a lane's travelled distance at a position; 0 for a lane of zero travel, which has none. -/
def LaneRecord.travelled (r : LaneRecord) (pos : Int) : Int :=
  if 0 < r.travel then pos - r.start else if r.travel < 0 then r.start - pos else 0

/-- R70: the magnitude of a lane's travel. -/
def LaneRecord.reach (r : LaneRecord) : Int := r.travel.natAbs

/-- R70: a lane that is still on its way. -/
def LaneRecord.onWay (r : LaneRecord) : Bool := r.travel != 0 && r.state != .arrived

/-- A lane record with its lane index and its travelled distance. -/
structure Progress where
  index : Nat
  record : LaneRecord
  done : Int
  deriving DecidableEq, Repr

/-- R70: the lanes of a move with what they have travelled. -/
def Part.progress (p : Part) (g : Grp) (m : MoveRecord) : List Progress :=
  (((p.group g).lanes.zip m.lanes).zipIdx).map fun lri =>
    { index := lri.2, record := lri.1.2, done := lri.1.2.travelled (p.chan lri.1.1.channel).pos }

/-- R70: one lane's fraction is smaller than another's, compared exactly. -/
def Progress.behind (a b : Progress) : Bool := a.done * b.record.reach < b.done * a.record.reach

/-- R70: the laggard: the lane on its way with the smallest fraction, the lowest of those that share it. -/
def laggard (l : List Progress) : Option Progress :=
  (l.filter fun a => a.record.onWay).foldl (fun best a =>
    match best with
    | none => some a
    | some b => if a.behind b then some a else some b) none

/-- R70: the laggard's travelled distance, taken as at least 0 and at most the magnitude of its travel. -/
def Progress.counted (a : Progress) : Int := max 0 (min a.done a.record.reach)

/-- R70: a lane's lead, rounded toward zero. The laggard's own lead is 0, and so is that of a lane of zero travel. With no
lane on its way the laggard fraction is 1. -/
def Progress.lead (lag : Option Progress) (a : Progress) : Int :=
  if a.record.travel = 0 then 0
  else
    match lag with
    | none => a.done - a.record.reach
    | some b =>
      if a.index = b.index then 0
      else (a.done * b.record.reach - b.counted * a.record.reach).tdiv b.record.reach

/-- R70: the leads of a group's lanes, in lane order. -/
def Part.leads (p : Part) (g : Grp) (m : MoveRecord) : List Int :=
  let l := p.progress g m
  l.map fun a => a.lead (laggard l)

/-! ### Trim hold -/

/-- R71, R72: what trim hold decides for a lane. -/
inductive Trim where
  | keep | hold | resume
  deriving DecidableEq, Repr

/-- R71, R52: a DRIVING lane whose lead exceeds the window is held, a TRIMMED lane with at most half of it resumes. -/
def trimOf (window : Nat) (state : LaneState) (lead : Int) : Trim :=
  match state with
  | .driving => if (window : Int) < lead then .hold else .keep
  | .trimmed => if 2 * lead ≤ window then .resume else .keep
  | .arrived => .keep

/-- R71, R72: a lane's entry after trim hold. -/
def LaneRecord.trim (t : Trim) (r : LaneRecord) : LaneRecord :=
  match t with
  | .keep => r
  | .hold => { r with state := .trimmed, demand := r.demand / 2 }
  | .resume => { r with state := .driving, demand := r.full }

/-- R71, R72, R98: what trim hold does to a lane's channel. A FIXED hoist is stopped and restarted; a VARIABLE one is given
its new demand. The progress watch is armed while the lane is DRIVING. -/
def Channel.trim (t : Trim) (r : LaneRecord) (x : Channel) : Channel :=
  match t with
  | .keep => x
  | .hold => (if x.kind = .fixedSpeed then x.stop else x.release (dirOf r.travel) (r.demand / 2)).armWatch false
  | .resume => (x.release (dirOf r.travel) r.full).armWatch true

/-- R71: the trim of every lane, in lane order. -/
def trims (window : Nat) (m : MoveRecord) (leads : List Int) : List Trim :=
  (m.lanes.zip leads).map fun rl => trimOf window rl.1.state rl.2

/-- R71, R72: step 3 of the control period. -/
def Part.trimStep (p : Part) (g : Grp) (m : MoveRecord) (leads : List Int) : Part :=
  let ts := trims (p.group g).syncWindow m leads
  let q := p.modGroup g fun x =>
    { x with move := some { m with lanes := (m.lanes.zip ts).map fun rt => rt.1.trim rt.2 } }
  q.forEach ((p.group g).lanes.zip (m.lanes.zip ts)) fun q lrt => q.modChan lrt.1.channel (Channel.trim lrt.2.2 lrt.2.1)

/-! ### The other steps -/

/-- R76: step 1: every lane that is not ARRIVED is confirmed. -/
def Group.startRunning (x : Group) : Group :=
  match x.move with
  | some m =>
    if x.state = .preparing && m.lanes.all fun r => r.state == .arrived || r.confirmed then { x with state := .running } else x
  | none => x

/-- R73: step 4: the lowest lane whose lead exceeds the level limit. -/
def Part.syncLost (p : Part) (g : Grp) (leads : List Int) : Option Nat :=
  leads.findIdx? fun n => ((p.group g).levelLimit : Int) < n

/-- R53: a load fails the load-shift test against a baseline. -/
def loadShifted (tolerance baseline load : Nat) : Bool :=
  baseline * tolerance + 2000 < 100 * ((load : Int) - baseline).natAbs

/-- R74: step 5: the first lane that fails the load-shift test, in RUNNING. -/
def Part.loadShift (p : Part) (g : Grp) (m : MoveRecord) : Option Nat :=
  if (p.group g).state = .running then
    ((p.group g).lanes.zip m.lanes).findIdx? fun lr =>
      loadShifted (p.group g).loadTolerance lr.2.baseline (p.chan lr.1.channel).load
  else none

/-- R75: a lane has arrived: its remaining distance in the direction of travel is 5 mm or less. -/
def LaneRecord.reaches (r : LaneRecord) (pos : Int) : Bool :=
  r.state != .arrived && (if r.travel < 0 then pos - r.target else r.target - pos) ≤ (Config.arrivalMm : Int)

/-- R75, R76: step 6 on one lane: it becomes ARRIVED and counts as confirmed (log 15), its channel is stopped, and its watch
is disarmed. -/
def Part.arriveLane (p : Part) (g : Grp) (il : Nat × Lane) : Part :=
  match (p.group g).move with
  | none => p
  | some m =>
    match m.lanes[il.1]? with
    | none => p
    | some r =>
      if r.reaches (p.chan il.2.channel).pos then
        (p.modGroup g fun x =>
          { x with move := some { m with lanes := m.lanes.set il.1 { r with state := .arrived, confirmed := true } } }).modChan
          il.2.channel fun x => x.stop.armWatch false
      else p

/-- R75: step 6, lanes in lane order. -/
def Part.arrivals (p : Part) (g : Grp) : Part :=
  p.forEach ((p.group g).lanes.zipIdx.map fun li => (li.2, li.1)) fun p il => p.arriveLane g il

/-- R77: every lane is ARRIVED and every lane channel HOLDING. -/
def Part.moveDone (p : Part) (g : Grp) : Bool :=
  p.allArrived g && (p.group g).lanes.all fun l => (p.chan l.channel).state == .holding

/-- R77, R84: step 7: a cue move completes and its queue is told; a track move reports the segment reached. -/
def Part.completion (p : Part) (g : Grp) : Part :=
  if p.moveDone g then
    match (p.group g).move with
    | some m =>
      match m.source with
      | .cue n => (p.completeCue g n).arm .completion g
      | .track t => p.segmentReached t g
    | none => p
  else p

/-- R69: steps 4 to 7, on the leads of step 2. A step that raises a group fault ends the period. -/
def Part.superviseLanes (p : Part) (g : Grp) (m : MoveRecord) (leads : List Int) : Part :=
  match p.syncLost g leads with
  | some i => p.raiseGroupFault g i (.syncLost i) .syncLost
  | none =>
    match p.loadShift g m with
    | some i => p.raiseGroupFault g i (.loadShift i) .loadShift
    | none => (p.arrivals g).completion g

/-- R69: one control period. -/
def Part.period (p : Part) (g : Grp) : Part :=
  let q := (p.modGroup g fun x => { x with controlTimer := some Config.controlMs }).modGroup g Group.startRunning
  match (q.group g).move with
  | some m => (q.trimStep g m (q.leads g m)).superviseLanes g m (q.leads g m)
  | none => q

/-- CONTROL_PERIOD (R69, log 4). -/
def execControlPeriod (g : Grp) (s : State) : Host.Outcome State Fault Refusal :=
  s.take fun p => p.awake fun p => if (p.group g).controlTimer.out then p.period g else p

end Sys2Proof.Machine
end

