-- ==== Sys2Proof/Machine/Snapshots.lean ====
section
/-! DEFINITION. LATCH and READ_SNAPSHOT, and the readback of groups, cue queues and tracks (R179 to R185, R189). -/

namespace Sys2Proof.Machine

/-! ### Captures -/

/-- R180: a status capture. -/
def Channel.statusRecord (stamp : Nat) (x : Channel) : StatusRecord :=
  { state := x.state, owner := x.owner, mover := x.mover, referenced := x.referenced, fault := x.fault, stamp := stamp }

/-- R180: a position capture. -/
def Channel.positionRecord (stamp : Nat) (x : Channel) : PositionRecord :=
  { position := x.position, raw := x.raw, load := x.load, stamp := stamp }

/-- R180: each selected slot that is EMPTY captures a record. -/
def Channel.latch (status position : Bool) (stamp : Nat) (x : Channel) : Channel :=
  { x with
    statusSlot := if status && x.statusSlot.isNone then some (x.statusRecord stamp) else x.statusSlot
    positionSlot := if position && x.positionSlot.isNone then some (x.positionRecord stamp) else x.positionSlot }

/-- R180: how many slots of a channel a LATCH captures. -/
def Channel.captures (status position : Bool) (x : Channel) : Nat :=
  (if status && x.statusSlot.isNone then 1 else 0) + (if position && x.positionSlot.isNone then 1 else 0)

/-- R180: an accepted LATCH of target channels. The reply carries the number of slots that captured. -/
def Part.latch (p : Part) (targets : List Chan) (status position : Bool) : Verdict :=
  .accepted [byteOf (targets.map fun c => (p.chan c).captures status position).sum]
    (p.forEach targets fun p c => p.modChan c (Channel.latch status position p.clock.value))

/-- R187: the selector codes of LATCH: whether STATUS and whether POSITION is selected. -/
def selectorOf (b : Byte) : Option (Bool × Bool) :=
  match b.toNat with
  | 1 => some (true, false)
  | 2 => some (false, true)
  | 3 => some (true, true)
  | _ => none

/-- R180: the selector is the last field of the body. -/
def withSelector (b : Byte) (rest : Bool → Bool → Verdict) : Verdict :=
  match selectorOf b with
  | some sp => rest sp.1 sp.2
  | none => .refused .range noIndex

/-- R180. In the group form the second channel byte is ignored (R187). -/
def judgeLatch : Judge := fun _ _ body p =>
  match body with
  | [form, a, b, selector] =>
    if form = 0 then p.withSpan a b fun members => withSelector selector fun st po => p.latch members st po
    else if form = 1 then
      withGrp a fun g =>
        withSelector selector fun st po =>
          refuseIf ((p.group g).state == .empty) .state noIndex <|
          p.latch ((p.group g).lanes.map (·.channel)) st po
    else .refused .range noIndex
  | _ => misfit

/-- LATCH 40h (R180). -/
def execLatch (l : Link) (tier : Byte) (body : List Byte) (s : State) : Host.Outcome State Fault Refusal :=
  s.note fun p => p.request l 0x40 tier body (lengthIs 4) judgeLatch

/-! ### READ_SNAPSHOT -/

/-- R181, R189: a member's block: each record from its slot, marked LATCHED, or live. -/
def Channel.snapshot (c : Chan) (stamp : Nat) (x : Channel) : List Byte :=
  snapshotBytes c (x.statusSlot.getD (x.statusRecord stamp)) x.statusSlot.isSome
    (x.positionSlot.getD (x.positionRecord stamp)) x.positionSlot.isSome

/-- R181: the slots a READ_SNAPSHOT returns become EMPTY. -/
def Channel.freeSlots (x : Channel) : Channel := { x with statusSlot := none, positionSlot := none }

/-- R181. A span of more than 8 members gives the ninth member's index. -/
def judgeReadSnapshot : Judge := fun _ _ body p =>
  match body with
  | [a, b] =>
    p.withSpan a b fun members =>
      refuseIf (Config.maxSnapshot < members.length) .range (a + 8) <|
      .accepted (wrList (fun c => (p.chan c).snapshot c p.clock.value) members)
        (p.forEach members fun p c => p.modChan c Channel.freeSlots)
  | _ => misfit

/-- READ_SNAPSHOT 41h (R181). -/
def execReadSnapshot (l : Link) (tier : Byte) (body : List Byte) (s : State) : Host.Outcome State Fault Refusal :=
  s.note fun p => p.request l 0x41 tier body (lengthIs 2) judgeReadSnapshot

/-! ### READ_GROUP -/

/-- R183: what READ_GROUP sends of a move record (log 22). -/
def moveBytes (m : MoveRecord) : List Byte :=
  [linkCode m.origin, byteOf m.tier] ++ sourceBytes m.source ++ wrLoad m.speed ++ [reasonCode m.reason]
    ++ m.lanes.flatMap laneRecordBytes

/-- R187, log 8: the bound track, or what is sent when there is none. -/
def boundTrackByte (t : Option Trk) : Byte :=
  match t with
  | some t => byteOf t.val
  | none => Config.noTrackByte

/-- R187, log 8: the group fault record, or what is sent when there is none. -/
def faultRecordBytes (f : Option GroupFault) : List Byte :=
  match f with
  | some f => groupFaultBytes f
  | none => [Config.noGroupFault.1, Config.noGroupFault.2.1, Config.noGroupFault.2.2]

/-- R183: the data of a READ_GROUP reply. -/
def Group.readback (x : Group) : List Byte :=
  [groupStateCode x.state, byteOf x.syncWindow] ++ wr16 x.levelLimit ++ [byteOf x.loadTolerance] ++ wr16 x.lateGrace
    ++ wrList laneBytes x.lanes ++ [boundTrackByte x.boundTrack, wrFlag x.held] ++ faultRecordBytes x.fault
    ++ (match x.move with
        | some m => moveBytes m
        | none => [])

/-- R183. -/
def judgeReadGroup : Judge := fun _ _ body p =>
  match body with
  | [b] => withGrp b fun g => .accepted (p.group g).readback p
  | _ => misfit

/-- READ_GROUP 42h (R183). -/
def execReadGroup (l : Link) (tier : Byte) (body : List Byte) (s : State) : Host.Outcome State Fault Refusal :=
  s.note fun p => p.request l 0x42 tier body (lengthIs 1) judgeReadGroup

/-! ### READ_CUES -/

/-- R184: the data of a READ_CUES reply. -/
def CueQueue.readback (q : CueQueue) : List Byte :=
  [wrFlag q.blocked, armingCode q.arming]
    ++ (match q.dwellTimer with
        | some n => wr32 n
        | none => [])
    ++ wrList cueBytes q.cues

/-- R184. -/
def judgeReadCues : Judge := fun _ _ body p =>
  match body with
  | [b] => withGrp b fun g => .accepted (p.queue g).readback p
  | _ => misfit

/-- READ_CUES 43h (R184). -/
def execReadCues (l : Link) (tier : Byte) (body : List Byte) (s : State) : Host.Outcome State Fault Refusal :=
  s.note fun p => p.request l 0x43 tier body (lengthIs 1) judgeReadCues

/-! ### READ_TRACK -/

/-- R187: time left on a timer, sent while it runs. -/
def timeLeft (t : Timer) : List Byte :=
  match t with
  | some n => wr32 n
  | none => []

/-- R185, R187: the current segment, or five bytes of 0. -/
def currentBytes (w : Option Waypoint) : List Byte :=
  match w with
  | some w => wrS16 w.offset ++ wr16 w.duration ++ [wrFlag w.last]
  | none => [0, 0, 0, 0, 0]

/-- R185: a bound group's origins in lane order; a lane without one is sent absent. -/
def originBytes (lanes : List Lane) (o : Option (List Int)) : List Byte :=
  match o with
  | some l => l.flatMap fun x => wrPos (some x)
  | none => lanes.flatMap fun _ => wrPos none

/-- R185: the data of a READ_TRACK reply. -/
def Part.readTrack (p : Part) (t : Trk) : List Byte :=
  let x := p.track t
  let groups : List Grp → List Byte := wrList fun g => [byteOf g.val]
  [trackStateCode x.state, ownerCode x.owner, wrFlag x.closing,
   match x.tier with
   | some n => byteOf n
   | none => 0xFF]
    ++ groups x.bound ++ groups x.playing ++ groups x.arrived ++ currentBytes x.current ++ timeLeft x.segmentTimer
    ++ timeLeft x.starvationTimer ++ [byteOf x.waypoints.length]
    ++ x.bound.flatMap fun g => originBytes (p.group g).lanes x.origins[g]

/-- R185. -/
def judgeReadTrack : Judge := fun _ _ body p =>
  match body with
  | [b] => withTrk b fun t => .accepted (p.readTrack t) p
  | _ => misfit

/-- READ_TRACK 44h (R185). -/
def execReadTrack (l : Link) (tier : Byte) (body : List Byte) (s : State) : Host.Outcome State Fault Refusal :=
  s.note fun p => p.request l 0x44 tier body (lengthIs 1) judgeReadTrack

end Sys2Proof.Machine
end

