-- ==== Sys2Proof/Machine/Dispatch.lean ====
section
/-! DEFINITION. One arm per command: the meaning of each. -/

namespace Sys2Proof.Machine

def exec (i : Instr) (s : State) : Host.Outcome State Fault Refusal :=
  match i with
  | .identify link tier body => Sys2Proof.Machine.execIdentify link tier body s
  | .heartbeat link tier body => Sys2Proof.Machine.execHeartbeat link tier body s
  | .setWatchdog link tier body => Sys2Proof.Machine.execSetWatchdog link tier body s
  | .setMode link tier body => Sys2Proof.Machine.execSetMode link tier body s
  | .halt link tier body => Sys2Proof.Machine.execHalt link tier body s
  | .broadcastHalt link tier body => Sys2Proof.Machine.execBroadcastHalt link tier body s
  | .resume link tier body => Sys2Proof.Machine.execResume link tier body s
  | .reset link tier body => Sys2Proof.Machine.execReset link tier body s
  | .setNotices link tier body => Sys2Proof.Machine.execSetNotices link tier body s
  | .configureChannel link tier body => Sys2Proof.Machine.execConfigureChannel link tier body s
  | .setPosition link tier body => Sys2Proof.Machine.execSetPosition link tier body s
  | .claim link tier body => Sys2Proof.Machine.execClaim link tier body s
  | .release link tier body => Sys2Proof.Machine.execRelease link tier body s
  | .releaseForce link tier body => Sys2Proof.Machine.execReleaseForce link tier body s
  | .jog link tier body => Sys2Proof.Machine.execJog link tier body s
  | .clearFaultSpan link tier body => Sys2Proof.Machine.execClearFaultSpan link tier body s
  | .clearFaultGroup link tier body => Sys2Proof.Machine.execClearFaultGroup link tier body s
  | .defineGroup link tier body => Sys2Proof.Machine.execDefineGroup link tier body s
  | .deleteGroup link tier body => Sys2Proof.Machine.execDeleteGroup link tier body s
  | .queueCue link tier body => Sys2Proof.Machine.execQueueCue link tier body s
  | .go link tier body => Sys2Proof.Machine.execGo link tier body s
  | .stop link tier body => Sys2Proof.Machine.execStop link tier body s
  | .cancel link tier body => Sys2Proof.Machine.execCancel link tier body s
  | .flushCues link tier body => Sys2Proof.Machine.execFlushCues link tier body s
  | .setClockSet link tier body => Sys2Proof.Machine.execSetClockSet link tier body s
  | .setClockStart link tier body => Sys2Proof.Machine.execSetClockStart link tier body s
  | .setClockHold link tier body => Sys2Proof.Machine.execSetClockHold link tier body s
  | .bindTrack link tier body => Sys2Proof.Machine.execBindTrack link tier body s
  | .unbindTrack link tier body => Sys2Proof.Machine.execUnbindTrack link tier body s
  | .feedTrack link tier body => Sys2Proof.Machine.execFeedTrack link tier body s
  | .playTrack link tier body => Sys2Proof.Machine.execPlayTrack link tier body s
  | .stopTrack link tier body => Sys2Proof.Machine.execStopTrack link tier body s
  | .latch link tier body => Sys2Proof.Machine.execLatch link tier body s
  | .readSnapshot link tier body => Sys2Proof.Machine.execReadSnapshot link tier body s
  | .readGroup link tier body => Sys2Proof.Machine.execReadGroup link tier body s
  | .readCues link tier body => Sys2Proof.Machine.execReadCues link tier body s
  | .readTrack link tier body => Sys2Proof.Machine.execReadTrack link tier body s
  | .unknownKind link kind tier body => Sys2Proof.Machine.execUnknownKind link kind tier body s
  | .frameCrcError link => Sys2Proof.Machine.execFrameCrcError link s
  | .frameLengthError link => Sys2Proof.Machine.execFrameLengthError link s
  | .frameGapTimeout link => Sys2Proof.Machine.execFrameGapTimeout link s
  | .frameIgnored link => Sys2Proof.Machine.execFrameIgnored link s
  | .frameOverrun link => Sys2Proof.Machine.execFrameOverrun link s
  | .replySent link => Sys2Proof.Machine.execReplySent link s
  | .watchdogExpiry link => Sys2Proof.Machine.execWatchdogExpiry link s
  | .feedbackArrival chan sample => Sys2Proof.Machine.execFeedbackArrival chan sample s
  | .feedbackTimerExpiry chan => Sys2Proof.Machine.execFeedbackTimerExpiry chan s
  | .confirmTimerExpiry chan => Sys2Proof.Machine.execConfirmTimerExpiry chan s
  | .standstillTimerExpiry chan => Sys2Proof.Machine.execStandstillTimerExpiry chan s
  | .settleTimerExpiry chan => Sys2Proof.Machine.execSettleTimerExpiry chan s
  | .progressTimerExpiry chan => Sys2Proof.Machine.execProgressTimerExpiry chan s
  | .jogLeaseExpiry chan => Sys2Proof.Machine.execJogLeaseExpiry chan s
  | .controlPeriod group => Sys2Proof.Machine.execControlPeriod group s
  | .dwellExpiry group => Sys2Proof.Machine.execDwellExpiry group s
  | .markReached group => Sys2Proof.Machine.execMarkReached group s
  | .showClockSaturate => Sys2Proof.Machine.execShowClockSaturate s
  | .segmentTimerExpiry track => Sys2Proof.Machine.execSegmentTimerExpiry track s
  | .starvationTimerExpiry track => Sys2Proof.Machine.execStarvationTimerExpiry track s
  | .emergencyStopAssert => Sys2Proof.Machine.execEmergencyStopAssert s
  | .emergencyStopRelease => Sys2Proof.Machine.execEmergencyStopRelease s
  | .powerGoodAbsent => Sys2Proof.Machine.execPowerGoodAbsent s
  | .powerGoodPresent => Sys2Proof.Machine.execPowerGoodPresent s
  | .powerGoodTimerExpiry => Sys2Proof.Machine.execPowerGoodTimerExpiry s
  | .powerOnReset straps estop powerGood => Sys2Proof.Machine.execPowerOnReset straps estop powerGood s
  | .lineResetAssert => Sys2Proof.Machine.execLineResetAssert s
  | .lineResetRelease => Sys2Proof.Machine.execLineResetRelease s
  | .commandReset => Sys2Proof.Machine.execCommandReset s
  | .frameStart link => Sys2Proof.Machine.execFrameStart link s

end Sys2Proof.Machine
end

