-- ==== Sys2Proof/Machine/Tick.lean ====
section
/-! DEFINITION. One millisecond of the part (log 3): every running timer counts down, the running show clock counts up, and what
runs out or is reached joins the queue as its command, in an order that is free (log 5). -/

namespace Sys2Proof.Machine

/-- A timer after one millisecond. -/
def tickTimer (t : Timer) : Timer := t.map fun n => n - 1

/-- R98: the progress timer after one millisecond. -/
def ProgressTimer.tick (t : ProgressTimer) : ProgressTimer :=
  match t with
  | .running n => .running (n - 1)
  | .stopped => .stopped
  | .expired => .expired

/-- A channel's timers after one millisecond. -/
def Channel.tick (x : Channel) : Channel :=
  { x with confirmTimer := tickTimer x.confirmTimer, standstillTimer := tickTimer x.standstillTimer
           settleTimer := tickTimer x.settleTimer, jog := x.jog.map fun j => { j with lease := j.lease - 1 }
           progressTimer := x.progressTimer.tick }

/-- A drive port's timer after one millisecond. -/
def Port.tick (x : Port) : Port := { x with feedbackTimer := tickTimer x.feedbackTimer }

/-- A group's timer after one millisecond. -/
def Group.tick (x : Group) : Group := { x with controlTimer := tickTimer x.controlTimer }

/-- A queue's timer after one millisecond. -/
def CueQueue.tick (x : CueQueue) : CueQueue := { x with dwellTimer := tickTimer x.dwellTimer }

/-- A track's timers after one millisecond. -/
def Track.tick (x : Track) : Track :=
  { x with segmentTimer := tickTimer x.segmentTimer, starvationTimer := tickTimer x.starvationTimer }

/-- A link's watchdog timer after one millisecond. -/
def LinkIf.tick (x : LinkIf) : LinkIf := { x with watchdog := { x.watchdog with timer := tickTimer x.watchdog.timer } }

/-- R129: the show clock after one millisecond. -/
def ShowClock.tick (k : ShowClock) : ShowClock :=
  if k.running then { k with value := min (k.value + 1) Config.clockMax } else k

/-- The part after one millisecond. -/
def Part.tick (p : Part) : Part :=
  let p := p.forEach allChans fun p c => (p.modChan c Channel.tick).modPort c Port.tick
  let p := p.forEach allGroups fun p g => (p.modGroup g Group.tick).modQueue g CueQueue.tick
  let p := p.forEach allTracks fun p t => p.modTrack t Track.tick
  { p with clock := p.clock.tick, linkA := p.linkA.tick, linkB := p.linkB.tick
           ctl := { p.ctl with powerGoodTimer := tickTimer p.ctl.powerGoodTimer } }

/-- A command if its condition holds. -/
def cmdIf (due : Bool) (c : Instr) : List Instr := if due then [c] else []

/-- The expiries of one channel. -/
def Part.channelDue (p : Part) (c : Chan) : List Instr :=
  let x := p.chan c
  cmdIf (p.port c).feedbackTimer.out (.feedbackTimerExpiry c)
    ++ cmdIf x.confirmTimer.out (.confirmTimerExpiry c)
    ++ cmdIf x.standstillTimer.out (.standstillTimerExpiry c)
    ++ cmdIf x.settleTimer.out (.settleTimerExpiry c)
    ++ cmdIf (x.progressTimer == .running 0) (.progressTimerExpiry c)
    ++ cmdIf (x.jog.map (·.lease) == some 0) (.jogLeaseExpiry c)

/-- The expiries of one group and its queue, and the mark the running clock has just reached (R120). -/
def Part.groupDue (p : Part) (g : Grp) : List Instr :=
  cmdIf (p.group g).controlTimer.out (.controlPeriod g)
    ++ cmdIf (p.queue g).dwellTimer.out (.dwellExpiry g)
    ++ cmdIf (p.clock.running && p.clock.value != Config.clockMax && (p.queue g).mark == some p.clock.value) (.markReached g)

/-- The expiries of one track. -/
def Part.trackDue (p : Part) (t : Trk) : List Instr :=
  cmdIf (p.track t).segmentTimer.out (.segmentTimerExpiry t)
    ++ cmdIf (p.track t).starvationTimer.out (.starvationTimerExpiry t)

/-- Everything that falls on the millisecond just counted. -/
def Part.due (p : Part) : List Instr :=
  allChans.flatMap p.channelDue ++ allGroups.flatMap p.groupDue ++ allTracks.flatMap p.trackDue
    ++ cmdIf p.linkA.watchdog.timer.out (.watchdogExpiry .a)
    ++ cmdIf p.linkB.watchdog.timer.out (.watchdogExpiry .b)
    ++ cmdIf p.ctl.powerGoodTimer.out .powerGoodTimerExpiry
    ++ cmdIf (p.clock.running && p.clock.value == Config.clockMax) .showClockSaturate

/-- One millisecond on a machine with no command waiting. In line reset no timer runs (R166). -/
def State.tick (s : State) : State :=
  if s.part.ctl.held then s
  else
    let p := s.part.tick
    { part := p.draw p.due.length, pending := freeOrder p.draws p.due }

end Sys2Proof.Machine
end

