-- ==== Sys2Proof/Machine/Frames.lean ====
section
/-! DEFINITION. Received bytes: what the bytes of a frame make of it (R169, R170), and how a link takes them one by one. -/

namespace Sys2Proof.Machine

/-- The command of a request frame for this rack, by its kind. RELEASE, CLEAR_FAULT and SET_CLOCK have a row for each form, told
apart by the FORCE byte, the form byte and the action byte (R188). -/
def requestCommand (l : Link) (kind tier : Byte) (body : List Byte) : Instr :=
  match kind.toNat with
  | 0x01 => .identify l tier body
  | 0x02 => .heartbeat l tier body
  | 0x03 => .setWatchdog l tier body
  | 0x04 => .setMode l tier body
  | 0x05 => .halt l tier body
  | 0x06 => .resume l tier body
  | 0x07 => .reset l tier body
  | 0x08 => .setNotices l tier body
  | 0x10 => .configureChannel l tier body
  | 0x11 => .setPosition l tier body
  | 0x12 => .claim l tier body
  | 0x13 => if body[2]? = some 1 then .releaseForce l tier body else .release l tier body
  | 0x14 => .jog l tier body
  | 0x15 => if body[0]? = some 1 then .clearFaultGroup l tier body else .clearFaultSpan l tier body
  | 0x20 => .defineGroup l tier body
  | 0x21 => .deleteGroup l tier body
  | 0x22 => .queueCue l tier body
  | 0x23 => .go l tier body
  | 0x24 => .stop l tier body
  | 0x25 => .cancel l tier body
  | 0x26 => .flushCues l tier body
  | 0x27 =>
    if body[0]? = some 1 then .setClockStart l tier body
    else if body[0]? = some 2 then .setClockHold l tier body
    else .setClockSet l tier body
  | 0x30 => .bindTrack l tier body
  | 0x31 => .unbindTrack l tier body
  | 0x32 => .feedTrack l tier body
  | 0x33 => .playTrack l tier body
  | 0x34 => .stopTrack l tier body
  | 0x40 => .latch l tier body
  | 0x41 => .readSnapshot l tier body
  | 0x42 => .readGroup l tier body
  | 0x43 => .readCues l tier body
  | 0x44 => .readTrack l tier body
  | _ => .unknownKind l kind tier body

/-- R170: a valid frame is judged on its address. -/
def validFrame (rack : Fin 16) (l : Link) (address kind tier : Byte) (body : List Byte) : Instr :=
  if address = byteOf rack.val then requestCommand l kind tier body
  else if address = 31 ∧ kind = 0x05 then .broadcastHalt l tier body
  else .frameIgnored l

/-- R169, R170, R186: what the bytes received since a sync byte have become: nothing while bytes are missing; a discarded frame
at a length byte above 240 or a wrong CRC; otherwise a valid frame. -/
def frameCommand (rack : Fin 16) (l : Link) (bytes : List Byte) : Option Instr :=
  match bytes with
  | address :: n :: rest =>
    if Config.maxBody < n.toNat then some (.frameLengthError l)
    else if rest.length < n.toNat + 4 then none
    else
      match rest with
      | kind :: tier :: tail =>
        if withCrc ([address, n, kind, tier] ++ tail.take n.toNat) = [address, n, kind, tier] ++ tail.take (n.toNat + 2) then
          some (validFrame rack l address kind tier (tail.take n.toNat))
        else some (.frameCrcError l)
      | _ => none
  | _ => none

/-- R169: a byte reaches a link. HUNTING discards it, unless it is A5h, which starts a frame. ASSEMBLING adds it to the frame,
and the command that the bytes then spell, if they do, is taken with that byte. In line reset it is discarded. -/
def State.receiveByte (s : State) (l : Link) (b : Byte) : Host.Outcome State Fault Refusal :=
  if s.part.ctl.held then .next s
  else
    match (s.part.link l).assembler with
    | .hunting => if b = 0xA5 then exec (.frameStart l) s else .next s
    | .assembling bytes =>
      match frameCommand s.part.ctl.straps.rackId l (bytes ++ [b]) with
      | some i => exec i s
      | none => .next { s with part := s.part.assembler l (.assembling (bytes ++ [b])) }

/-- R169: bytes reach a link one after the other. A gap of more than 1 ms between two of them is FRAME_GAP_TIMEOUT. -/
def State.receive (s : State) (l : Link) : List Byte → Host.Outcome State Fault Refusal
  | [] => .next s
  | b :: rest =>
    match s.receiveByte l b with
    | .next t => t.receive l rest
    | .fault f => .fault f
    | .refused r => .refused r

end Sys2Proof.Machine
end

