-- ==== Sys2Proof/Safety.lean ====
section
/-! DEFINITION. The laws of the part, and the words in which the claims speak of takings: which link is ready, what a reply says,
which blocks a taking leaves as they were, when a fire is admitted and what it starts. -/

namespace Sys2Proof

/-- A request frame sent to this rack, as a command carries it. -/
structure Request where
  link : Link
  kind : Byte
  tier : Byte
  body : List Byte
  deriving DecidableEq, Repr

/-- The commands that are request frames sent to this rack. -/
def Instr.request : Instr → Option Request
  | .identify l t b => some ⟨l, 0x01, t, b⟩
  | .heartbeat l t b => some ⟨l, 0x02, t, b⟩
  | .setWatchdog l t b => some ⟨l, 0x03, t, b⟩
  | .setMode l t b => some ⟨l, 0x04, t, b⟩
  | .halt l t b => some ⟨l, 0x05, t, b⟩
  | .resume l t b => some ⟨l, 0x06, t, b⟩
  | .reset l t b => some ⟨l, 0x07, t, b⟩
  | .setNotices l t b => some ⟨l, 0x08, t, b⟩
  | .configureChannel l t b => some ⟨l, 0x10, t, b⟩
  | .setPosition l t b => some ⟨l, 0x11, t, b⟩
  | .claim l t b => some ⟨l, 0x12, t, b⟩
  | .release l t b => some ⟨l, 0x13, t, b⟩
  | .releaseForce l t b => some ⟨l, 0x13, t, b⟩
  | .jog l t b => some ⟨l, 0x14, t, b⟩
  | .clearFaultSpan l t b => some ⟨l, 0x15, t, b⟩
  | .clearFaultGroup l t b => some ⟨l, 0x15, t, b⟩
  | .defineGroup l t b => some ⟨l, 0x20, t, b⟩
  | .deleteGroup l t b => some ⟨l, 0x21, t, b⟩
  | .queueCue l t b => some ⟨l, 0x22, t, b⟩
  | .go l t b => some ⟨l, 0x23, t, b⟩
  | .stop l t b => some ⟨l, 0x24, t, b⟩
  | .cancel l t b => some ⟨l, 0x25, t, b⟩
  | .flushCues l t b => some ⟨l, 0x26, t, b⟩
  | .setClockSet l t b => some ⟨l, 0x27, t, b⟩
  | .setClockStart l t b => some ⟨l, 0x27, t, b⟩
  | .setClockHold l t b => some ⟨l, 0x27, t, b⟩
  | .bindTrack l t b => some ⟨l, 0x30, t, b⟩
  | .unbindTrack l t b => some ⟨l, 0x31, t, b⟩
  | .feedTrack l t b => some ⟨l, 0x32, t, b⟩
  | .playTrack l t b => some ⟨l, 0x33, t, b⟩
  | .stopTrack l t b => some ⟨l, 0x34, t, b⟩
  | .latch l t b => some ⟨l, 0x40, t, b⟩
  | .readSnapshot l t b => some ⟨l, 0x41, t, b⟩
  | .readGroup l t b => some ⟨l, 0x42, t, b⟩
  | .readCues l t b => some ⟨l, 0x43, t, b⟩
  | .readTrack l t b => some ⟨l, 0x44, t, b⟩
  | .unknownKind l k t b => if Machine.knownKind k then none else some ⟨l, k, t, b⟩
  | _ => none

/-- The commands that a line reset does not hold off: power-on, the release of the RESET input, the levels of the other
inputs, and what takes a scheduled command reset. -/
def Instr.heldOff : Instr → Bool
  | .powerOnReset _ _ _ | .lineResetRelease | .emergencyStopAssert | .emergencyStopRelease | .powerGoodAbsent
  | .powerGoodPresent | .commandReset | .replySent _ => false
  | _ => true

/-- The commands that say that a timer, or the show clock, has run out. -/
def Instr.isExpiry : Instr → Bool
  | .feedbackTimerExpiry _ | .confirmTimerExpiry _ | .standstillTimerExpiry _ | .settleTimerExpiry _ | .progressTimerExpiry _
  | .jogLeaseExpiry _ | .controlPeriod _ | .dwellExpiry _ | .segmentTimerExpiry _ | .starvationTimerExpiry _
  | .watchdogExpiry _ | .powerGoodTimerExpiry | .showClockSaturate => true
  | _ => false

end Sys2Proof

namespace Sys2Proof.Machine

/-! ### The laws of the part -/

/-- R7: the conditions under which a brake is released and run is on. -/
abbrev Part.drives (p : Part) (c : Chan) : Prop :=
  p.ctl.mode = .armed ∧ p.ctl.held = false ∧ ((p.chan c).state = .starting ∨ (p.chan c).state = .moving)

/-- R7: the output state of every drive port follows its channel's state and the device mode. -/
def Part.OutputLaw (p : Part) : Prop :=
  ∀ c,
    (p.drives c →
      (p.port c).output.brakeReleased = true ∧ (p.port c).output.run = true
        ∧ (∀ d, (p.chan c).direction = some d → (p.port c).output.direction = d)
        ∧ (p.port c).output.demand = if (p.chan c).kind = .variableSpeed then (p.chan c).demand else 0)
    ∧ (¬p.drives c →
      (p.port c).output.brakeReleased = false ∧ (p.port c).output.run = false ∧ (p.port c).output.demand = 0)

/-- R151, R152, R166: main power follows the mode, and is off in line reset; with the emergency-stop input asserted the device
is HALTED; the power-good timer runs only while main power is on and power-good absent. -/
abbrev Part.PowerLaw (p : Part) : Prop :=
  p.ctl.mainPower = (!p.ctl.held && (p.ctl.mode == .standby || p.ctl.mode == .armed))
    ∧ (p.ctl.estop = true → p.ctl.held = false → p.ctl.mode = .halted)
    ∧ (p.ctl.powerGoodTimer.isSome = true → p.ctl.mainPower = true ∧ p.ctl.powerGood = false)

/-- R175: a link's attention line is asserted exactly while its pending set is not empty, and the set holds each pair at most
once. -/
abbrev Part.AttentionLaw (p : Part) : Prop :=
  ∀ l, (p.link l).attention = !(p.link l).pending.isEmpty ∧ (p.link l).pending.Nodup

/-- R114, R125: a queue holds at most 8 cues with distinct numbers; an empty queue is neither armed nor blocked; the dwell
timer runs exactly while DWELLING. -/
abbrev Part.QueueLaw (p : Part) : Prop :=
  ∀ g,
    (p.queue g).cues.length ≤ 8 ∧ ((p.queue g).cues.map (·.number)).Nodup
      ∧ ((p.queue g).cues = [] → (p.queue g).arming = .none ∧ (p.queue g).blocked = false)
      ∧ ((p.queue g).dwellTimer.isSome = true ↔ (p.queue g).arming = .dwelling)

/-- R135: a track holds at most 32 waypoints, and no waypoint stands behind one flagged END. -/
def Part.TrackLaw (p : Part) : Prop :=
  ∀ t, (p.track t).waypoints.length ≤ 32 ∧ ∀ w ∈ (p.track t).waypoints.dropLast, w.last = false

/-- R2, R101: a channel is ABSENT exactly when its kind is; a FAULTED channel has a fault record; a channel with a record is
FAULTED or STOPPING; and the further-fault set holds each kind at most once and never the first. -/
def Channel.RecordLaw (x : Channel) : Prop :=
  (x.kind = .absent ↔ x.state = .absent) ∧ (x.state = .faulted → x.fault.isSome = true)
    ∧ (x.fault.isSome = true → x.state = .faulted ∨ x.state = .stopping)
    ∧ ∀ r, x.fault = some r → r.further.Nodup ∧ r.first ∉ r.further

/-- R101, for every channel. -/
def Part.RecordLaw (p : Part) : Prop := ∀ c, (p.chan c).RecordLaw

/-- R54, R55: a lane list that DEFINE_GROUP accepts. -/
def Part.LegalLanes (p : Part) (lanes : List Lane) : Prop :=
  1 ≤ lanes.length ∧ lanes.length ≤ 8 ∧ (lanes.map (·.channel)).Nodup ∧ (∀ ln, lanes.head? = some ln → ln.sign ≠ .hold)
    ∧ ∀ ln ∈ lanes, p.hasChan ln.channel = true ∧ (p.chan ln.channel).kind ≠ .absent ∧ ln.ratio ≤ 15
        ∧ ((p.chan ln.channel).kind = .fixedSpeed → ln.ratio = 0 ∨ 8 ≤ ln.ratio)

/-- R47: the lanes of a defined group. -/
def Part.LaneListLaw (p : Part) : Prop := ∀ g, (p.group g).state ≠ .empty → p.LegalLanes (p.group g).lanes

/-- R8, R10, R39: a channel that is STARTING, MOVING or HOLDING, or waits with a pending release, has a mover; a channel with a
mover exists and is neither IDLE nor ABSENT; a jog record goes with a jog mover, whose link owns the channel. -/
def Part.MoverLaw (p : Part) (c : Chan) : Prop :=
  ((p.chan c).state ∈ [ChannelState.starting, .moving, .holding] → (p.chan c).mover ≠ .none)
    ∧ ((p.chan c).mover ≠ .none →
        p.hasChan c = true ∧ (p.chan c).state ≠ .idle ∧ (p.chan c).state ≠ .absent)
    ∧ ((p.chan c).pendingRelease.isSome = true → (p.chan c).state = .stopping ∧ (p.chan c).mover ≠ .none)
    ∧ ((p.chan c).jog.isSome = true ↔ ∃ l, (p.chan c).mover = .jog l)
    ∧ ∀ l, (p.chan c).mover = .jog l → (p.chan c).owner = some l

/-- R62, R68, R39, R84: an EMPTY or IDLE group has no move, and every other group has one, with an entry for each lane; a track
move is that of the bound track, and a cue move that of an unbound group; the channels that have the group as mover are
those of its lanes, all of them while it is PREPARING, RUNNING or STOPPING and none otherwise, and the move's origin link
owns them. The control period runs exactly while the group is PREPARING or RUNNING (R69, R81). -/
def Part.MoveLaw (p : Part) (g : Grp) : Prop :=
  ((p.group g).move = none ↔ (p.group g).state = .empty ∨ (p.group g).state = .idle)
    ∧ ((p.group g).state = .empty → (p.group g).lanes = [])
    ∧ (∀ m, (p.group g).move = some m → m.lanes.length = (p.group g).lanes.length
        ∧ (p.group g).boundTrack = (match m.source with
          | .track t => some t
          | .cue _ => none))
    ∧ (∀ c, (p.chan c).mover = .group g →
        (p.group g).state ∈ [GroupState.preparing, .running, .stopping] ∧ ∃ ln ∈ (p.group g).lanes, ln.channel = c)
    ∧ ((p.group g).state ∈ [GroupState.preparing, .running, .stopping] → ∀ m, (p.group g).move = some m →
        ∀ ln ∈ (p.group g).lanes, (p.chan ln.channel).mover = .group g ∧ (p.chan ln.channel).owner = some m.origin)
    ∧ ((p.group g).controlTimer.isSome = true ↔ (p.group g).state = .preparing ∨ (p.group g).state = .running)

/-- R136, R143: the groups bound to a track name it, are defined, and share no channel; the track has an owner link exactly while
a group is bound; and origins are kept for bound groups alone, one for each lane. -/
def Part.BindingLaw (p : Part) (t : Trk) : Prop :=
  (∀ g, g ∈ (p.track t).bound ↔ (p.group g).boundTrack = some t)
    ∧ (p.track t).bound.Nodup
    ∧ ((p.track t).owner = none ↔ (p.track t).bound = [])
    ∧ (∀ g ∈ (p.track t).bound, (p.group g).state ≠ .empty)
    ∧ (∀ g ∈ (p.track t).bound, ∀ h ∈ (p.track t).bound, g ≠ h →
        ∀ x ∈ (p.group g).lanes, ∀ y ∈ (p.group h).lanes, x.channel ≠ y.channel)
    ∧ ∀ (g : Grp) (o : List Int), (p.track t).origins[g] = some o →
        g ∈ (p.track t).bound ∧ o.length = (p.group g).lanes.length

/-- R8, R39, R68, R136: who moves and owns the channels, and which groups are bound to which track. -/
def Part.OwnershipLaw (p : Part) : Prop :=
  (∀ c, p.MoverLaw c) ∧ (∀ g, p.MoveLaw g) ∧ ∀ t, p.BindingLaw t

/-! ### Takings -/

/-- A timer of the part has run out, or its show clock has reached its last value or the mark of a waiting head: the command that
says so. -/
def Part.RunOut (p : Part) : Instr → Prop
  | .feedbackTimerExpiry c => (p.port c).feedbackTimer = some 0
  | .confirmTimerExpiry c => (p.chan c).confirmTimer = some 0
  | .standstillTimerExpiry c => (p.chan c).standstillTimer = some 0
  | .settleTimerExpiry c => (p.chan c).settleTimer = some 0
  | .progressTimerExpiry c => (p.chan c).progressTimer = .running 0
  | .jogLeaseExpiry c => (p.chan c).jog.map (·.lease) = some 0
  | .controlPeriod g => (p.group g).controlTimer = some 0
  | .dwellExpiry g => (p.queue g).dwellTimer = some 0
  | .markReached g =>
    p.clock.running = true ∧ p.clock.value ≠ 4294967295 ∧ (p.queue g).arming = .awaitingMark
      ∧ (p.queue g).cues.head?.map (·.trigger) = some (.atMark p.clock.value)
  | .segmentTimerExpiry t => (p.track t).segmentTimer = some 0
  | .starvationTimerExpiry t => (p.track t).starvationTimer = some 0
  | .watchdogExpiry l => (p.link l).watchdog.timer = some 0
  | .powerGoodTimerExpiry => p.ctl.powerGoodTimer = some 0
  | .showClockSaturate => p.clock.running = true ∧ p.clock.value = 4294967295
  | _ => False

/-- The part is out of line reset and the link is not answering: a frame that completes on it is taken. -/
abbrev Part.Ready (p : Part) (l : Link) : Prop := p.ctl.held = false ∧ (p.link l).answering = none

/-- R172: the reply a link sends: the rack's address, the kind with bit 7 set, the code, the index, the data, and the status byte
as the part stands. -/
def Part.Replied (p : Part) (l : Link) (kind : Byte) (code : Result) (index : Byte) (data : List Byte) : Prop :=
  (p.link l).answering =
    some { address := p.ctl.straps.rackId, kind := kind ||| 0x80, result := code, status := p.status l, index := index
           data := data }

/-- R27: an accepted request. -/
def Part.Accepted (p : Part) (l : Link) (kind : Byte) (data : List Byte) : Prop := p.Replied l kind .ok 0xFF data

/-- A block of the part, as a frame names it. samples: what the drive ports hold but their outputs. taken: the Mode Controller
but for the silence-disarm flag, which a taken frame clears (R160). -/
inductive Block where
  | channels | ports | samples | groups | queues | clock | tracks | codes | ctl | taken
  | link (l : Link)
  deriving DecidableEq, Repr

/-- A taking leaves a block as it was. -/
def Block.Kept (p q : Part) (b : Block) : Prop :=
  match b with
  | .channels => q.channels = p.channels
  | .ports => q.ports = p.ports ∧ q.draws = p.draws
  | .samples => ∀ c, { q.port c with output := (p.port c).output } = p.port c
  | .groups => q.groups = p.groups
  | .queues => q.queues = p.queues
  | .clock => q.clock = p.clock
  | .tracks => q.tracks = p.tracks
  | .codes => q.codes = p.codes
  | .ctl => q.ctl = p.ctl
  | .taken => q.ctl = { p.ctl with silenceDisarm := false }
  | .link l => q.link l = p.link l

/-- A taking leaves each of some blocks as it was. -/
def Kept (p q : Part) (bs : List Block) : Prop := ∀ b ∈ bs, b.Kept p q

/-- A command's next state: the queue as it was, and a part that meets a condition. -/
def Gives (i : Instr) (s : State) (post : Part → Prop) : Prop :=
  ∃ q, exec i s = .next { s with part := q } ∧ post q

/-- A link interface once it has taken a request and composed its reply: the frame assembler hunts, the watchdog has
restarted, and the reply carries the status as the part then stands (R160, R169, R171, R172). -/
def Part.replyLink (p q : Part) (l : Link) (kind : Byte) (code : Result) (index : Byte) (data : List Byte) : LinkIf :=
  { p.link l with
    assembler := .hunting, watchdog := (p.link l).watchdog.restart, overrunSince := false
    answering := some { address := p.ctl.straps.rackId, kind := kind ||| 0x80, result := code, status := q.status l
                        index := index, data := data } }

/-- A request is answered, and its frame has no other effect on the links and the Mode Controller but those of its taking. -/
def Part.Served (p q : Part) (l : Link) (kind : Byte) (code : Result) (index : Byte) (data : List Byte) : Prop :=
  q.link l = p.replyLink q l kind code index data ∧ q.link l.other = p.link l.other
    ∧ q.ctl = { p.ctl with silenceDisarm := false }

/-- A request is accepted with its data, and leaves some blocks as they were. -/
def Part.Answers (p q : Part) (l : Link) (kind : Byte) (data : List Byte) (kept : List Block) : Prop :=
  p.Served q l kind .ok 0xFF data ∧ Kept p q kept

/-- A request is refused with a code and an offending index, and changes nothing else. -/
def Part.Refuses (p q : Part) (l : Link) (kind : Byte) (code : Result) (index : Byte) : Prop :=
  p.Served q l kind code index [] ∧ Kept p q [.channels, .ports, .groups, .queues, .clock, .tracks, .codes]

/-- R169: a frame whose body is too long: the assembler hunts again, and nothing else changes. -/
def Part.Discards (p q : Part) (l : Link) : Prop := q = p.setLink l { p.link l with assembler := .hunting }

/-- R188: the body lengths, by kind code. A counted body holds its count byte at a place. -/
def FitsKind (kind : Byte) (body : List Byte) : Prop :=
  let counted (place fixed entry : Nat) : Prop := ∃ n, body[place]? = some n ∧ body.length = fixed + entry * n.toNat
  match kind.toNat with
  | 0x01 | 0x02 | 0x05 | 0x06 | 0x07 => body.length = 0
  | 0x04 | 0x21 | 0x23 | 0x25 | 0x26 | 0x33 | 0x34 | 0x42 | 0x43 | 0x44 => body.length = 1
  | 0x03 | 0x08 | 0x12 | 0x14 | 0x30 | 0x31 | 0x41 => body.length = 2
  | 0x11 | 0x13 | 0x15 => body.length = 3
  | 0x40 => body.length = 4
  | 0x27 => body.length = 5
  | 0x22 => body.length = 14
  | 0x10 => body.length = 18
  | 0x20 => counted 1 8 3
  | 0x24 => counted 0 1 1
  | 0x32 => counted 1 2 5
  | _ => False

/-- R176: the order in which a HEARTBEAT chooses among pending pairs. -/
def NoticePair.rank : NoticePair → Nat
  | .mode => 0
  | .link => 1
  | .channelFault c => 2 + c.val
  | .group g => 18 + g.val
  | .track t => 26 + t.val
  | .loadWatch c => 28 + c.val

/-- The three ways a reset is taken, with the states in which each is: supply is applied; the RESET input is asserted on a part
not yet held; a scheduled command reset comes, by itself or with the last byte of the reply to RESET. -/
def TakesReset (i : Instr) (s : State) (cause : ResetCause) : Prop :=
  (∃ straps estop good, i = .powerOnReset straps estop good ∧ cause = .powerOn)
    ∨ (i = .lineResetAssert ∧ s.part.ctl.held = false ∧ cause = .line)
    ∨ (i = .commandReset ∧ s.part.ctl.resetDue = true ∧ cause = .command)
    ∨ (i = .replySent .a ∧ (s.part.link .a).answering.isSome = true ∧ s.part.ctl.resetDue = true ∧ cause = .command)

/-- R155 to R157: the commands that halt a device that is not HALTED, with the cause of each: a HALT, a broadcast HALT, the
assertion of the emergency-stop input, and the power-good timer. -/
def TakesHalt (i : Instr) (s : State) (cause : ModeCause) : Prop :=
  (∃ l tier, i = .halt l tier [] ∧ s.part.Ready l ∧ tier.toNat ≤ 7 ∧ cause = .haltRequest)
    ∨ (∃ l tier, i = .broadcastHalt l tier [] ∧ s.part.Ready l ∧ tier.toNat ≤ 7 ∧ cause = .haltRequest)
    ∨ i = .emergencyStopAssert ∧ cause = .emergencyStop
    ∨ i = .powerGoodTimerExpiry ∧ s.part.ctl.powerGoodTimer = some 0 ∧ cause = .powerLoss

/-! ### Modes -/

/-- R92: no DEVICE fault is recorded. -/
abbrev Part.Sound (p : Part) : Prop := ∀ c, (p.chan c).holdsFault .runaway = false ∧ (p.chan c).holdsFault .finalLimit = false

/-- R153: SET_MODE to a target is accepted. -/
def Part.MayTakeMode (p : Part) (target : DeviceMode) : Prop :=
  match p.ctl.mode, target with
  | .parked, .parked | .parked, .standby | .standby, .parked | .standby, .standby | .armed, .armed => True
  | .standby, .armed => p.ctl.straps.lockout = false ∧ p.ctl.estop = false ∧ p.ctl.powerGood = true ∧ p.Sound
  | .armed, .standby => ∀ c, (p.chan c).mover = .none
  | _, _ => False

/-- The modes in which a rig is set up: STANDBY and PARKED (R31). -/
abbrev Part.SetUp (p : Part) : Prop := p.ctl.mode = .standby ∨ p.ctl.mode = .parked

/-- The modes in which a show is prepared or played: STANDBY and ARMED (R31). -/
abbrev Part.Prepared (p : Part) : Prop := p.ctl.mode = .standby ∨ p.ctl.mode = .armed

/-! ### Channels -/

/-- R2: a configuration whose fields are in their ranges. -/
abbrev ChannelConfig.Legal (x : ChannelConfig) : Prop :=
  20 ≤ x.nominalSpeed ∧ x.nominalSpeed ≤ 400 ∧ 10 ≤ x.jogSpeed ∧ x.jogSpeed ≤ x.nominalSpeed
    ∧ x.softLower < x.softUpper ∧ x.softUpper ≤ 60000 ∧ 125 ≤ x.wll ∧ x.wll ≤ 5000 ∧ 100 ≤ x.overloadPct
    ∧ x.overloadPct ≤ 150 ∧ x.underload ≤ 1000 ∧ 10 ≤ x.watchBand ∧ x.watchBand ≤ 500 ∧ x.guardTier ≤ 7

/-- R187: channel kind codes. -/
def ChannelKind.code : ChannelKind → Byte
  | .absent => 0
  | .fixedSpeed => 1
  | .variableSpeed => 2

/-- R188: the body of a CONFIGURE_CHANNEL. -/
def configureBody (c : Chan) (k : ChannelKind) (x : ChannelConfig) : List Byte :=
  [byteOf c.val, k.code] ++ wr16 x.nominalSpeed ++ wr16 x.jogSpeed ++ wr16 x.softLower ++ wr16 x.softUpper ++ wr16 x.wll
    ++ [byteOf x.overloadPct] ++ wr16 x.underload ++ wr16 x.watchBand ++ [byteOf x.guardTier]

/-- The channels f to e of a span (R30). -/
abbrev InSpan (f e c : Chan) : Prop := f ≤ c ∧ c ≤ e

/-- R41, R42: the members of a span whose owner a RELEASE takes away: the requester's own, and with FORCE all that are owned. -/
abbrev Part.Gone (p : Part) (l : Link) (force : Bool) (f e c : Chan) : Prop :=
  f ≤ c ∧ c ≤ e ∧ (if force then (p.chan c).owner ≠ none else (p.chan c).owner = some l)

/-- R33: a channel lets a tier act on it, an ABSENT one by the guard tier it keeps (log 35, the model's choice). -/
abbrev Channel.Lets (x : Channel) (tier : Nat) : Prop := tier ≤ x.config.guardTier

/-- R23, R12: a jogged channel that was STARTING or MOVING, after the end of its jog. -/
def Channel.jogEnded (x : Channel) : Channel :=
  { x with
    state := .stopping, direction := none, confirmMark := none, pendingRelease := none, confirmTimer := none
    history := [], standstillTimer := some 2000, reversalExtreme := none, mover := .none, jog := none
    watchArmed := false, progressMark := none, progressTimer := .stopped, releaseOnEnd := false
    owner := if x.releaseOnEnd then none else x.owner }

/-- R12: a STARTING or MOVING channel of a group after a stop. Its progress watch is not active any more (R98). -/
def Channel.stopped (x : Channel) : Channel :=
  { x with
    state := .stopping, direction := none, confirmMark := none, pendingRelease := none, confirmTimer := none
    history := [], standstillTimer := some 2000, reversalExtreme := none, progressMark := none
    progressTimer := .stopped }

/-- R12: a channel after a stop from its mover, in whichever state the stop finds it. -/
def Channel.afterStop (x : Channel) : Channel :=
  if x.state = .starting ∨ x.state = .moving then x.stopped
  else if x.state = .stopping then { x with pendingRelease := none }
  else x

/-- R8, R82, R163: a channel whose mover is cleared: a HOLDING one goes IDLE, and the owner of one that a silence had marked goes.
That its progress watch goes with the mover is log 20's. -/
def Channel.freed (x : Channel) : Channel :=
  { x with
    mover := .none, pendingRelease := none, jog := none, state := if x.state = .holding then .idle else x.state
    owner := if x.releaseOnEnd then none else x.owner, releaseOnEnd := false, watchArmed := false, progressMark := none
    progressTimer := .stopped }

/-- R98: a channel whose mover arms its progress watch, which is active while the channel is MOVING. -/
def Channel.watched (x : Channel) : Channel :=
  if x.state ≠ .moving then { x with watchArmed := true, progressMark := none, progressTimer := .stopped }
  else if x.progressTimer = .stopped then
    { x with watchArmed := true, progressMark := some x.raw, progressTimer := .running 600 }
  else { x with watchArmed := true }

/-- R85, R10, R12, R98: the channel of a lane after a new target, by its state. Within 5 mm of the target it is given a stop, and
its watch is disarmed. Otherwise it is given a release toward the target, and its watch is armed: a HOLDING one starts; a
running one takes the demand, or stops with the release pending where it ran the other way; a STOPPING one has the release
pending, unless a fault record discards it. -/
def Channel.aimed (x : Channel) (target : Int) (demand : Nat) : Channel :=
  let way : Dir := if target < x.pos then .down else .up
  if (target - x.pos).natAbs ≤ 5 then
    { x.afterStop with watchArmed := false, progressMark := none, progressTimer := .stopped }
  else
    Channel.watched <|
      match x.state with
      | .idle | .holding =>
        { x with
          state := .starting, direction := some way, demand := demand, confirmMark := some x.raw, confirmTimer := some 600
          pendingRelease := none, reversalExtreme := some x.raw, settling := false, settleTimer := none }
      | .starting | .moving =>
        if x.direction = some way then { x with demand := demand }
        else { x.stopped with pendingRelease := some { direction := way, demand := demand } }
      | .stopping =>
        if x.fault = none ∧ x.mover ≠ .none then { x with pendingRelease := some { direction := way, demand := demand } }
        else x
      | .absent | .faulted => x

/-- R104: the clearing condition of a kind on a channel. -/
def Part.CanClear (p : Part) (c : Chan) (k : FaultKind) : Prop :=
  match k with
  | .overload => 100 * (p.chan c).load ≤ (p.chan c).config.wll * (p.chan c).config.overloadPct
  | .runaway => ∃ x y z, (p.chan c).history = [x, y, z] ∧ max x (max y z) - min x (min y z) ≤ 2
  | .finalLimit => (p.chan c).upperOpen = false ∧ (p.chan c).lowerOpen = false
  | .driveFault => (p.chan c).driveFault = false
  | .feedbackLost => (p.port c).arrivedSinceLoss = true
  | .slack | .stall | .reversed | .loadShift | .syncLost | .trackLag => True

/-- R93 to R98: a sample that a channel takes without a fault, in the state in which step 6 of R5 finds it: no switch, flag or
load speaks; a live channel is neither slack nor reversed, nor has its progress timer run out; a channel at rest stays
within 20 mm. -/
def Channel.Calm (x : Channel) (y : Sample) : Prop :=
  y.upperOpen = false ∧ y.lowerOpen = false ∧ y.driveFault = false
    ∧ 100 * min y.load 9999 ≤ x.config.wll * x.config.overloadPct
    ∧ (x.state = .starting ∨ x.state = .moving → x.config.underload ≤ min y.load 9999)
    ∧ (∀ d e, x.direction = some d → x.reversalExtreme = some e → -10 < gain d e y.raw)
    ∧ (x.state = .idle ∨ x.state = .holding ∨ x.state = .faulted → x.settling = false → (y.raw - x.rest).natAbs ≤ 20)
    ∧ x.progressTimer ≠ .expired

/-! ### Groups and fires -/

/-- The lanes of a group meet R33, R35 and R36 for a tier and a link. -/
abbrev Part.LanesAllow (p : Part) (g : Grp) (tier : Nat) (l : Link) : Prop :=
  ∀ ln ∈ (p.group g).lanes,
    (p.chan ln.channel).Lets tier ∧ (p.chan ln.channel).owner = some l ∧ (p.chan ln.channel).referenced = true

/-- The lane at a place of a list is the first of the list whose channel meets a condition. -/
def Part.FirstIn (p : Part) (lanes : List Lane) (n : Nat) (bad : Channel → Prop) : Prop :=
  (∃ ln, lanes[n]? = some ln ∧ bad (p.chan ln.channel))
    ∧ ∀ k ln, k < n → lanes[k]? = some ln → ¬bad (p.chan ln.channel)

/-- The lane with an index is the first of a group whose channel meets a condition. -/
abbrev Part.FirstLane (p : Part) (g : Grp) (n : Nat) (bad : Channel → Prop) : Prop := p.FirstIn (p.group g).lanes n bad

/-- R64: a target lies outside 0 to 60 000 mm or a channel's soft limits. -/
abbrev Channel.Bars (x : Channel) (target : Int) : Prop :=
  target < 0 ∨ 60000 < target ∨ target < x.config.softLower ∨ (x.config.softUpper : Int) < target

/-- R112, R115: a cue whose fields are in their ranges. -/
def Cue.Legal (x : Cue) : Prop :=
  1 ≤ x.number ∧ x.number ≤ 65535 ∧ 10 ≤ x.speed ∧ x.speed ≤ 400
    ∧ (match x.form with
       | .relative d => -60000 ≤ d ∧ d ≤ 60000
       | .absolute t => t ≤ 60000)
    ∧ (match x.trigger with
       | .onGo => True
       | .afterPrevious n => n ≤ 600000
       | .atMark m => m ≤ 4294967295)

/-- R188: the body of a QUEUE_CUE: the group and the thirteen bytes of the cue that READ_CUES sends first. -/
def queueCueBody (g : Grp) (x : Cue) : List Byte := byteOf g.val :: (cueBytes x).take 13

/-- R63 to R65: a move of a group toward targets, one for each lane, is admitted for a tier and a link. The lanes name
distinct channels (R47). -/
structure Part.Admits (p : Part) (g : Grp) (tier : Nat) (l : Link) (targets : List Int) : Prop where
  armed : p.ctl.mode = .armed
  awake : p.ctl.held = false
  unbound : (p.group g).boundTrack = none
  lengths : targets.length = (p.group g).lanes.length
  distinct : ((p.group g).lanes.map (·.channel)).Nodup
  allow : p.LanesAllow g tier l
  free : ∀ ln ∈ (p.group g).lanes, (p.chan ln.channel).state = .idle ∧ (p.chan ln.channel).mover = .none
  bounds : ∀ lt ∈ (p.group g).lanes.zip targets,
    0 ≤ lt.2 ∧ lt.2 ≤ 60000 ∧ ((p.chan lt.1.channel).config.softLower : Int) ≤ lt.2
      ∧ lt.2 ≤ (p.chan lt.1.channel).config.softUpper

/-- R113: the group travel of a cue. -/
def Part.travelOf (p : Part) (g : Grp) (x : Cue) : Int :=
  match x.form, (p.group g).lanes with
  | .relative d, _ => d
  | .absolute t, ln :: _ => if ln.sign = .oppose then (p.chan ln.channel).pos - t else t - (p.chan ln.channel).pos
  | .absolute _, [] => 0

/-- R64: the targets of a cue: each lane's position plus its travel (R48, R49). -/
def Part.cueTargets (p : Part) (g : Grp) (x : Cue) : List Int :=
  (p.group g).lanes.map fun ln => (p.chan ln.channel).pos + ln.travel (p.travelOf g x)

/-- R66: a lane's demand for a cue, before the cap of R10: the group speed shifted right by the ratio. -/
def cueSpeed (speed : Nat) (ln : Lane) (_target : Int) : Nat := speed / 2 ^ ln.ratio

/-- R141: a lane's demand for a segment, before the cap of R10: the speed that covers the lane delta in the duration, rounded
up, and at least 10. -/
def Part.segmentSpeed (p : Part) (duration : Nat) (ln : Lane) (target : Int) : Nat :=
  max 10 (((target - (p.chan ln.channel).pos).natAbs * 1000 + duration - 1) / duration)

/-- R66: a lane's entry of the move record at a fire, from its channel, its target and its demand. A lane within 5 mm of its
target is ARRIVED and confirmed, and takes no demand (log 14). -/
def Part.firedLane (p : Part) (demandOf : Lane → Int → Nat) (ln : Lane) (target : Int) : LaneRecord :=
  let x := p.chan ln.channel
  let near : Bool := (target - x.pos).natAbs ≤ 5
  let demand := if near || x.kind != .variableSpeed then 0 else min (demandOf ln target) x.config.nominalSpeed
  { start := x.pos, target := target, travel := target - x.pos, baseline := x.load
    state := if near then .arrived else .driving, confirmed := near, demand := demand, full := demand }

/-- R66: the channel of a lane after a fire: HOLDING when its lane is ARRIVED, else released. -/
def Part.firedChannel (p : Part) (g : Grp) (demandOf : Lane → Int → Nat) (ln : Lane) (target : Int) : Channel :=
  let x := p.chan ln.channel
  if (target - x.pos).natAbs ≤ 5 then { x with mover := .group g, state := .holding }
  else
    { x with
      mover := .group g, state := .starting, direction := some (if x.pos < target then .up else .down)
      demand := (p.firedLane demandOf ln target).demand, confirmMark := some x.raw, confirmTimer := some 600
      pendingRelease := none, reversalExtreme := some x.raw, settling := false, settleTimer := none
      watchArmed := true, progressMark := none, progressTimer := .stopped }

/-- R62, R66: what an accepted fire that does not complete at once makes of a group and its channels: PREPARING with its move
record and its control period, and each lane's channel HOLDING or released with the group as mover. -/
def Part.Started (p q : Part) (g : Grp) (tier : Nat) (l : Link) (source : MoveSource) (speed : Option Nat)
    (demandOf : Lane → Int → Nat) (targets : List Int) : Prop :=
  q.group g = { p.group g with
    state := .preparing, held := false, controlTimer := some 20
    move := some { origin := l, tier := tier, source := source, speed := speed, reason := none
                   lanes := ((p.group g).lanes.zip targets).map fun lt => p.firedLane demandOf lt.1 lt.2 } }
    ∧ ∀ lt ∈ (p.group g).lanes.zip targets, q.chan lt.1.channel = p.firedChannel g demandOf lt.1 lt.2

/-- The groups and channels that are not those of a group stay as they were. -/
def Part.Alone (p q : Part) (g : Grp) : Prop :=
  (∀ h, h ≠ g → q.group h = p.group h) ∧ ∀ c, (∀ ln ∈ (p.group g).lanes, ln.channel ≠ c) → q.chan c = p.chan c

/-- R66, R67: some lane has more than the arrival band to travel. -/
abbrev Part.Travels (p : Part) (g : Grp) (targets : List Int) : Prop :=
  ∃ lt ∈ (p.group g).lanes.zip targets, 5 < (lt.2 - (p.chan lt.1.channel).pos).natAbs

/-- A queue whose head has left it, and which waits for nothing. -/
def CueQueue.rest (x : CueQueue) (blocked : Bool) : CueQueue :=
  { cues := x.cues.tail, blocked := blocked, arming := .none, dwellTimer := none }

/-- The other queues stay as they were. -/
def Part.OtherQueues (p q : Part) (g : Grp) : Prop := ∀ h, h ≠ g → q.queue h = p.queue h

/-- R118: a completion may arm the head of a group's queue: the group is unbound, and the queue neither blocked nor armed. -/
abbrev Part.Armable (p : Part) (g : Grp) : Prop :=
  (p.group g).boundTrack = none ∧ (p.queue g).blocked = false ∧ (p.queue g).arming = .none

/-- R119, R120: a completion fires no head: there is none to arm, or it waits for a GO, a dwell or a mark not reached. -/
def Part.HeadWaits (p : Part) (g : Grp) : Prop :=
  p.Armable g → ∀ x, (p.queue g).cues.head? = some x →
    x.trigger ≠ .afterPrevious 0 ∧ ∀ mark, x.trigger = .atMark mark → p.clock.running = true → p.clock.value < mark

/-- R118, R119, R120: the queue of a group after a completion that fires no head: an AFTER_PREVIOUS head dwells, an AT_MARK head
awaits its mark. -/
def Part.queueOnCompletion (p : Part) (g : Grp) : CueQueue :=
  if p.Armable g then
    match ((p.queue g).cues.head?.map Cue.trigger : Option Trigger) with
    | some (.afterPrevious n) => { p.queue g with arming := .dwelling, dwellTimer := some n }
    | some (.atMark _) => { p.queue g with arming := .awaitingMark }
    | some .onGo | none => p.queue g
  else p.queue g

/-- Some lane channel of a group is neither HOLDING nor FAULTED, so that the group does not leave STOPPING at once (R82). -/
abbrev Part.Underway (p : Part) (g : Grp) : Prop :=
  ∃ ln ∈ (p.group g).lanes, (p.chan ln.channel).state ≠ .holding ∧ (p.chan ln.channel).state ≠ .faulted

/-- The group that moves a channel, if it is STOPPING, awaits another of its lane channels, so that it does not leave STOPPING with
this one (R82). -/
abbrev Part.Awaited (p : Part) (c : Chan) : Prop :=
  ∀ g, (p.chan c).mover = .group g → (p.group g).state = .stopping →
    ∃ ln ∈ (p.group g).lanes, ln.channel ≠ c ∧ (p.chan ln.channel).state ≠ .holding ∧ (p.chan ln.channel).state ≠ .faulted

/-- The stop reasons that neither complete a move nor fault it (R82). -/
def ordinaryStops : List (Option StopReason) := [some .request, some .halt, some .silence]

/-- R147, R148: a track whose play has ended: LOADED or EMPTY by its list, with nothing left of the play. -/
def Track.ended (x : Track) : Track :=
  { x with
    state := if x.waypoints = [] then .empty else .loaded
    current := none, closing := false, segmentTimer := none, starvationTimer := none, playing := [], arrived := []
    origins := Vector.replicate 8 none, tier := none }

/-- R145: a track whose play is abandoned, because its last group has left it: LOADED or EMPTY by its list, with its origins kept;
that the stored tier is kept too is log 19's. -/
def Track.abandoned (x : Track) : Track :=
  { x.ended with origins := x.origins, tier := x.tier, playing := x.playing, arrived := x.arrived }

/-- R145: a track that a group has left. -/
def Track.leftBy (x : Track) (g : Grp) : Track :=
  { x with playing := x.playing.filter (· ≠ g), arrived := x.arrived.filter (· ≠ g) }

/-- R145, R149: what the end of a playing group's track move does to the track: the last group to leave abandons the play, with
TRACK_STOPPED, a closing one too (log 18); groups that are left and that a closing track awaits no longer end it, with
TRACK_ENDED; otherwise the others play on. -/
def Part.LeavesPlay (p q : Part) (t : Trk) (g : Grp) : Prop :=
  let x := (p.track t).leftBy g
  (x.playing = [] → x.state = .playing ∨ x.state = .starved →
      q.track t = x.abandoned ∧ q.codes.tracks[t] = some .trackStopped)
    ∧ (x.playing ≠ [] → x.closing = false ∨ (∃ h ∈ x.playing, h ∉ x.arrived) →
        q.track t = x ∧ q.codes.tracks[t] = p.codes.tracks[t])
    ∧ (x.playing ≠ [] → x.closing = true → (∀ h ∈ x.playing, h ∈ x.arrived) →
        q.track t = x.ended ∧ q.codes.tracks[t] = some .trackEnded)

/-- R82, R126, R145: how a group leaves STOPPING, by the stop reason of its move and the move's kind: FAULTED with its record;
with COMPLETE to IDLE, CUE_DONE for a cue move, whose queue is told; with any other reason a cue move to HELD with the
move as held move, and a track move to IDLE without an event. A group that ends a track move leaves the play. -/
def Part.Leaves (p q : Part) (g : Grp) (m : MoveRecord) : Prop :=
  (∀ f, m.reason = some .fault → (p.group g).fault = some f →
    q.group g = { p.group g with state := .faulted } ∧ q.codes.groups[g] = some (.groupFaulted f)
      ∧ q.queue g = p.queue g)
    ∧ (∀ n, m.source = .cue n →
      (m.reason = some .complete → p.HeadWaits g →
        q.group g = { p.group g with state := .idle, move := none } ∧ q.codes.groups[g] = some (.cueDone n)
          ∧ q.queue g = p.queueOnCompletion g)
      ∧ (m.reason ∈ ordinaryStops →
        q.group g = { p.group g with state := .held, held := true } ∧ q.codes.groups[g] = some .groupHeld
          ∧ q.queue g = p.queue g))
    ∧ ∀ t, m.source = .track t →
      g ∉ (q.track t).playing ∧ q.queue g = p.queue g ∧ (g ∈ (p.track t).playing → p.LeavesPlay q t g)
      ∧ (m.reason = some .complete ∨ m.reason ∈ ordinaryStops →
        q.group g = { p.group g with state := .idle, move := none } ∧ q.codes.groups[g] = p.codes.groups[g])

/-- A move whose end fires no head in the same taking (R82, R126). -/
abbrev Part.EndsQuietly (p : Part) (g : Grp) (m : MoveRecord) : Prop :=
  m.reason = some .complete → (∃ n, m.source = .cue n) → p.HeadWaits g

/-- Every lane of a group's move stands level: as many entries as lanes, distinct channels, each position at the entry's start
or target as asked, and each load at its baseline. -/
abbrev Part.Level (p : Part) (g : Grp) (m : MoveRecord) (place : LaneRecord → Int) : Prop :=
  m.lanes.length = (p.group g).lanes.length ∧ ((p.group g).lanes.map (·.channel)).Nodup
    ∧ ∀ lr ∈ (p.group g).lanes.zip m.lanes,
        (p.chan lr.1.channel).pos = place lr.2 ∧ (p.chan lr.1.channel).load = lr.2.baseline

/-- R73, R74: no lane of a move leads by more than the level limit, and no lane's load has shifted. -/
abbrev Part.Steady (p : Part) (g : Grp) (m : MoveRecord) : Prop :=
  (∀ x ∈ p.leads g m, x ≤ (p.group g).levelLimit)
    ∧ ∀ lr ∈ (p.group g).lanes.zip m.lanes,
        loadShifted (p.group g).loadTolerance lr.2.baseline (p.chan lr.1.channel).load = false

/-- R75, R77, R84: a move whose lanes are all ARRIVED and whose channels are all HOLDING, where they may stand off their targets, at
a control period that finds no lane out of level and no load shifted. -/
structure Part.Landed (p : Part) (g : Grp) (m : MoveRecord) : Prop where
  move : (p.group g).move = some m
  lengths : m.lanes.length = (p.group g).lanes.length
  distinct : ((p.group g).lanes.map (·.channel)).Nodup
  steady : p.Steady g m
  arrived : ∀ r ∈ m.lanes, r.state = .arrived
  holding : ∀ ln ∈ (p.group g).lanes, (p.chan ln.channel).state = .holding ∧ (p.chan ln.channel).mover = .group g

/-- R67, R77, R126: what a fire that has nothing to travel makes of a group whose queue was left as in a part: CUE_DONE of the cue
of its move, IDLE without a move, its channels IDLE and braked, and its queue told. -/
def Part.CompletesAtOnce (p q : Part) (g : Grp) (number : Nat) : Prop :=
  q.group g = { p.group g with state := .idle, held := false, move := none, controlTimer := none }
    ∧ q.queue g = p.queueOnCompletion g ∧ q.codes.groups[g] = some (.cueDone number)
    ∧ p.Alone q g ∧ p.OtherQueues q g
    ∧ (∀ ln ∈ (p.group g).lanes, (q.chan ln.channel).state = .idle ∧ (q.chan ln.channel).mover = .none
        ∧ (q.port ln.channel).output.brakeReleased = false)
    ∧ Kept p q [.samples, .clock, .tracks, .taken]

/-- R75: what is left of a lane's travel at a position, in its direction. -/
def LaneRecord.remaining (r : LaneRecord) (pos : Int) : Int := if r.travel < 0 then pos - r.target else r.target - pos

/-- The lane entries of a group's move record. -/
def Group.records (x : Group) : List LaneRecord := (x.move.map (·.lanes)).getD []

/-- A control period of a group ends no move (R77): a lane is short of its target, or a lane channel is not HOLDING. -/
abbrev Part.Unfinished (p : Part) (g : Grp) (m : MoveRecord) : Prop :=
  (∃ lr ∈ (p.group g).lanes.zip m.lanes, lr.2.state ≠ .arrived ∧ 5 < lr.2.remaining (p.chan lr.1.channel).pos)
    ∨ ∃ ln ∈ (p.group g).lanes, (p.chan ln.channel).state ≠ .holding

/-- R71, R72, R75, R76: the entry of a lane after a steady control period with its lead: trimmed or resumed, and ARRIVED, which
confirms it (log 15), within 5 mm of its target. -/
def LaneRecord.afterPeriod (r : LaneRecord) (window : Nat) (lead pos : Int) : LaneRecord :=
  let t := r.trim (trimOf window r.state lead)
  if r.state ≠ .arrived ∧ r.remaining pos ≤ 5 then { t with state := .arrived, confirmed := true } else t

/-- R22: a sample does not take a referenced jog to a soft limit in its direction. -/
abbrev Channel.JogsOn (x : Channel) (y : Sample) : Prop :=
  ∀ j, x.jog = some j → x.referenced = false ∨
    if j.direction = .up then y.raw + x.offset < x.config.softUpper else (x.config.softLower : Int) < y.raw + x.offset

/-! ### Tracks -/

/-- R139: a batch of waypoints that FEED_TRACK accepts. -/
abbrev LegalBatch (batch : List Waypoint) : Prop :=
  1 ≤ batch.length ∧ batch.length ≤ 8 ∧ (∀ w ∈ batch.dropLast, w.last = false)
    ∧ ∀ w ∈ batch, -30000 ≤ w.offset ∧ w.offset ≤ 30000 ∧ 40 ≤ w.duration ∧ w.duration ≤ 60000

/-- R188: a waypoint in a FEED_TRACK body. -/
def waypointBytes (w : Waypoint) : List Byte := wrS16 w.offset ++ wr16 w.duration ++ [if w.last then 1 else 0]

/-- R141, R143: a bound group's origins, which the latest positions are where it has none. -/
def Part.originList (p : Part) (t : Trk) (g : Grp) : List Int :=
  match (p.track t).origins[g] with
  | some o => o
  | none => (p.group g).lanes.map fun ln => (p.chan ln.channel).pos

/-- R142: the lanes of the groups bound to a track, groups in group order and lanes in lane order. -/
def Part.trackLanes (p : Part) (t : Trk) : List Lane := (p.track t).bound.flatMap fun g => (p.group g).lanes

/-- R141: the segment targets of a group for a waypoint. -/
def Part.segmentTargets (p : Part) (t : Trk) (g : Grp) (w : Waypoint) : List Int :=
  ((p.group g).lanes.zip (p.originList t g)).map fun lo => lo.2 + lo.1.travel w.offset

/-- R144: a track whose head waypoint has become its current segment. -/
def Track.segment (x : Track) (w : Waypoint) (rest : List Waypoint) : Track :=
  { x with
    waypoints := rest, current := some w, segmentTimer := some w.duration, arrived := [], closing := false
    state := .playing }

/-- R47, R137, R62, R143: the groups that play on a track, each once, name each channel in one lane alone, and have an entry of
their move and an origin for each of their lanes. -/
abbrev Part.PlaysApart (p : Part) (t : Trk) : Prop :=
  (p.track t).playing.Nodup
    ∧ (((p.track t).playing.flatMap fun g => (p.group g).lanes).map (·.channel)).Nodup
    ∧ ∀ g ∈ (p.track t).playing, (p.originList t g).length = (p.group g).lanes.length
        ∧ ∀ m, (p.group g).move = some m → m.lanes.length = (p.group g).lanes.length

/-- R85, R141: a lane's entry after a new target, from the entry before it: new start, target, travel and demand as at a fire
(an ARRIVED lane takes no demand by log 14, and is confirmed by log 15), with the baseline load kept, and the confirmed marker
kept where the channel is MOVING in the new direction. -/
def Part.retargetedLane (p : Part) (duration : Nat) (ln : Lane) (r : LaneRecord) (target : Int) : LaneRecord :=
  let x := p.chan ln.channel
  let f := p.firedLane (p.segmentSpeed duration) ln target
  let way : Dir := if target < x.pos then .down else .up
  { f with baseline := r.baseline, confirmed := f.confirmed || (r.confirmed && x.state == .moving && x.direction == some way) }

/-- R85, R141, R144, R64: what a new segment makes of a group that is PREPARING or RUNNING. A target out of bounds leaves the group
and its channels as they were; otherwise every lane has its new entry and every lane channel follows it, a HOLD lane off its
target too by log 33, and the group is PREPARING when a lane is unconfirmed. -/
def Part.Retargeted (p q : Part) (t : Trk) (g : Grp) (w : Waypoint) : Prop :=
  let aims := (p.group g).lanes.zip (p.segmentTargets t g w)
  let barred := ∃ lt ∈ aims, (p.chan lt.1.channel).Bars lt.2
  (barred → q.group g = p.group g ∧ ∀ ln ∈ (p.group g).lanes, q.chan ln.channel = p.chan ln.channel)
    ∧ (¬barred → ∀ m, (p.group g).move = some m →
      let records := (aims.zip m.lanes).map fun x => p.retargetedLane w.duration x.1.1 x.2 x.1.2
      q.group g = { p.group g with
          move := some { m with lanes := records }
          state := if records.all (·.confirmed) then (p.group g).state else .preparing }
      ∧ ∀ lt ∈ aims, q.chan lt.1.channel =
          (p.chan lt.1.channel).aimed lt.2 (p.firedLane (p.segmentSpeed w.duration) lt.1 lt.2).demand)

/-- R144: what the start of a segment makes of the groups and channels. The playing groups that are PREPARING or RUNNING are
retargeted; a STOPPING one is not given the segment, and it, every other group and the channels of no retargeted group stay as
they were. -/
def Part.SegmentGiven (p q : Part) (t : Trk) (w : Waypoint) : Prop :=
  let given := fun g => g ∈ (p.track t).playing ∧ (p.group g).active = true
  (∀ g, ¬given g → q.group g = p.group g)
    ∧ (∀ c, (∀ g, given g → ∀ ln ∈ (p.group g).lanes, ln.channel ≠ c) → q.chan c = p.chan c)
    ∧ (p.PlaysApart t → ∀ g, given g → p.Retargeted q t g w)

/-- R81, R82, R84, R147, R148: what the end of a track's play makes of the groups and channels, by the reason that a stop or a
completion order gives. A playing group that is PREPARING or RUNNING, with a lane channel under way, is STOPPING with that
reason, and every lane channel has had a stop; with all of them at rest it ends its move in the same taking, IDLE without a
move, its channels without a mover. Neither raises an event of the group. A group that is STOPPING already keeps its reason:
it, every other group and the channels of none that the end reaches stay as they were. -/
def Part.PlayersEnd (p q : Part) (t : Trk) (reason : StopReason) : Prop :=
  let reached := fun g => g ∈ (p.track t).playing ∧ (p.group g).active = true
  (∀ g, ¬reached g → q.group g = p.group g ∧ q.codes.groups[g] = p.codes.groups[g])
    ∧ (∀ c, (∀ g, reached g → ∀ ln ∈ (p.group g).lanes, ln.channel ≠ c) → q.chan c = p.chan c)
    ∧ ∀ g m, reached g → (p.group g).move = some m → m.source = .track t →
      q.codes.groups[g] = p.codes.groups[g]
      ∧ (p.Underway g →
          q.group g = { p.group g with state := .stopping, controlTimer := none, move := some { m with reason := some reason } }
          ∧ ∀ ln ∈ (p.group g).lanes, q.chan ln.channel = (p.chan ln.channel).afterStop)
      ∧ (¬p.Underway g →
          q.group g = { p.group g with state := .idle, controlTimer := none, move := none }
          ∧ ∀ ln ∈ (p.group g).lanes, q.chan ln.channel = (p.chan ln.channel).freed)

/-- R146: no lane of a playing group of a track stands farther than its level limit from its target for a waypoint. -/
abbrev Part.KeepsUp (p : Part) (t : Trk) (w : Waypoint) : Prop :=
  ∀ g ∈ (p.track t).playing, ∀ lt ∈ (p.group g).lanes.zip (p.segmentTargets t g w),
    ((p.chan lt.1.channel).pos - lt.2).natAbs ≤ (p.group g).levelLimit

end Sys2Proof.Machine
end

