-- ==== Sys2Proof/WellFormed.lean ====
section
/-! DEFINITION. Which commands are well formed: those whose bytes fit their row. exec acts on the bytes as they stand (log 2),
and discards a frame whose body is longer than 240 bytes (R169). The commands of a received frame are well formed. -/

namespace Sys2Proof

/-- The kind codes of the part's requests (the headings of chapters 1 to 10). -/
def requestKinds : List Byte :=
  [0x01, 0x02, 0x03, 0x04, 0x05, 0x06, 0x07, 0x08,
   0x10, 0x11, 0x12, 0x13, 0x14, 0x15,
   0x20, 0x21, 0x22, 0x23, 0x24, 0x25, 0x26, 0x27,
   0x30, 0x31, 0x32, 0x33, 0x34,
   0x40, 0x41, 0x42, 0x43, 0x44]

/-- R169, R186: a body has at most 240 bytes. -/
def bodyFits (body : List Byte) : Bool := body.length ≤ 240

/-- R187: a raw count is a 24-bit two's-complement number. -/
def Sample.fits (x : Sample) : Bool := -8388608 ≤ x.raw && x.raw ≤ 8388607

/-- The check of one command. RELEASE and RELEASE_FORCE are told apart by the FORCE byte, the two CLEAR_FAULT rows by the
form byte, the three SET_CLOCK rows by the action byte (R188); an unknown kind is none of the part's (R28). -/
def Instr.wf : Instr → Bool
  | .release _ _ body => bodyFits body && body[2]? != some 1
  | .releaseForce _ _ body => bodyFits body && body[2]? == some 1
  | .clearFaultSpan _ _ body => bodyFits body && body[0]? != some 1
  | .clearFaultGroup _ _ body => bodyFits body && body[0]? == some 1
  | .setClockSet _ _ body => bodyFits body && body[0]? != some 1 && body[0]? != some 2
  | .setClockStart _ _ body => bodyFits body && body[0]? == some 1
  | .setClockHold _ _ body => bodyFits body && body[0]? == some 2
  | .unknownKind _ kind _ body => bodyFits body && !requestKinds.contains kind
  | .identify _ _ body | .heartbeat _ _ body | .setWatchdog _ _ body | .setMode _ _ body | .halt _ _ body
  | .broadcastHalt _ _ body | .resume _ _ body | .reset _ _ body | .setNotices _ _ body | .configureChannel _ _ body
  | .setPosition _ _ body | .claim _ _ body | .jog _ _ body | .defineGroup _ _ body | .deleteGroup _ _ body
  | .queueCue _ _ body | .go _ _ body | .stop _ _ body | .cancel _ _ body | .flushCues _ _ body
  | .bindTrack _ _ body | .unbindTrack _ _ body | .feedTrack _ _ body | .playTrack _ _ body | .stopTrack _ _ body
  | .latch _ _ body | .readSnapshot _ _ body | .readGroup _ _ body | .readCues _ _ body | .readTrack _ _ body =>
    bodyFits body
  | .feedbackArrival _ x => x.fits
  | .frameCrcError _ | .frameLengthError _ | .frameGapTimeout _ | .frameIgnored _ | .frameOverrun _ | .replySent _
  | .watchdogExpiry _ | .frameStart _ | .feedbackTimerExpiry _ | .confirmTimerExpiry _ | .standstillTimerExpiry _
  | .settleTimerExpiry _ | .progressTimerExpiry _ | .jogLeaseExpiry _ | .controlPeriod _ | .dwellExpiry _
  | .markReached _ | .showClockSaturate | .segmentTimerExpiry _ | .starvationTimerExpiry _ | .emergencyStopAssert
  | .emergencyStopRelease | .powerGoodAbsent | .powerGoodPresent | .powerGoodTimerExpiry | .powerOnReset _ _ _
  | .lineResetAssert | .lineResetRelease | .commandReset => true

end Sys2Proof
end

