-- ==== Sys2Proof/Certificates/Slice0/Obligations.lean ====
section
/-! DEFINITION. What is to be proved of the model. `Gives i s post`: the command i, executed at s, gives a next state with the
same queue of waiting commands and a part that meets post. -/

open Sys2Proof Sys2Proof.Machine

/-! ### Takings -/

/-- A step with a command at the front of the queue is that command executed on the machine with the queue's rest. -/
def Claims.StepTakesTheFrontCommand : Prop :=
  ∀ (c : Instr) (s : State), step { s with pending := c :: s.pending } = exec c s

/-- With no command waiting, one millisecond passes: the running show clock counts, every running timer counts down, and nothing
else changes; the commands that then wait are those of the timers that have run out, of the marks the clock has reached, and
of a clock at its end. In line reset the part stands. The tick is the model's choice (logs 3 to 5). -/
def Obligations.IdleStepCountsOneMillisecond : Prop :=
  ∀ s : State, s.pending = [] →
    (s.part.ctl.held = true → step s = .next s)
    ∧ (s.part.ctl.held = false → ∃ t, step s = .next t
        ∧ t.part.clock.running = s.part.clock.running
        ∧ (s.part.clock.running = true → t.part.clock.value = min (s.part.clock.value + 1) 4294967295)
        ∧ (s.part.clock.running = false → t.part.clock.value = s.part.clock.value)
        ∧ (∀ c,
            t.part.chan c = { s.part.chan c with
              confirmTimer := (s.part.chan c).confirmTimer.map (· - 1)
              standstillTimer := (s.part.chan c).standstillTimer.map (· - 1)
              settleTimer := (s.part.chan c).settleTimer.map (· - 1)
              jog := (s.part.chan c).jog.map fun j => { j with lease := j.lease - 1 }
              progressTimer := match (s.part.chan c).progressTimer with
                | .running n => .running (n - 1)
                | .stopped => .stopped
                | .expired => .expired }
            ∧ t.part.port c = { s.part.port c with feedbackTimer := (s.part.port c).feedbackTimer.map (· - 1) })
        ∧ (∀ g,
            t.part.group g = { s.part.group g with controlTimer := (s.part.group g).controlTimer.map (· - 1) }
            ∧ t.part.queue g = { s.part.queue g with dwellTimer := (s.part.queue g).dwellTimer.map (· - 1) })
        ∧ (∀ u, t.part.track u = { s.part.track u with
            segmentTimer := (s.part.track u).segmentTimer.map (· - 1)
            starvationTimer := (s.part.track u).starvationTimer.map (· - 1) })
        ∧ (∀ l, t.part.link l = { s.part.link l with
            watchdog := { (s.part.link l).watchdog with timer := (s.part.link l).watchdog.timer.map (· - 1) } })
        ∧ t.part.ctl = { s.part.ctl with powerGoodTimer := s.part.ctl.powerGoodTimer.map (· - 1) }
        ∧ t.part.codes = s.part.codes
        ∧ ∀ i, i ∈ t.pending ↔ t.part.RunOut i)

/-- No command stops the part, and none touches the queue of waiting commands. -/
def Claims.EveryCommandGivesANextState : Prop := ∀ (c : Instr) (s : State), Gives c s fun _ => True

/-- Together: Claims.StepTakesTheFrontCommand, Claims.EveryCommandGivesANextState. -/
def Obligations.EveryStepIsTheFrontCommandAndGoesOn : Prop :=
  Claims.StepTakesTheFrontCommand ∧ Claims.EveryCommandGivesANextState

/-- R27, R172: every request frame that a ready link takes is answered, whatever its tier and body. -/
def Claims.EveryTakenRequestIsAnswered : Prop :=
  ∀ (i : Instr) (r : Request) (s : State), i.request = some r → s.part.Ready r.link → r.body.length ≤ 240 →
    Gives i s fun q => ∃ code index data, q.Replied r.link r.kind code index data
      ∧ (code = .ok → index = 0xFF) ∧ (code ≠ .ok → data = []) ∧ code ≠ .late

/-- R26, R160, R164: a refused request changes nothing, no output of a drive port either, but what its frame does at its link,
and its reply. -/
def Claims.RefusedRequestChangesNothing : Prop :=
  ∀ (i : Instr) (r : Request) (s : State), i.request = some r → s.part.Ready r.link → r.body.length ≤ 240 →
    Gives i s fun q => ∀ code index data, q.Replied r.link r.kind code index data → code ≠ .ok →
      s.part.Refuses q r.link r.kind code index

/-- Together: Claims.EveryTakenRequestIsAnswered, Claims.RefusedRequestChangesNothing. -/
def Obligations.EveryTakenRequestIsAnsweredAndRefusalsChangeNothing : Prop :=
  Claims.EveryTakenRequestIsAnswered ∧ Claims.RefusedRequestChangesNothing

/-- R26, R28, R29, R188: FORMAT is judged on the body length alone, and then the tier field at RANGE, before anything else of
a request. -/
def Claims.FormatAndTierFieldComeFirst : Prop :=
  ∀ (i : Instr) (r : Request) (s : State), i.request = some r → s.part.Ready r.link → r.body.length ≤ 240 →
    knownKind r.kind = true →
    (¬FitsKind r.kind r.body → Gives i s fun q => s.part.Refuses q r.link r.kind .format 0xFF)
    ∧ (FitsKind r.kind r.body → 7 < r.tier.toNat → Gives i s fun q => s.part.Refuses q r.link r.kind .range 0xFF)

/-- R28: a kind code that is none of the part's requests is refused UNKNOWN, whatever its tier and body. A command that names a
known code so is no such event, and changes nothing (log 26, the model's choice). -/
def Claims.UnknownKindIsRefused : Prop :=
  ∀ (l : Link) (kind tier : Byte) (body : List Byte) (s : State), s.part.Ready l → body.length ≤ 240 →
    (kind ∉ requestKinds → Gives (.unknownKind l kind tier body) s fun q => s.part.Refuses q l kind .unknown 0xFF)
    ∧ (kind ∈ requestKinds → Gives (.unknownKind l kind tier body) s fun q => q = s.part)

/-- R169, R170: the frame assembler starts a frame at the sync byte, from ASSEMBLING too by log 2, and hunts again after a broken
or ignored frame, which has no other effect. -/
def Claims.FrameEventsMoveTheAssemblerAlone : Prop :=
  ∀ (l : Link) (s : State), s.part.ctl.held = false →
    (Gives (.frameStart l) s fun q => q = s.part.setLink l { s.part.link l with assembler := .assembling [] })
    ∧ ∀ i ∈ [Instr.frameCrcError l, .frameLengthError l, .frameGapTimeout l, .frameIgnored l],
        Gives i s fun q => q = s.part.setLink l { s.part.link l with assembler := .hunting }

/-- R169: a frame whose body is longer than 240 bytes is discarded: no reply, no watchdog restart, no overrun, whatever the link is
doing. -/
def Claims.LongFrameIsDiscarded : Prop :=
  ∀ (i : Instr) (l : Link) (body : List Byte) (s : State), s.part.ctl.held = false → 240 < body.length →
    ((∃ tier, i = .broadcastHalt l tier body) ∨ ∃ r, i.request = some r ∧ r.link = l ∧ r.body = body) →
    Gives i s fun q => s.part.Discards q l

/-- R169, R170, R186: what the bytes after a sync byte are: nothing while a byte is missing; a length error at a length byte
above 240; a CRC error with any other CRC bytes; and with the CRC of their fields a request for this rack, a broadcast HALT or
an ignored frame, by address. The request is that of the frame's kind, tier and body. -/
def Claims.FrameBytesAreJudged : Prop :=
  ∀ (rack : Fin 16) (l : Link) (address kind tier : Byte) (body : List Byte), body.length ≤ 240 →
    let fields := [address, byteOf body.length, kind, tier] ++ body
    (∀ n, n < (withCrc fields).length → frameCommand rack l ((withCrc fields).take n) = none)
    ∧ (∀ n rest, 240 < n.toNat → frameCommand rack l (address :: n :: rest) = some (.frameLengthError l))
    ∧ (∀ a b, fields ++ [a, b] ≠ withCrc fields → frameCommand rack l (fields ++ [a, b]) = some (.frameCrcError l))
    ∧ (address = byteOf rack.val → ∃ i, frameCommand rack l (withCrc fields) = some i ∧ i.wf = true
        ∧ (kind ∈ requestKinds → i.request = some ⟨l, kind, tier, body⟩)
        ∧ (kind ∉ requestKinds → i = .unknownKind l kind tier body))
    ∧ (address ≠ byteOf rack.val → address = 31 → kind = 0x05 →
        frameCommand rack l (withCrc fields) = some (.broadcastHalt l tier body))
    ∧ (address ≠ byteOf rack.val → address ≠ 31 ∨ kind ≠ 0x05 →
        frameCommand rack l (withCrc fields) = some (.frameIgnored l))

/-- R169: bytes that reach a link that is HUNTING. Bytes other than A5h are discarded. A5h and the bytes after it are held until
they make a frame; a frame that is discarded for its length byte or its CRC leaves the bytes that follow it to HUNTING; the
command of a whole frame is taken with the frame's last byte, and the bytes that follow come after it. In line reset every byte
is discarded. -/
def Claims.BytesAfterADiscardAreHunted : Prop :=
  ∀ (l : Link) (rest : List Byte) (s : State),
    (s.part.ctl.held = true → s.receive l rest = .next s)
    ∧ (s.part.ctl.held = false → (s.part.link l).assembler = .hunting →
      let holding := fun bytes => { s with part := s.part.setLink l { s.part.link l with assembler := .assembling bytes } }
      (∀ skipped, 0xA5 ∉ skipped → s.receive l (skipped ++ rest) = s.receive l rest)
      ∧ (∀ address n, 240 < n.toNat → s.receive l ([0xA5, address, n] ++ rest) = s.receive l rest)
      ∧ ∀ (address kind tier : Byte) (body : List Byte), body.length ≤ 240 →
        let fields := [address, byteOf body.length, kind, tier] ++ body
        (∀ a b, fields ++ [a, b] ≠ withCrc fields → s.receive l (0xA5 :: fields ++ [a, b] ++ rest) = s.receive l rest)
        ∧ (∀ n, n < (withCrc fields).length →
            s.receive l (0xA5 :: (withCrc fields).take n) = .next (holding ((withCrc fields).take n)))
        ∧ ∃ i t, frameCommand s.part.ctl.straps.rackId l (withCrc fields) = some i
            ∧ exec i (holding (withCrc fields).dropLast) = .next t ∧ (t.part.link l).assembler = .hunting
            ∧ s.receive l (0xA5 :: withCrc fields ++ rest) = t.receive l rest)

/-- Together: Claims.UnknownKindIsRefused, Claims.FrameEventsMoveTheAssemblerAlone, Claims.LongFrameIsDiscarded,
Claims.FrameBytesAreJudged, Claims.BytesAfterADiscardAreHunted. -/
def Obligations.FramesAndUnknownKindsHaveNoOtherEffect : Prop :=
  Claims.UnknownKindIsRefused ∧ Claims.FrameEventsMoveTheAssemblerAlone ∧ Claims.LongFrameIsDiscarded
    ∧ Claims.FrameBytesAreJudged ∧ Claims.BytesAfterADiscardAreHunted

/-- R170, R171: a frame for this rack that completes while its link is answering is taken by the link alone and discarded: the
overrun flag is set, for the reply after the one under way too (log 9), the watchdog restarts, and nothing else changes. -/
def Obligations.AnsweringLinkDiscardsFrame : Prop :=
  ∀ (i : Instr) (s : State) (l : Link),
    (i = .frameOverrun l ∨ (∃ tier body, i = .broadcastHalt l tier body ∧ body.length ≤ 240)
      ∨ ∃ r, i.request = some r ∧ r.link = l ∧ r.body.length ≤ 240) →
    s.part.ctl.held = false → (s.part.link l).answering.isSome = true →
    Gives i s fun q =>
      Kept s.part q [.channels, .ports, .groups, .queues, .clock, .tracks, .codes, .taken, .link l.other]
        ∧ q.link l = { s.part.link l with
            assembler := .hunting, watchdog := (s.part.link l).watchdog.restart, overrun := true, overrunSince := true }

/-- R166, R169: while a line reset holds the part, no frame, sample or timer reaches it; of samples and late commands the model
says so by its own choice (log 12). -/
def Claims.LineResetHoldsOffCommands : Prop :=
  ∀ (i : Instr) (s : State), s.part.ctl.held = true → i.heldOff = true →
    Gives i s fun q =>
      Kept s.part q [.channels, .samples, .groups, .queues, .clock, .tracks, .codes, .ctl, .link .a, .link .b]

/-! ### The laws -/

/-- R7: the output law is kept by every step. -/
def Obligations.StepKeepsOutputLaw : Prop :=
  ∀ s t : State, s.part.OutputLaw → step s = .next t → t.part.OutputLaw

/-- R151: the power law is kept by every step. -/
def Obligations.StepKeepsPowerLaw : Prop :=
  ∀ s t : State, s.part.PowerLaw → step s = .next t → t.part.PowerLaw

/-- R175: the attention law is kept by every step. -/
def Obligations.StepKeepsAttentionLaw : Prop :=
  ∀ s t : State, s.part.AttentionLaw → step s = .next t → t.part.AttentionLaw

/-- R114: the law of the cue queues is kept by every step. -/
def Obligations.StepKeepsQueueLaw : Prop :=
  ∀ s t : State, s.part.QueueLaw → step s = .next t → t.part.QueueLaw

/-- R135: the law of the tracks is kept by every step. -/
def Obligations.StepKeepsTrackLaw : Prop :=
  ∀ s t : State, s.part.TrackLaw → step s = .next t → t.part.TrackLaw

/-- R101: the law of the fault records is kept by every step. -/
def Obligations.StepKeepsRecordLaw : Prop :=
  ∀ s t : State, s.part.RecordLaw → step s = .next t → t.part.RecordLaw

/-- R47: the law of the lane lists is kept by every step, given the law of movers, owners and bound tracks. -/
def Obligations.StepKeepsLaneListLaw : Prop :=
  ∀ s t : State, s.part.LaneListLaw → s.part.OwnershipLaw → step s = .next t → t.part.LaneListLaw

/-- R8, R39, R68, R69, R136: the law of movers, owners, control periods and bound tracks is kept by every step, given the law of the lane lists. -/
def Obligations.StepKeepsOwnershipLaw : Prop :=
  ∀ s t : State, s.part.LaneListLaw → s.part.OwnershipLaw → step s = .next t → t.part.OwnershipLaw

/-- The laws hold after power-on reset. -/
def Obligations.LawsHoldAtReset : Prop :=
  State.reset.part.OutputLaw ∧ State.reset.part.PowerLaw ∧ State.reset.part.AttentionLaw ∧ State.reset.part.QueueLaw
    ∧ State.reset.part.TrackLaw ∧ State.reset.part.RecordLaw ∧ State.reset.part.LaneListLaw
    ∧ State.reset.part.OwnershipLaw

/-! ### Resets -/

/-- R24: power-on reset sets every channel record to its power-on values, whether or not the channel exists; every output is
safe, and the feedback timers of existing channels start at 50 ms. -/
def Obligations.PowerOnResetSetsEveryChannel : Prop :=
  ∀ (straps : Straps) (estop good : Bool) (s : State), Gives (.powerOnReset straps estop good) s fun q =>
    ∀ c, q.chan c =
        { kind := .absent
          config := { nominalSpeed := 40, jogSpeed := 20, softLower := 0, softUpper := 60000, wll := 1000
                      overloadPct := 125, underload := 20, watchBand := 50, guardTier := 7 }
          raw := 0, offset := 0, referenced := false, load := 0, upperOpen := false, lowerOpen := false
          driveFault := false, history := [], state := .absent, direction := none, demand := 0, confirmMark := none
          pendingRelease := none, rest := 0, settling := false, mover := .none, jog := none, owner := none, fault := none
          watchBaseline := none, statusSlot := none, positionSlot := none, releaseOnEnd := false, confirmTimer := none
          standstillTimer := none, settleTimer := none, reversalExtreme := none, watchArmed := false
          progressMark := none, progressTimer := .stopped }
      ∧ (q.port c).sample = { raw := 0, load := 0, upperOpen := false, lowerOpen := false, driveFault := false }
      ∧ (q.port c).output.brakeReleased = false ∧ (q.port c).output.run = false ∧ (q.port c).output.demand = 0
      ∧ (q.port c).feedbackTimer = if straps.sixteen = true ∨ c.val < 8 then some 50 else none

/-- R60: power-on reset sets every group record. -/
def Obligations.PowerOnResetSetsEveryGroup : Prop :=
  ∀ (straps : Straps) (estop good : Bool) (s : State), Gives (.powerOnReset straps estop good) s fun q =>
    ∀ g, q.group g =
      { state := .empty, lanes := [], syncWindow := 50, levelLimit := 200, loadTolerance := 25, lateGrace := 0
        boundTrack := none, move := none, held := false, fault := none, controlTimer := none }
      ∧ ∀ c, (q.chan c).kind = .absent

/-- R133: every reset leaves every cue queue empty, and the cues lost raise no event. -/
def Obligations.EveryResetEmptiesTheQueues : Prop :=
  ∀ (i : Instr) (s : State) (cause : ResetCause), TakesReset i s cause → Gives i s fun q =>
    ∀ g, q.queue g = { cues := [], blocked := false, arming := .none, dwellTimer := none } ∧ q.codes.groups[g] = none

/-- R134: every reset empties both tracks, no group is bound after it, and the play lost raises no event. -/
def Obligations.EveryResetEmptiesTheTracks : Prop :=
  ∀ (i : Instr) (s : State) (cause : ResetCause), TakesReset i s cause → Gives i s fun q =>
    (∀ t, q.track t =
        { state := .empty, waypoints := [], owner := none, bound := [], playing := [], arrived := []
          origins := Vector.replicate 8 none, current := none, closing := false, tier := none, segmentTimer := none
          starvationTimer := none }
      ∧ q.codes.tracks[t] = none)
    ∧ ∀ g, (q.group g).boundTrack = none

/-- R25, R61, R108, R129, R171, R175: what a line or command reset does. The fault record is filtered, configuration, reference
and live values are kept, and every configured channel settles from its latest raw count; groups keep their definitions; the
clock keeps its value and stops; the link interfaces keep period and report enables. Channels that do not exist keep their
records (R1), and are ABSENT. Every watch baseline goes, and is taken anew at the end of a reset that leaves the device PARKED
(R110). -/
def Obligations.LineAndCommandResetKeepWhatTheyKeep : Prop :=
  ∀ (i : Instr) (s : State) (cause : ResetCause), TakesReset i s cause → cause ≠ .powerOn → Gives i s fun q =>
    (∀ c,
      (q.port c).output.brakeReleased = false ∧ (q.port c).output.run = false ∧ (q.port c).output.demand = 0
      ∧ (q.port c).sample = (s.part.port c).sample
      ∧ (s.part.hasChan c = false →
          q.chan c = { s.part.chan c with watchBaseline := (q.chan c).watchBaseline }
          ∧ ((s.part.chan c).kind = .absent → q.chan c = s.part.chan c))
      ∧ (s.part.hasChan c = true →
          (q.chan c).kind = (s.part.chan c).kind ∧ (q.chan c).config = (s.part.chan c).config
          ∧ (q.chan c).raw = (s.part.chan c).raw ∧ (q.chan c).offset = (s.part.chan c).offset
          ∧ (q.chan c).referenced = (s.part.chan c).referenced ∧ (q.chan c).load = (s.part.chan c).load
          ∧ (q.chan c).upperOpen = (s.part.chan c).upperOpen ∧ (q.chan c).lowerOpen = (s.part.chan c).lowerOpen
          ∧ (q.chan c).driveFault = (s.part.chan c).driveFault
          ∧ (q.chan c).history = [] ∧ (q.chan c).direction = none ∧ (q.chan c).demand = 0
          ∧ (q.chan c).confirmMark = none ∧ (q.chan c).pendingRelease = none ∧ (q.chan c).jog = none
          ∧ (q.chan c).mover = .none ∧ (q.chan c).owner = none ∧ (q.chan c).statusSlot = none
          ∧ (q.chan c).positionSlot = none ∧ (q.chan c).confirmTimer = none ∧ (q.chan c).standstillTimer = none
          ∧ (q.chan c).releaseOnEnd = false ∧ (q.chan c).reversalExtreme = none ∧ (q.chan c).watchArmed = false
          ∧ (q.chan c).progressMark = none ∧ (q.chan c).progressTimer = .stopped
          ∧ (q.chan c).watchBaseline =
              (if q.ctl.held = false ∧ q.ctl.mode = .parked ∧ (s.part.chan c).kind ≠ .absent then some (s.part.chan c).load
               else none)
          ∧ ((s.part.chan c).fault = none → (q.chan c).fault = none)
          ∧ (∀ r, (s.part.chan c).fault = some r →
              (r.first ∈ [FaultKind.overload, .reversed, .runaway, .finalLimit] →
                (q.chan c).fault = some { r with
                  further := r.further.filter fun k => k ∈ [FaultKind.overload, .reversed, .runaway, .finalLimit] })
              ∧ (r.first ∉ [FaultKind.overload, .reversed, .runaway, .finalLimit] → (q.chan c).fault = none))
          ∧ ((s.part.chan c).kind = .absent → (q.chan c).state = .absent)
          ∧ ((s.part.chan c).kind ≠ .absent →
              (q.chan c).state = (if (q.chan c).fault.isSome then .faulted else .idle)
              ∧ (q.chan c).settling = true ∧ (q.chan c).rest = (s.part.chan c).raw)))
    ∧ (∀ g,
        q.group g = { s.part.group g with
          state := if (s.part.group g).state = .empty then .empty else .idle
          move := none, held := false, fault := none, boundTrack := none, controlTimer := none })
    ∧ q.clock = { s.part.clock with running := false }
    ∧ (∀ l, (q.link l).assembler = .hunting ∧ (q.link l).answering = none ∧ (q.link l).overrun = false
        ∧ (q.link l).lastLink = none ∧ (q.link l).reports = (s.part.link l).reports
        ∧ (q.link l).watchdog.period = (s.part.link l).watchdog.period)
    ∧ q.ctl.straps = s.part.ctl.straps ∧ q.ctl.wakes = s.part.ctl.wakes ∧ q.ctl.silenceDisarm = false

/-- R166: while the RESET input is asserted main power is off and no timer runs. -/
def Claims.LineResetHoldsPowerOffAndTimersStopped : Prop :=
  ∀ (s : State), s.part.ctl.held = false → Gives .lineResetAssert s fun q =>
    q.ctl.held = true ∧ q.ctl.mainPower = false ∧ q.ctl.mode = s.part.ctl.mode ∧ q.ctl.powerGoodTimer = none
    ∧ (∀ c, (q.port c).feedbackTimer = none ∧ (s.part.hasChan c = true → (q.chan c).settleTimer = none))
    ∧ (∀ g, (q.group g).controlTimer = none ∧ (q.queue g).dwellTimer = none)
    ∧ (∀ t, (q.track t).segmentTimer = none ∧ (q.track t).starvationTimer = none)
    ∧ ∀ l, (q.link l).watchdog.timer = none ∧ (q.link l).pending = [] ∧ (q.link l).attention = false

/-- Together: Claims.LineResetHoldsOffCommands, Claims.LineResetHoldsPowerOffAndTimersStopped. -/
def Obligations.LineResetHoldsThePart : Prop :=
  Claims.LineResetHoldsOffCommands ∧ Claims.LineResetHoldsPowerOffAndTimersStopped

/-- R167, R151, R4, R16, R110, 8.6: how the end of a reset establishes the mode, for the release of a line reset, a command
reset and a power-on reset. In PARKED the watch baselines are taken anew. That a power-on reset establishes the mode at once
where a line reset held the part, and ends that hold, is the model's choice (log 30). -/
def Obligations.ResetEstablishesTheMode : Prop :=
  ∀ (i : Instr) (s : State) (cause : ResetCause) (old : DeviceMode) (stop good kept : Bool),
    (i = .lineResetRelease ∧ s.part.ctl.held = true ∧ cause = .line ∧ old = s.part.ctl.mode ∧ stop = s.part.ctl.estop
        ∧ good = s.part.ctl.powerGood ∧ kept = s.part.deviceFault.isSome ∧ s.part.ctl.mainPower = false
        ∧ s.part.ctl.powerGoodTimer = none
      ∨ i = .commandReset ∧ s.part.ctl.resetDue = true ∧ cause = .command ∧ old = s.part.ctl.mode
        ∧ stop = s.part.ctl.estop ∧ good = s.part.ctl.powerGood ∧ kept = s.part.takeReset.deviceFault.isSome
      ∨ (∃ straps, i = .powerOnReset straps stop good) ∧ cause = .powerOn ∧ old = .parked ∧ kept = false) →
    Gives i s fun q =>
      q.ctl.mode = (if stop = true ∨ kept = true then .halted
        else if cause ≠ .powerOn ∧ old = .parked then .parked else .standby)
      ∧ q.ctl.mainPower = (q.ctl.mode == .standby)
      ∧ q.ctl.powerGoodTimer = (if q.ctl.mode = .standby ∧ good = false then some 100 else none)
      ∧ q.ctl.resetCause = cause ∧ q.ctl.fromParked = (cause != .powerOn && old == .parked) ∧ q.ctl.held = false
      ∧ q.codes.mode = some (.modeChange q.ctl.mode old .reset)
      ∧ (∀ c, q.hasChan c = true → (q.port c).feedbackTimer = some 50
          ∧ ((q.chan c).settling = true → (q.chan c).settleTimer = some 2000)
          ∧ (q.ctl.mode = .parked → (q.chan c).kind ≠ .absent → (q.chan c).watchBaseline = some (q.chan c).load))
      ∧ ∀ l, ((q.link l).reports.mode = true → NoticePair.mode ∈ (q.link l).pending ∧ (q.link l).attention = true)
        ∧ ((q.link l).watchdog.period ≠ 0 →
            (q.link l).watchdog.state = .running ∧ (q.link l).watchdog.timer = some (q.link l).watchdog.period)
        ∧ ((q.link l).watchdog.period = 0 → (q.link l).watchdog.state = .off ∧ (q.link l).watchdog.timer = none)

/-- R166, R171: the last byte of a reply. The link stops answering; the overrun flag stays only if a frame was discarded since
the reply was composed (log 9). The last byte of the RESET reply takes the command reset. -/
def Claims.ReplySentEndsAnswering : Prop :=
  ∀ (l : Link) (s : State), (s.part.link l).answering.isSome = true →
    ((s.part.ctl.resetDue = false ∨ l = .b) → Gives (.replySent l) s fun q =>
      Kept s.part q [.channels, .samples, .groups, .queues, .clock, .tracks, .codes, .ctl, .link l.other]
        ∧ q.link l = { s.part.link l with
            answering := none, overrun := (s.part.link l).overrunSince, overrunSince := false })
    ∧ (s.part.ctl.resetDue = true → l = .a → Gives (.replySent l) s fun q =>
      (q.link .a).answering = none ∧ (q.link .b).answering = none ∧ q.ctl.resetCause = .command ∧ q.ctl.resetDue = false)

/-- R166, R34: RESET is accepted at effective tier 0 alone, and schedules the command reset for the end of its reply. -/
def Claims.ResetRequestSchedulesTheReset : Prop :=
  ∀ (l : Link) (tier : Byte) (s : State), s.part.Ready l → tier.toNat ≤ 7 →
    (s.part.effectiveTier l tier = 0 → Gives (.reset l tier []) s fun q =>
      q.link l = s.part.replyLink q l 0x07 .ok 0xFF []
        ∧ q.ctl = { s.part.ctl with silenceDisarm := false, resetDue := true }
        ∧ Kept s.part q [.channels, .ports, .groups, .queues, .clock, .tracks, .codes, .link l.other])
    ∧ (s.part.effectiveTier l tier ≠ 0 → Gives (.reset l tier []) s fun q => s.part.Refuses q l 0x07 .tier 0xFF)

/-- Together: Claims.ReplySentEndsAnswering, Claims.ResetRequestSchedulesTheReset. -/
def Obligations.ReplySentEndsAnsweringAndResetIsScheduled : Prop :=
  Claims.ReplySentEndsAnswering ∧ Claims.ResetRequestSchedulesTheReset

/-! ### Links -/

/-- R32: the effective tier is the larger of the tier field and the link's floor: 0 for Link A, 1 or 3 by strap for Link B. -/
def Claims.EffectiveTierIsAtLeastTheFloor : Prop :=
  ∀ (p : Part) (tier : Byte),
    p.effectiveTier .a tier = tier.toNat
      ∧ p.effectiveTier .b tier = max tier.toNat (if p.ctl.straps.floorThree then 3 else 1)

/-- Together: Claims.FormatAndTierFieldComeFirst, Claims.EffectiveTierIsAtLeastTheFloor. -/
def Obligations.AdmissionBeginsWithFormatAndTierField : Prop :=
  Claims.FormatAndTierFieldComeFirst ∧ Claims.EffectiveTierIsAtLeastTheFloor

/-- R173: IDENTIFY. -/
def Obligations.IdentifyAnswersWithTheRecord : Prop :=
  ∀ (l : Link) (tier : Byte) (s : State), s.part.Ready l →
    (tier.toNat ≤ 7 → Gives (.identify l tier []) s fun q =>
      s.part.Answers q l 0x01
        [0x0A, 0x4B, 0x04, 0x16, 0x01, byteOf s.part.ctl.straps.rackId.val, if s.part.ctl.straps.sixteen then 16 else 8,
         if s.part.ctl.straps.lockout then 1 else 0, if s.part.ctl.straps.floorThree then 3 else 1,
         match s.part.ctl.resetCause with
         | .powerOn => 1
         | .line => 2
         | .command => 3,
         if s.part.ctl.fromParked then 1 else 0, if s.part.ctl.straps.sixteen then 16 else 8, if l = .a then 1 else 2]
        [.channels, .ports, .groups, .queues, .clock, .tracks, .codes])
    ∧ (7 < tier.toNat → Gives (.identify l tier []) s fun q => s.part.Refuses q l 0x01 .range 0xFF)

/-- R176, R190: HEARTBEAT delivers the pending pair that comes first in its order, with its last event and its summary as
things stand, and takes it out of the set; with nothing pending it carries the mode and a count of 0. -/
def Obligations.HeartbeatDeliversTheFirstPair : Prop :=
  ∀ (l : Link) (tier : Byte) (s : State), s.part.Ready l → tier.toNat ≤ 7 →
    ((s.part.link l).pending = [] → Gives (.heartbeat l tier []) s fun q =>
      s.part.Answers q l 0x02 [modeCode s.part.ctl.mode, 0]
        [.channels, .ports, .groups, .queues, .clock, .tracks, .codes])
    ∧ ∀ pair ∈ (s.part.link l).pending, (∀ r ∈ (s.part.link l).pending, pair.rank ≤ r.rank) →
      Gives (.heartbeat l tier []) s fun q =>
        let left := (s.part.link l).pending.filter fun r => r != pair
        q.link l = { s.part.replyLink q l 0x02 .ok 0xFF
            ([modeCode s.part.ctl.mode, byteOf left.length, sourceCode pair, pairIndex pair]
              ++ eventBytes (s.part.lastEvent l pair) ++ s.part.summary l pair) with
          pending := left, attention := !left.isEmpty }
        ∧ Kept s.part q [.channels, .ports, .groups, .queues, .clock, .tracks, .codes, .taken, .link l.other]

/-- R161: SET_WATCHDOG. -/
def Claims.SetWatchdogSetsThePeriod : Prop :=
  ∀ (l : Link) (tier h lo : Byte) (s : State), s.part.Ready l → tier.toNat ≤ 7 →
    let n := h.toNat * 256 + lo.toNat
    (n ≠ 0 → n < 100 ∨ 5000 < n → Gives (.setWatchdog l tier [h, lo]) s fun q => s.part.Refuses q l 0x03 .range 0xFF)
    ∧ (n = 0 → s.part.ctl.mode = .armed →
        Gives (.setWatchdog l tier [h, lo]) s fun q => s.part.Refuses q l 0x03 .mode 0xFF)
    ∧ (n = 0 ∧ s.part.ctl.mode ≠ .armed ∨ 100 ≤ n ∧ n ≤ 5000 → Gives (.setWatchdog l tier [h, lo]) s fun q =>
        q.link l = { s.part.replyLink q l 0x03 .ok 0xFF [h, lo] with
          watchdog := if n = 0 then { period := 0, state := .off, timer := none }
            else { period := n, state := .running, timer := some n } }
        ∧ Kept s.part q [.channels, .ports, .groups, .queues, .clock, .tracks, .codes, .taken, .link l.other])

/-- R177: SET_NOTICES replaces the link's report enables and the device's wake enables, and takes the pairs of sources turned
off out of the link's pending set. -/
def Claims.SetNoticesReplacesTheEnables : Prop :=
  ∀ (l : Link) (tier r w : Byte) (s : State), s.part.Ready l → tier.toNat ≤ 7 →
    (w.getLsbD 0 = true → Gives (.setNotices l tier [r, w]) s fun q => s.part.Refuses q l 0x08 .range 0xFF)
    ∧ (w.getLsbD 0 = false → enablesOf w ≠ s.part.ctl.wakes → 1 < s.part.effectiveTier l tier →
        Gives (.setNotices l tier [r, w]) s fun q => s.part.Refuses q l 0x08 .tier 0xFF)
    ∧ (w.getLsbD 0 = false → enablesOf w = s.part.ctl.wakes ∨ s.part.effectiveTier l tier ≤ 1 →
        Gives (.setNotices l tier [r, w]) s fun q =>
          let left := (s.part.link l).pending.filter (enablesOf r).has
          q.link l = { s.part.replyLink q l 0x08 .ok 0xFF [r &&& 0x3F, w &&& 0x3F] with
            reports := enablesOf r, pending := left, attention := !left.isEmpty }
          ∧ q.ctl = { s.part.ctl with silenceDisarm := false, wakes := enablesOf w }
          ∧ Kept s.part q [.channels, .ports, .groups, .queues, .clock, .tracks, .codes, .link l.other])

/-- Together: Claims.SetWatchdogSetsThePeriod, Claims.SetNoticesReplacesTheEnables. -/
def Obligations.SetWatchdogAndSetNotices : Prop :=
  Claims.SetWatchdogSetsThePeriod ∧ Claims.SetNoticesReplacesTheEnables

/-- R174, R175, R159, R151, R110: raising an event writes its code, and adds its pair once to the pending set of each link whose
report enable of the source is set. While PARKED it wakes the device when its wake enable is set, unless it is exempt: the
device goes to STANDBY with main power on and without watch baselines, and MODE is raised with the waking source. -/
def Obligations.RaisedEventReachesBothLinks : Prop :=
  ∀ (p : Part) (pair : NoticePair) (e : Event) (l m : Link), pair ≠ .link →
    (p.raise pair e).lastEvent m pair = some e
    ∧ ((p.raise pair e).ctl.mode ≠ p.ctl.mode ↔
      p.ctl.mode = .parked ∧ p.ctl.wakes.has pair = true ∧ pair ≠ .mode
        ∧ ¬∃ c k, pair = .channelFault c ∧ e = .fault k ∧ (k = .runaway ∨ k = .finalLimit))
    ∧ ((p.raise pair e).ctl.mode ≠ p.ctl.mode →
        (p.raise pair e).ctl.mode = .standby ∧ (p.raise pair e).ctl.mainPower = true
          ∧ (p.raise pair e).codes.mode = some (.modeChange .standby .parked (.wake pair))
          ∧ (∀ c, ((p.raise pair e).chan c).watchBaseline = none)
          ∧ ((p.link l).reports.has pair = false → (p.link l).reports.mode = false → (p.raise pair e).link l = p.link l)
          ∧ ((p.link l).reports.has pair = true ∨ (p.link l).reports.mode = true →
              ((p.raise pair e).link l).attention = true)
          ∧ (pair ∈ (p.link l).pending → NoticePair.mode ∈ (p.link l).pending →
              ((p.raise pair e).link l).pending = (p.link l).pending)
          ∧ ∀ r, r ∈ ((p.raise pair e).link l).pending ↔
              r ∈ (p.link l).pending ∨ r = pair ∧ (p.link l).reports.has pair = true
                ∨ r = .mode ∧ (p.link l).reports.mode = true)
    ∧ ((p.raise pair e).ctl.mode = p.ctl.mode →
        ((p.link l).reports.has pair = false → (p.raise pair e).link l = p.link l)
        ∧ ((p.link l).reports.has pair = true → ((p.raise pair e).link l).attention = true
            ∧ (pair ∈ (p.link l).pending → ((p.raise pair e).link l).pending = (p.link l).pending))
        ∧ ∀ r, r ∈ ((p.raise pair e).link l).pending ↔
            r ∈ (p.link l).pending ∨ r = pair ∧ (p.link l).reports.has pair = true)

/-- R162 to R164, R83, R23: link silence. Groups and jogs that the link set moving stop, its claims go now or when the mover
ends, LINK is raised on the other link, and with no link left watching and no mover an ARMED device becomes STANDBY. -/
def Claims.WatchdogExpiryStopsAndReleases : Prop :=
  ∀ (l : Link) (s : State), s.part.ctl.held = false → (s.part.link l).watchdog.timer = some 0 →
    Gives (.watchdogExpiry l) s fun q =>
      (q.link l).watchdog = { (s.part.link l).watchdog with state := .expired, timer := none }
      ∧ (q.link l.other).watchdog = (s.part.link l.other).watchdog
      ∧ (q.link l.other).lastLink = some .linkSilent
      ∧ ((s.part.link l.other).reports.link = true → NoticePair.link ∈ (q.link l.other).pending)
      ∧ (q.link l).lastLink = (s.part.link l).lastLink
      ∧ (∀ c, (q.chan c).mover ≠ .jog l
          ∧ ((s.part.chan c).owner = some l → (s.part.chan c).mover = .none → (q.chan c).owner = none)
          ∧ ((q.chan c).owner = some l → (q.chan c).releaseOnEnd = true)
          ∧ ((s.part.chan c).owner = some l.other → (s.part.chan c).releaseOnEnd = false →
              (q.chan c).owner = some l.other))
      ∧ (∀ g m, (s.part.group g).move = some m → m.origin = l → (q.group g).active = false)
      ∧ (∀ g, q.queue g = s.part.queue g)
      ∧ (s.part.ctl.mode = .armed → (s.part.link l.other).watchdog.state ≠ .running →
          (∀ c, (s.part.chan c).mover = .none) →
            q.ctl.mode = .standby ∧ q.ctl.silenceDisarm = false
              ∧ q.codes.mode = some (.modeChange .standby .armed .silence))
      ∧ (s.part.ctl.mode = .armed → (s.part.link l.other).watchdog.state ≠ .running →
          (∃ c, (q.chan c).mover ≠ .none) → q.ctl.mode = .armed ∧ q.ctl.silenceDisarm = true)
      ∧ (s.part.ctl.mode = .armed → (s.part.link l.other).watchdog.state = .running → s.part.ctl.silenceDisarm = false →
          q.ctl = s.part.ctl)
      ∧ (s.part.ctl.mode = .parked → s.part.ctl.wakes.link = true → q.ctl.mode = .standby)

/-- R81 to R83, R149, R162: link silence at the groups. A PREPARING or RUNNING group whose move has the silent link as origin
enters STOPPING with reason SILENCE, its running channels stopped; one whose channels are all at rest leaves STOPPING in the
same taking, a cue move to HELD and a track move to IDLE. Held and faulted moves, groups already STOPPING and the moves of the
other link stand. A closing track with more groups than one is left out, whose end the order of its groups decides (log 34). -/
def Claims.SilenceStopsTheMovesOfTheLink : Prop :=
  ∀ (l : Link) (g : Grp) (s : State), s.part.ctl.held = false → (s.part.link l).watchdog.timer = some 0 →
    (∀ t, g ∈ (s.part.track t).playing → (s.part.track t).closing = false ∨ (s.part.track t).playing = [g]) →
    Gives (.watchdogExpiry l) s fun q =>
      ((s.part.group g).active = false → q.group g = s.part.group g)
      ∧ ∀ m, (s.part.group g).active = true → (s.part.group g).move = some m →
        (m.origin ≠ l → q.group g = s.part.group g)
        ∧ (m.origin = l →
          let silenced : MoveRecord := { m with reason := some .silence }
          (s.part.Underway g → q.group g = { s.part.group g with
              state := .stopping, controlTimer := none, move := some silenced })
          ∧ (∀ ln ∈ (s.part.group g).lanes, (q.chan ln.channel).state ≠ .starting ∧ (q.chan ln.channel).state ≠ .moving
              ∧ (q.port ln.channel).output.brakeReleased = false ∧ (q.port ln.channel).output.run = false)
          ∧ (s.part.OwnershipLaw → ¬s.part.Underway g →
              (∀ n, m.source = .cue n → q.codes.groups[g] = some .groupHeld ∧ q.group g = { s.part.group g with
                state := .held, held := true, controlTimer := none, move := some silenced })
              ∧ (∀ t, m.source = .track t → q.codes.groups[g] = s.part.codes.groups[g]
                ∧ q.group g = { s.part.group g with state := .idle, controlTimer := none, move := none })))

/-- R145, R149: link silence at a track whose playing groups all have the silent link as origin and all their channels at rest. They
leave the play, the last of them abandons it with TRACK_STOPPED, and the origins, the waypoints and the owner link stay; of a
closing track with one group left too (log 18), and the stored tier by log 19. -/
def Claims.SilenceAbandonsThePlay : Prop :=
  ∀ (l : Link) (t : Trk) (s : State), s.part.ctl.held = false → (s.part.link l).watchdog.timer = some 0 →
    s.part.OwnershipLaw → (s.part.track t).state = .playing ∨ (s.part.track t).state = .starved →
    (s.part.track t).playing ≠ [] → (s.part.track t).playing.Nodup →
    (s.part.track t).closing = false ∨ (s.part.track t).playing.length = 1 →
    (∀ g ∈ (s.part.track t).arrived, g ∈ (s.part.track t).playing) →
    (∀ g ∈ (s.part.track t).playing, (s.part.group g).active = true ∧ ¬s.part.Underway g
      ∧ (s.part.group g).move.map (fun m => (m.source, m.origin)) = some (.track t, l)) →
    Gives (.watchdogExpiry l) s fun q =>
      q.track t = { (s.part.track t).abandoned with playing := [], arrived := [] }
      ∧ q.codes.tracks[t] = some .trackStopped

/-- Together: Claims.WatchdogExpiryStopsAndReleases, Claims.SilenceStopsTheMovesOfTheLink, Claims.SilenceAbandonsThePlay. -/
def Obligations.WatchdogExpiryIsLinkSilence : Prop :=
  Claims.WatchdogExpiryStopsAndReleases ∧ Claims.SilenceStopsTheMovesOfTheLink ∧ Claims.SilenceAbandonsThePlay

/-! ### Modes -/

/-- R151 to R154: SET_MODE. An accepted change takes main power, the power-good timer and the watch baselines with it and
raises MODE; to the mode in force it changes nothing. -/
def Claims.SetModeChangesTheMode : Prop :=
  ∀ (l : Link) (tier : Byte) (target : DeviceMode) (s : State), s.part.Ready l → tier.toNat ≤ 7 → s.part.PowerLaw →
    s.part.MayTakeMode target →
    (target = s.part.ctl.mode → Gives (.setMode l tier [modeCode target]) s fun q =>
      s.part.Answers q l 0x04 [modeCode target] [.channels, .samples, .groups, .queues, .clock, .tracks, .codes])
    ∧ (target ≠ s.part.ctl.mode → Gives (.setMode l tier [modeCode target]) s fun q =>
      q.ctl = { s.part.ctl with
          silenceDisarm := false, mode := target, mainPower := target != .parked
          powerGoodTimer := if target = .parked then none
            else if s.part.ctl.mode = .parked then (if s.part.ctl.powerGood then none else some 100)
            else s.part.ctl.powerGoodTimer }
      ∧ q.codes = { s.part.codes with mode := some (.modeChange target s.part.ctl.mode .request) }
      ∧ q.link l = (s.part.replyLink q l 0x04 .ok 0xFF [modeCode target]).offer .mode
      ∧ q.link l.other = (s.part.link l.other).offer .mode
      ∧ (∀ c, q.chan c =
          if target = .parked then
            { s.part.chan c with
              watchBaseline := if (s.part.chan c).kind = .absent then (s.part.chan c).watchBaseline
                else some (s.part.chan c).load }
          else if s.part.ctl.mode = .parked then { s.part.chan c with watchBaseline := none }
          else s.part.chan c)
      ∧ Kept s.part q [.samples, .groups, .queues, .clock, .tracks])

/-- R153: what SET_MODE refuses: an unknown target at RANGE, a pair of modes at MODE, and at STATE the inputs, a recorded
DEVICE fault and a mover, the lowest channel named. -/
def Claims.SetModeRefusals : Prop :=
  ∀ (l : Link) (tier b : Byte) (s : State), s.part.Ready l → tier.toNat ≤ 7 →
    (2 < b.toNat → Gives (.setMode l tier [b]) s fun q => s.part.Refuses q l 0x04 .range 0xFF)
    ∧ (b.toNat ≤ 2 → s.part.ctl.mode = .halted → Gives (.setMode l tier [b]) s fun q => s.part.Refuses q l 0x04 .mode 0xFF)
    ∧ (b = 2 → s.part.ctl.mode = .parked → Gives (.setMode l tier [b]) s fun q => s.part.Refuses q l 0x04 .mode 0xFF)
    ∧ (b = 0 → s.part.ctl.mode = .armed → Gives (.setMode l tier [b]) s fun q => s.part.Refuses q l 0x04 .mode 0xFF)
    ∧ (b = 2 → s.part.ctl.mode = .standby →
        (s.part.ctl.straps.lockout = true → Gives (.setMode l tier [b]) s fun q => s.part.Refuses q l 0x04 .mode 0xFF)
        ∧ (s.part.ctl.straps.lockout = false →
            (s.part.ctl.estop = true ∨ s.part.ctl.powerGood = false →
              Gives (.setMode l tier [b]) s fun q => s.part.Refuses q l 0x04 .state 0xFF)
            ∧ (s.part.ctl.estop = false → s.part.ctl.powerGood = true → ∀ c,
                ((s.part.chan c).holdsFault .runaway = true ∨ (s.part.chan c).holdsFault .finalLimit = true) →
                (∀ d, d < c → (s.part.chan d).holdsFault .runaway = false
                  ∧ (s.part.chan d).holdsFault .finalLimit = false) →
                Gives (.setMode l tier [b]) s fun q => s.part.Refuses q l 0x04 .state (byteOf c.val))))
    ∧ (b = 1 → s.part.ctl.mode = .armed → ∀ c, (s.part.chan c).mover ≠ .none →
        (∀ d, d < c → (s.part.chan d).mover = .none) →
        Gives (.setMode l tier [b]) s fun q => s.part.Refuses q l 0x04 .state (byteOf c.val))

/-- Together: Claims.SetModeChangesTheMode, Claims.SetModeRefusals. -/
def Obligations.SetModeFollowsTheTable : Prop :=
  Claims.SetModeChangesTheMode ∧ Claims.SetModeRefusals

/-- R151, R155 to R157, R83, R127, R149: a halt, taken in any mode but HALTED on a HALT, a broadcast HALT, the assertion of the
emergency-stop input or the power-good timer. Main power goes, every output is safe, and every block that holds motion winds
down; cues, waypoints, fault records and the clock are kept. -/
def Claims.HaltStopsEveryBlock : Prop :=
  ∀ (i : Instr) (cause : ModeCause) (s : State), s.part.ctl.held = false → s.part.ctl.mode ≠ .halted →
    TakesHalt i s cause →
    Gives i s fun q =>
      q.ctl = { s.part.ctl with
          mode := .halted, mainPower := false, powerGoodTimer := none, silenceDisarm := false
          estop := s.part.ctl.estop || i == .emergencyStopAssert }
      ∧ q.codes.mode = some (.modeChange .halted s.part.ctl.mode cause)
      ∧ q.clock = s.part.clock
      ∧ (∀ c,
          (q.port c).output.brakeReleased = false ∧ (q.port c).output.run = false ∧ (q.port c).output.demand = 0
          ∧ (∀ k, (q.chan c).mover ≠ .jog k)
          ∧ (q.chan c).fault = (s.part.chan c).fault ∧ (q.chan c).config = (s.part.chan c).config
          ∧ ((s.part.chan c).releaseOnEnd = false → (q.chan c).owner = (s.part.chan c).owner)
          ∧ (s.part.ctl.mode = .parked → (q.chan c).watchBaseline = none))
      ∧ (∀ g,
          (q.group g).active = false ∧ (q.group g).lanes = (s.part.group g).lanes
          ∧ ((s.part.group g).state = .empty ∨ (s.part.group g).state = .idle ∨ (s.part.group g).state = .held
              ∨ (s.part.group g).state = .faulted → q.group g = s.part.group g)
          ∧ q.queue g = { cues := (s.part.queue g).cues, blocked := !(s.part.queue g).cues.isEmpty
                          arming := .none, dwellTimer := none })
      ∧ (∀ t, (q.track t).state ≠ .playing ∧ (q.track t).state ≠ .starved
          ∧ (q.track t).waypoints = (s.part.track t).waypoints ∧ (q.track t).owner = (s.part.track t).owner
          ∧ (q.track t).bound = (s.part.track t).bound)
      ∧ (∀ l tier, i = .halt l tier [] → q.Accepted l 0x05 [modeCode .halted])
      ∧ (∀ l tier, i = .broadcastHalt l tier [] → (q.link l).answering = none)

/-- R81 to R83, R155: a halt at the groups. A PREPARING or RUNNING group enters STOPPING with reason HALT, its running channels
stopped; one whose channels are all at rest leaves STOPPING in the same taking, a cue move to HELD and a track move to IDLE.
A group that plays takes its track's stop, with reason REQUEST, or the halt, whichever comes first (R149; log 6). Every
other group stands as it was. -/
def Claims.HaltStopsTheMoves : Prop :=
  ∀ (i : Instr) (cause : ModeCause) (g : Grp) (s : State), s.part.ctl.held = false → s.part.ctl.mode ≠ .halted →
    TakesHalt i s cause →
    Gives i s fun q =>
      ((s.part.group g).active = false → q.group g = s.part.group g)
      ∧ ∀ m, (s.part.group g).active = true → (s.part.group g).move = some m →
        let stopped := fun r : StopReason => q.group g = { s.part.group g with
          state := .stopping, controlTimer := none, move := some { m with reason := some r } }
        (∀ ln ∈ (s.part.group g).lanes, (q.chan ln.channel).state ≠ .starting ∧ (q.chan ln.channel).state ≠ .moving)
        ∧ ((∀ t, g ∉ (s.part.track t).playing) →
          (s.part.Underway g → stopped .halt)
          ∧ (s.part.OwnershipLaw → ¬s.part.Underway g → ∀ n, m.source = .cue n →
              q.codes.groups[g] = some .groupHeld ∧ q.group g = { s.part.group g with
                state := .held, held := true, controlTimer := none, move := some { m with reason := some .halt } }))
        ∧ ((∀ t, g ∈ (s.part.track t).playing → (s.part.track t).closing = false ∨ (s.part.track t).playing = [g]) →
          (s.part.Underway g → stopped .halt ∨ stopped .request)
          ∧ (s.part.OwnershipLaw → ¬s.part.Underway g → ∀ t, m.source = .track t →
              q.codes.groups[g] = s.part.codes.groups[g]
              ∧ q.group g = { s.part.group g with state := .idle, controlTimer := none, move := none }))

/-- R148, R149, R155: a halt at the tracks. A PLAYING or STARVED track is LOADED or EMPTY by its list, with nothing left of its
play, and TRACK_STOPPED is raised. A track that was closing may raise TRACK_ENDED instead where it had more groups than one and
one takes the halt first, since the rest may have arrived (R145, log 6); with one playing group that takes the halt first it
raises TRACK_STOPPED all the same by log 18. What is left of the stored tier follows the order too (log 19). These three are
the model's. A track that does not play loses its origin records, and raises nothing. -/
def Claims.HaltEndsThePlays : Prop :=
  ∀ (i : Instr) (cause : ModeCause) (t : Trk) (s : State), s.part.ctl.held = false → s.part.ctl.mode ≠ .halted →
    TakesHalt i s cause →
    Gives i s fun q =>
      ((s.part.track t).state = .playing ∨ (s.part.track t).state = .starved →
        (∀ g ∈ (s.part.track t).arrived, g ∈ (s.part.track t).playing) →
        q.track t = { (s.part.track t).ended with tier := (q.track t).tier }
        ∧ ((∃ g ∈ (s.part.track t).playing, s.part.Underway g) → (q.track t).tier = none)
        ∧ ((s.part.track t).closing = false ∨ (∃ g, (s.part.track t).playing = [g]) →
            q.codes.tracks[t] = some .trackStopped)
        ∧ (q.codes.tracks[t] = some .trackStopped ∨ q.codes.tracks[t] = some .trackEnded))
      ∧ ((s.part.track t).state = .empty ∨ (s.part.track t).state = .loaded → (s.part.track t).playing = [] →
        q.track t = { s.part.track t with origins := Vector.replicate 8 none }
        ∧ q.codes.tracks[t] = s.part.codes.tracks[t])

/-- R170, R188, R29, R160: a broadcast HALT that FORMAT or RANGE refuses, for a body or for a tier field above 7, is taken and
not answered: its link's watchdog restarts and a pending silence disarm is cleared, and there is no halt. -/
def Claims.RefusedBroadcastHaltsNothing : Prop :=
  ∀ (l : Link) (tier : Byte) (body : List Byte) (s : State), s.part.Ready l → body.length ≤ 240 →
    body ≠ [] ∨ 7 < tier.toNat →
    Gives (.broadcastHalt l tier body) s fun q =>
      Kept s.part q [.channels, .samples, .groups, .queues, .clock, .tracks, .codes, .taken, .link l.other]
        ∧ q.link l = { s.part.link l with assembler := .hunting, watchdog := (s.part.link l).watchdog.restart }
        ∧ (s.part.OutputLaw → Kept s.part q [.ports])

/-- Together: Claims.HaltStopsEveryBlock, Claims.HaltStopsTheMoves, Claims.HaltEndsThePlays,
Claims.RefusedBroadcastHaltsNothing. -/
def Obligations.HaltTakesEverythingDown : Prop :=
  Claims.HaltStopsEveryBlock ∧ Claims.HaltStopsTheMoves ∧ Claims.HaltEndsThePlays ∧ Claims.RefusedBroadcastHaltsNothing

/-- R155 to R157: a halt taken while HALTED changes nothing but its frame's effects, or the level of the input. -/
def Claims.HaltInHaltedChangesNothing : Prop :=
  ∀ (l : Link) (tier : Byte) (s : State), s.part.Ready l → tier.toNat ≤ 7 → s.part.ctl.mode = .halted →
    (Gives (.halt l tier []) s fun q =>
      s.part.Answers q l 0x05 [modeCode .halted] [.channels, .samples, .groups, .queues, .clock, .tracks, .codes])
    ∧ (Gives (.broadcastHalt l tier []) s fun q =>
      Kept s.part q [.channels, .samples, .groups, .queues, .clock, .tracks, .codes, .taken, .link l.other]
        ∧ q.link l = { s.part.link l with assembler := .hunting, watchdog := (s.part.link l).watchdog.restart })
    ∧ (Gives .emergencyStopAssert s fun q =>
      Kept s.part q [.channels, .samples, .groups, .queues, .clock, .tracks, .codes, .link .a, .link .b]
        ∧ q.ctl = { s.part.ctl with estop := true })

/-- R152, R156: the levels of the inputs. Losing power-good while main power is on starts the 100 ms timer; its return stops it;
release of the emergency-stop input changes no mode. -/
def Claims.InputLevelsAreRecorded : Prop :=
  ∀ (s : State),
    (Gives .emergencyStopRelease s fun q => q = { s.part with ctl := { s.part.ctl with estop := false } })
    ∧ (Gives .powerGoodPresent s fun q =>
        q = { s.part with ctl := { s.part.ctl with powerGood := true, powerGoodTimer := none } })
    ∧ (s.part.ctl.powerGood = true → s.part.ctl.mainPower = true → Gives .powerGoodAbsent s fun q =>
        q = { s.part with ctl := { s.part.ctl with powerGood := false, powerGoodTimer := some 100 } })
    ∧ (s.part.ctl.powerGood = false ∨ s.part.ctl.mainPower = false → Gives .powerGoodAbsent s fun q =>
        q = { s.part with ctl := { s.part.ctl with powerGood := false } })

/-- Together: Claims.HaltInHaltedChangesNothing, Claims.InputLevelsAreRecorded. -/
def Obligations.InputLevelsAndHaltsInHaltedChangeNoMode : Prop :=
  Claims.HaltInHaltedChangesNothing ∧ Claims.InputLevelsAreRecorded

/-- R158: RESUME takes the device from HALTED to STANDBY when the emergency stop is released, no DEVICE fault is recorded and
every configured channel is at rest; what it refuses, and with which index. -/
def Obligations.ResumeReturnsToStandby : Prop :=
  ∀ (l : Link) (tier : Byte) (s : State), s.part.Ready l → tier.toNat ≤ 7 → s.part.PowerLaw →
    let moving := fun c => (s.part.chan c).kind ≠ .absent ∧
      ((s.part.chan c).state ∈ [ChannelState.starting, .moving, .stopping]
        ∨ ¬∃ x y z, (s.part.chan c).history = [x, y, z] ∧ max x (max y z) - min x (min y z) ≤ 2)
    (s.part.ctl.mode ≠ .halted → Gives (.resume l tier []) s fun q => s.part.Refuses q l 0x06 .mode 0xFF)
    ∧ (s.part.ctl.mode = .halted →
        (s.part.ctl.estop = true → Gives (.resume l tier []) s fun q => s.part.Refuses q l 0x06 .state 0xFF)
        ∧ (s.part.ctl.estop = false → ∀ c,
            ((s.part.chan c).holdsFault .runaway = true ∨ (s.part.chan c).holdsFault .finalLimit = true) →
            (∀ d, d < c → (s.part.chan d).holdsFault .runaway = false ∧ (s.part.chan d).holdsFault .finalLimit = false) →
            Gives (.resume l tier []) s fun q => s.part.Refuses q l 0x06 .state (byteOf c.val))
        ∧ (s.part.ctl.estop = false → s.part.Sound → ∀ c, moving c → (∀ d, d < c → ¬moving d) →
            Gives (.resume l tier []) s fun q => s.part.Refuses q l 0x06 .state (byteOf c.val))
        ∧ (s.part.ctl.estop = false → s.part.Sound → (∀ c, ¬moving c) → Gives (.resume l tier []) s fun q =>
            q.ctl = { s.part.ctl with
              mode := .standby, mainPower := true, silenceDisarm := false
              powerGoodTimer := if s.part.ctl.powerGood then none else some 100 }
            ∧ q.codes = { s.part.codes with mode := some (.modeChange .standby .halted .resume) }
            ∧ q.link l = (s.part.replyLink q l 0x06 .ok 0xFF [modeCode .standby]).offer .mode
            ∧ q.link l.other = (s.part.link l.other).offer .mode
            ∧ Kept s.part q [.channels, .samples, .groups, .queues, .clock, .tracks]))

/-! ### Channels -/

/-- R18, R19: CONFIGURE_CHANNEL. A channel leaves ABSENT for IDLE and settles; one taken to ABSENT loses its reference; the latch
slots are emptied. -/
def Claims.ConfigureChannelWritesTheRecord : Prop :=
  ∀ (l : Link) (tier : Byte) (c : Chan) (k : ChannelKind) (cfg : ChannelConfig) (s : State),
    s.part.Ready l → tier.toNat ≤ 7 → cfg.Legal → s.part.hasChan c = true → s.part.SetUp →
    s.part.effectiveTier l tier ≤ 1 → (s.part.chan c).Lets (s.part.effectiveTier l tier) →
    (s.part.chan c).owner ≠ some l.other → (s.part.chan c).mover = .none →
    (s.part.chan c).state ∈ [ChannelState.idle, .faulted, .absent] →
    (k = .absent → (s.part.chan c).fault = none ∧
      ∀ g, (s.part.group g).state ≠ .empty → ∀ ln ∈ (s.part.group g).lanes, ln.channel ≠ c) →
    (k = .fixedSpeed → ∀ g, (s.part.group g).state ≠ .empty → ∀ ln ∈ (s.part.group g).lanes, ln.channel = c →
      ln.ratio = 0 ∨ 8 ≤ ln.ratio) →
    Gives (.configureChannel l tier (configureBody c k cfg)) s fun q =>
      s.part.Answers q l 0x10 [] [.samples, .groups, .queues, .clock, .tracks, .codes]
      ∧ (∀ d, d ≠ c → q.chan d = s.part.chan d)
      ∧ let x : Channel := { s.part.chan c with kind := k, config := cfg, statusSlot := none, positionSlot := none }
        q.chan c =
          if (s.part.chan c).state = .absent ∧ k ≠ .absent then
            { x with
              state := .idle, rest := x.raw, settling := true, settleTimer := some 2000
              watchBaseline := if s.part.ctl.mode = .parked then some x.load else x.watchBaseline }
          else if (s.part.chan c).state ≠ .absent ∧ k = .absent then
            { x with
              state := .absent, offset := 0, referenced := false, watchBaseline := none, settling := false
              settleTimer := none }
          else x

/-- R20: SET_POSITION references an IDLE channel without a mover: the position then is the one given. -/
def Claims.SetPositionReferencesTheChannel : Prop :=
  ∀ (l : Link) (tier h lo : Byte) (c : Chan) (s : State), s.part.Ready l → tier.toNat ≤ 7 → s.part.hasChan c = true →
    let n := h.toNat * 256 + lo.toNat
    n ≤ 60000 → s.part.SetUp → s.part.effectiveTier l tier ≤ 1 → (s.part.chan c).Lets (s.part.effectiveTier l tier) →
    (s.part.chan c).owner ≠ some l.other → (s.part.chan c).state = .idle → (s.part.chan c).mover = .none →
    Gives (.setPosition l tier [byteOf c.val, h, lo]) s fun q =>
      s.part.Answers q l 0x11 [] [.ports, .groups, .queues, .clock, .tracks, .codes]
      ∧ (∀ d, d ≠ c → q.chan d = s.part.chan d)
      ∧ q.chan c = { s.part.chan c with
          offset := n - (s.part.chan c).raw, referenced := true, statusSlot := none, positionSlot := none }
      ∧ (q.chan c).position = some (n : Int)

/-- Together: Claims.ConfigureChannelWritesTheRecord, Claims.SetPositionReferencesTheChannel. -/
def Obligations.ConfigureAndSetPositionWriteTheRecord : Prop :=
  Claims.ConfigureChannelWritesTheRecord ∧ Claims.SetPositionReferencesTheChannel

/-- R40: CLAIM takes every unowned member of a span, all or nothing; with a member of the other link's it is refused CLAIM. -/
def Claims.ClaimTakesTheSpan : Prop :=
  ∀ (l : Link) (tier : Byte) (f e : Chan) (s : State), s.part.Ready l → tier.toNat ≤ 7 → s.part.hasChan f = true →
    s.part.hasChan e = true → (∀ c, InSpan f e c → (s.part.chan c).Lets (s.part.effectiveTier l tier)) →
    ((∀ c, InSpan f e c → (s.part.chan c).owner ≠ some l.other) →
      Gives (.claim l tier [byteOf f.val, byteOf e.val]) s fun q =>
        s.part.Answers q l 0x12
          [byteOf (allChans.countP fun c => decide (f ≤ c ∧ c ≤ e ∧ (s.part.chan c).owner = none))]
          [.ports, .groups, .queues, .clock, .tracks, .codes]
        ∧ ∀ c, q.chan c = if f ≤ c ∧ c ≤ e ∧ (s.part.chan c).owner = none then
            { s.part.chan c with owner := some l } else s.part.chan c)
    ∧ ∀ c, InSpan f e c → (s.part.chan c).owner = some l.other →
        (∀ d, f ≤ d → d < c → (s.part.chan d).owner ≠ some l.other) →
        Gives (.claim l tier [byteOf f.val, byteOf e.val]) s fun q => s.part.Refuses q l 0x12 .claim (byteOf c.val)

/-- R41, R42: RELEASE gives up the requester's claims in a span, and with FORCE, at effective tier 0 alone, every claim; a member
with a mover refuses it STATE. -/
def Claims.ReleaseGivesUpClaims : Prop :=
  ∀ (l : Link) (tier : Byte) (f e : Chan) (force : Bool) (s : State), s.part.Ready l → tier.toNat ≤ 7 →
    s.part.hasChan f = true → s.part.hasChan e = true →
    let i : Instr := if force then .releaseForce l tier [byteOf f.val, byteOf e.val, 1]
      else .release l tier [byteOf f.val, byteOf e.val, 0]
    let gone := s.part.Gone l force f e
    (force = true → s.part.effectiveTier l tier ≠ 0 → Gives i s fun q => s.part.Refuses q l 0x13 .tier 0xFF)
    ∧ ((force = true → s.part.effectiveTier l tier = 0) →
      (∀ c, InSpan f e c → (s.part.chan c).Lets (s.part.effectiveTier l tier)) →
      ((∀ c, gone c → (s.part.chan c).mover = .none) → Gives i s fun q =>
        s.part.Answers q l 0x13 [byteOf (allChans.countP fun c => decide (gone c))]
          [.ports, .groups, .queues, .clock, .tracks, .codes]
        ∧ ∀ c, q.chan c = if gone c then { s.part.chan c with owner := none } else s.part.chan c)
      ∧ ∀ c, gone c → (s.part.chan c).mover ≠ .none → (∀ d, d < c → gone d → (s.part.chan d).mover = .none) →
          Gives i s fun q => s.part.Refuses q l 0x13 .state (byteOf c.val))

/-- Together: Claims.ClaimTakesTheSpan, Claims.ReleaseGivesUpClaims. -/
def Obligations.ClaimTakesAndReleaseGivesUp : Prop :=
  Claims.ClaimTakesTheSpan ∧ Claims.ReleaseGivesUpClaims

/-- R21, R22: JOG starts a jog on an IDLE channel, with its lease, its speed and its released port. -/
def Claims.JogStartsTheChannel : Prop :=
  ∀ (l : Link) (tier : Byte) (c : Chan) (d : Dir) (s : State), s.part.Ready l → tier.toNat ≤ 7 → s.part.hasChan c = true →
    s.part.ctl.mode = .armed → (s.part.chan c).Lets (s.part.effectiveTier l tier) → (s.part.chan c).owner = some l →
    (s.part.chan c).state = .idle → (s.part.chan c).mover = .none →
    ((s.part.chan c).referenced = true →
      if d = .up then (s.part.chan c).pos < (s.part.chan c).config.softUpper
      else ((s.part.chan c).config.softLower : Int) < (s.part.chan c).pos) →
    Gives (.jog l tier [byteOf c.val, if d = .up then 1 else 2]) s fun q =>
      let x := s.part.chan c
      let slow := if x.referenced then x.config.jogSpeed else min x.config.jogSpeed (x.config.nominalSpeed / 4)
      let demand := if x.kind = .variableSpeed then min slow x.config.nominalSpeed else 0
      s.part.Answers q l 0x14 [1] [.samples, .groups, .queues, .clock, .tracks, .codes]
      ∧ (∀ e, e ≠ c → q.chan e = s.part.chan e)
      ∧ q.chan c = { x with
          mover := .jog l, jog := some { direction := d, lease := 300 }, state := .starting, direction := some d
          demand := demand, confirmMark := some x.raw, confirmTimer := some 600, pendingRelease := none
          reversalExtreme := some x.raw, settling := false, settleTimer := none, watchArmed := true
          progressMark := none, progressTimer := .stopped }
      ∧ (q.port c).output = { brakeReleased := true, run := true, direction := d, demand := demand }

/-- R21, R31, R33, R35: what JOG is refused for, each check after those before it: RANGE for the channel and the direction code,
MODE, TIER, CLAIM, STATE and LIMIT at or beyond the soft limit in the direction, with the channel as index. That TIER judges the
kept guard tier of an ABSENT channel too is the model's choice (log 35). -/
def Claims.JogRefusals : Prop :=
  ∀ (l : Link) (tier b k : Byte) (c : Chan) (s : State), s.part.Ready l → tier.toNat ≤ 7 → s.part.hasChan c = true →
    let x := s.part.chan c
    let refused := fun code index => Gives (.jog l tier [byteOf c.val, k]) s fun q => s.part.Refuses q l 0x14 code index
    (s.part.chanCount ≤ b.toNat → Gives (.jog l tier [b, k]) s fun q => s.part.Refuses q l 0x14 .range b)
    ∧ (2 < k.toNat → refused .range (byteOf c.val))
    ∧ (k.toNat ≤ 2 → s.part.ctl.mode ≠ .armed → refused .mode 0xFF)
    ∧ (k.toNat ≤ 2 → s.part.ctl.mode = .armed →
      (¬x.Lets (s.part.effectiveTier l tier) → refused .tier (byteOf c.val))
      ∧ (x.Lets (s.part.effectiveTier l tier) →
        (x.owner ≠ some l → refused .claim (byteOf c.val))
        ∧ (x.owner = some l →
          (∀ g, x.mover = .group g → refused .state (byteOf c.val))
          ∧ (x.mover = .none → k ≠ 0 → x.state ≠ .idle → refused .state (byteOf c.val))
          ∧ (x.mover = .none → x.state = .idle → x.referenced = true →
              k = 1 ∧ (x.config.softUpper : Int) ≤ x.pos ∨ k = 2 ∧ x.pos ≤ x.config.softLower →
              refused .limit (byteOf c.val)))))

/-- Together: Claims.JogStartsTheChannel, Claims.JogRefusals. -/
def Obligations.JogStarts : Prop := Claims.JogStartsTheChannel ∧ Claims.JogRefusals

/-- R21, R23: JOG on a jogging channel renews the lease in the same direction and ends the jog in the other or with NONE; NONE
on a channel without a mover changes nothing; a channel that a group moves refuses it STATE. -/
def Claims.JogRenewsOrEnds : Prop :=
  ∀ (l m : Link) (tier b : Byte) (c : Chan) (j : JogRecord) (s : State), s.part.Ready l → tier.toNat ≤ 7 →
    s.part.hasChan c = true → s.part.ctl.mode = .armed → (s.part.chan c).Lets (s.part.effectiveTier l tier) →
    (s.part.chan c).owner = some l →
    (b = 0 → (s.part.chan c).mover = .none → Gives (.jog l tier [byteOf c.val, b]) s fun q =>
      s.part.Answers q l 0x14 [0] [.channels, .samples, .groups, .queues, .clock, .tracks, .codes])
    ∧ (∀ g, b.toNat ≤ 2 → (s.part.chan c).mover = .group g →
        Gives (.jog l tier [byteOf c.val, b]) s fun q => s.part.Refuses q l 0x14 .state (byteOf c.val))
    ∧ ((s.part.chan c).mover = .jog m → (s.part.chan c).jog = some j →
        (b = (if j.direction = .up then 1 else 2) → Gives (.jog l tier [byteOf c.val, b]) s fun q =>
          s.part.Answers q l 0x14 [2] [.samples, .groups, .queues, .clock, .tracks, .codes]
          ∧ (∀ e, e ≠ c → q.chan e = s.part.chan e)
          ∧ q.chan c = { s.part.chan c with jog := some { j with lease := 300 } })
        ∧ (b.toNat ≤ 2 → b ≠ (if j.direction = .up then 1 else 2) →
            (s.part.chan c).state = .starting ∨ (s.part.chan c).state = .moving →
            Gives (.jog l tier [byteOf c.val, b]) s fun q =>
              s.part.Answers q l 0x14 [3] [.samples, .groups, .queues, .clock, .tracks, .codes]
              ∧ (∀ e, e ≠ c → q.chan e = s.part.chan e) ∧ q.chan c = (s.part.chan c).jogEnded
              ∧ (q.port c).output.brakeReleased = false ∧ (q.port c).output.run = false))

/-- R23, R164: the lease of a jog runs out, and the jog ends. With the silence-disarm flag set and no mover left the device
goes from ARMED to STANDBY. The progress watch goes with the mover (log 20, the model's choice). -/
def Claims.JogLeaseExpiryEndsTheJog : Prop :=
  ∀ (c : Chan) (s : State), s.part.ctl.held = false → (s.part.chan c).jog.map (·.lease) = some 0 →
    (s.part.chan c).state = .starting ∨ (s.part.chan c).state = .moving →
    Gives (.jogLeaseExpiry c) s fun q =>
      q.chan c = (s.part.chan c).jogEnded ∧ (∀ e, e ≠ c → q.chan e = s.part.chan e)
      ∧ (q.port c).output.brakeReleased = false ∧ (q.port c).output.run = false
      ∧ Kept s.part q [.samples, .groups, .queues, .clock, .tracks]
      ∧ (s.part.ctl.silenceDisarm = false → Kept s.part q [.ctl, .codes, .link .a, .link .b])
      ∧ (s.part.ctl.silenceDisarm = true → s.part.ctl.mode = .armed →
          ((∀ e, e ≠ c → (s.part.chan e).mover = .none) → q.ctl.mode = .standby ∧ q.ctl.silenceDisarm = false
            ∧ q.codes.mode = some (.modeChange .standby .armed .silence))
          ∧ ((∃ e, e ≠ c ∧ (s.part.chan e).mover ≠ .none) → q.ctl = s.part.ctl))

/-- R22, R23: a sample at or beyond the soft limit in the direction of a jog on a REFERENCED channel ends it. No other channel,
group or queue changes, and no fault is recorded. -/
def Claims.SoftLimitEndsTheJog : Prop :=
  ∀ (c : Chan) (y : Sample) (j : JogRecord) (l : Link) (s : State), s.part.ctl.held = false → s.part.hasChan c = true →
    (s.part.chan c).kind ≠ .absent → (s.part.chan c).state = .starting ∨ (s.part.chan c).state = .moving →
    (s.part.chan c).mover = .jog l → (s.part.chan c).jog = some j → (s.part.chan c).referenced = true →
    (if j.direction = .up then (s.part.chan c).config.softUpper ≤ y.raw + (s.part.chan c).offset
      else y.raw + (s.part.chan c).offset ≤ (s.part.chan c).config.softLower) →
    y.upperOpen = false → y.lowerOpen = false → y.driveFault = false →
    100 * min y.load 9999 ≤ (s.part.chan c).config.wll * (s.part.chan c).config.overloadPct →
    (s.part.chan c).watchBaseline = none →
    Gives (.feedbackArrival c y) s fun q =>
      (q.chan c).state = .stopping ∧ (q.chan c).mover = .none ∧ (q.chan c).jog = none
      ∧ (q.chan c).standstillTimer = some 2000 ∧ (q.chan c).direction = none ∧ (q.chan c).fault = (s.part.chan c).fault
      ∧ (q.chan c).owner = (if (s.part.chan c).releaseOnEnd then none else (s.part.chan c).owner)
      ∧ (q.port c).output.brakeReleased = false ∧ (q.port c).output.run = false
      ∧ (∀ e, e ≠ c → (q.chan e).state = (s.part.chan e).state ∧ (q.chan e).mover = (s.part.chan e).mover)
      ∧ Kept s.part q [.groups, .queues, .clock, .tracks]

/-- Together: Claims.JogRenewsOrEnds, Claims.JogLeaseExpiryEndsTheJog, Claims.SoftLimitEndsTheJog. -/
def Obligations.JogRenewsAndEnds : Prop :=
  Claims.JogRenewsOrEnds ∧ Claims.JogLeaseExpiryEndsTheJog ∧ Claims.SoftLimitEndsTheJog

/-- R104 to R106, R17: CLEAR_FAULT on a span discards the records of its members, when every kind of each can be cleared. -/
def Claims.ClearFaultClearsTheSpan : Prop :=
  ∀ (l : Link) (tier : Byte) (f e : Chan) (s : State), s.part.Ready l → tier.toNat ≤ 7 → s.part.hasChan f = true →
    s.part.hasChan e = true →
    (∀ c, InSpan f e c →
      (s.part.chan c).Lets (s.part.effectiveTier l tier) ∧ (s.part.chan c).owner ≠ some l.other
      ∧ (1 < s.part.effectiveTier l tier →
          (s.part.chan c).holdsFault .reversed = false ∧ (s.part.chan c).holdsFault .runaway = false)) →
    ((∀ c r, InSpan f e c → (s.part.chan c).fault = some r →
        (s.part.chan c).state ≠ .stopping ∧ ∀ k ∈ r.first :: r.further, s.part.CanClear c k) →
      Gives (.clearFaultSpan l tier [0, byteOf f.val, byteOf e.val]) s fun q =>
        s.part.Answers q l 0x15
          [byteOf (allChans.countP fun c => decide (f ≤ c ∧ c ≤ e ∧ (s.part.chan c).fault ≠ none))]
          [.samples, .groups, .queues, .clock, .tracks, .codes]
        ∧ ∀ c, q.chan c =
            let x := s.part.chan c
            if f ≤ c ∧ c ≤ e ∧ x.fault ≠ none then
              { x with
                fault := none, rest := if x.holdsFault .runaway then x.raw else x.rest
                state := if x.state ≠ .faulted then x.state else if x.mover = .none then .idle else .holding }
            else x)
    ∧ ∀ c r, InSpan f e c → (s.part.chan c).fault = some r →
        ((s.part.chan c).state = .stopping ∨ ∃ k ∈ r.first :: r.further, ¬s.part.CanClear c k) →
        (∀ d, f ≤ d → d < c → (s.part.chan d).fault = none) →
        Gives (.clearFaultSpan l tier [0, byteOf f.val, byteOf e.val]) s fun q =>
          s.part.Refuses q l 0x15 .state (byteOf c.val)

/-- R4, R5 step 1, R1: a feedback arrival. The port takes the sample with its load capped and restarts its timer; an existing
channel takes the live values; one that does not exist is left alone. -/
def Claims.FeedbackArrivalIsTaken : Prop :=
  ∀ (c : Chan) (y : Sample) (s : State), s.part.ctl.held = false →
    Gives (.feedbackArrival c y) s fun q =>
      (q.port c).sample = { y with load := min y.load 9999 } ∧ (q.port c).arrivedSinceLoss = true
      ∧ (s.part.hasChan c = false → (q.port c).feedbackTimer = (s.part.port c).feedbackTimer
          ∧ Kept s.part q [.channels, .groups, .queues, .clock, .tracks, .codes, .ctl, .link .a, .link .b])
      ∧ (s.part.hasChan c = true → (q.port c).feedbackTimer = some 50
          ∧ (q.chan c).raw = y.raw ∧ (q.chan c).load = min y.load 9999 ∧ (q.chan c).upperOpen = y.upperOpen
          ∧ (q.chan c).lowerOpen = y.lowerOpen ∧ (q.chan c).driveFault = y.driveFault
          ∧ (q.chan c).offset = (s.part.chan c).offset ∧ (q.chan c).config = (s.part.chan c).config
          ∧ ((s.part.chan c).kind = .absent → q.chan c = { s.part.chan c with
              raw := y.raw, load := min y.load 9999, upperOpen := y.upperOpen, lowerOpen := y.lowerOpen
              driveFault := y.driveFault, history := (y.raw :: (s.part.chan c).history).take 3 }))

/-- R5, R13, R14, R16, R93 to R98: a calm sample of a configured channel at rest changes nothing but the live values, and ends
settling at a standstill. -/
def Claims.CalmSampleAtRestChangesNoState : Prop :=
  ∀ (c : Chan) (y : Sample) (s : State), s.part.ctl.held = false → s.part.hasChan c = true →
    (s.part.chan c).kind ≠ .absent → (s.part.chan c).state ∈ [ChannelState.idle, .holding, .faulted] →
    (s.part.chan c).Calm y → (s.part.chan c).direction = none → (s.part.chan c).mover = .none →
    (s.part.chan c).jog = none → (s.part.chan c).watchBaseline = none →
    Gives (.feedbackArrival c y) s fun q =>
      let h := (y.raw :: (s.part.chan c).history).take 3
      let ends := (s.part.chan c).settling && atStandstill h
      q.chan c = { s.part.chan c with
        raw := y.raw, load := min y.load 9999, upperOpen := false, lowerOpen := false, driveFault := false, history := h
        rest := if ends then y.raw else (s.part.chan c).rest
        settling := (s.part.chan c).settling && !ends
        settleTimer := if ends then none else (s.part.chan c).settleTimer }
      ∧ (∀ e, e ≠ c → q.chan e = s.part.chan e)
      ∧ Kept s.part q [.groups, .queues, .clock, .tracks, .codes, .ctl, .link .a, .link .b]

/-- R111, R110, R159: a sample of a channel that holds a watch baseline. A load farther from it than the watch band raises
LOAD_WATCH with the load, whatever fault the same sample detects. On a calm sample in PARKED the baseline is then retaken
from that load, or, with the wake enable of the source set, the device wakes and no baseline is left; a load within the band
changes neither baseline nor event. Either way no record, state or mover changes. -/
def Claims.LoadWatchJudgesTheBaseline : Prop :=
  ∀ (c : Chan) (y : Sample) (b : Nat) (s : State), s.part.ctl.held = false → s.part.hasChan c = true →
    (s.part.chan c).kind ≠ .absent → (s.part.chan c).watchBaseline = some b →
    let load := min y.load 9999
    let left := (s.part.chan c).config.watchBand < ((load : Int) - b).natAbs
    Gives (.feedbackArrival c y) s fun q =>
      q.codes.watches[c] = (if left then some (.loadWatch load) else s.part.codes.watches[c])
      ∧ (left → ∀ l, (s.part.link l).reports.loadWatch = true → NoticePair.loadWatch c ∈ (q.link l).pending)
      ∧ ((s.part.chan c).state ∈ [ChannelState.idle, .faulted] → (s.part.chan c).Calm y → (s.part.chan c).direction = none →
          (s.part.chan c).mover = .none → (s.part.chan c).jog = none → s.part.ctl.mode = .parked →
          (q.chan c).state = (s.part.chan c).state ∧ (q.chan c).fault = (s.part.chan c).fault
          ∧ (q.chan c).mover = .none ∧ Kept s.part q [.groups, .queues, .clock, .tracks]
          ∧ (¬left → (q.chan c).watchBaseline = some b ∧ Kept s.part q [.ctl, .codes, .link .a, .link .b])
          ∧ (left → s.part.ctl.wakes.loadWatch = false → (q.chan c).watchBaseline = some load ∧ q.ctl = s.part.ctl)
          ∧ (left → s.part.ctl.wakes.loadWatch = true → (q.chan c).watchBaseline = none ∧ q.ctl.mode = .standby
              ∧ q.codes.mode = some (.modeChange .standby .parked (.wake (.loadWatch c)))))

/-- Together: Claims.FeedbackArrivalIsTaken, Claims.CalmSampleAtRestChangesNoState, Claims.LoadWatchJudgesTheBaseline. -/
def Obligations.FeedbackArrivalUpdatesTheChannel : Prop :=
  Claims.FeedbackArrivalIsTaken ∧ Claims.CalmSampleAtRestChangesNoState ∧ Claims.LoadWatchJudgesTheBaseline

/-- R11, R98: a calm sample 3 mm beyond the confirm mark in the commanded direction puts a STARTING channel in MOVING, starts an
armed progress watch, and sets the lane's confirmed marker in its group's move. -/
def Claims.MotionConfirmPutsInMoving : Prop :=
  ∀ (c : Chan) (y : Sample) (d : Dir) (mark : Int) (s : State), s.part.ctl.held = false → s.part.hasChan c = true →
    (s.part.chan c).kind ≠ .absent → (s.part.chan c).state = .starting → (s.part.chan c).direction = some d →
    (s.part.chan c).confirmMark = some mark → (if d = .up then 3 ≤ y.raw - mark else 3 ≤ mark - y.raw) →
    (s.part.chan c).Calm y → (s.part.chan c).settling = false →
    (∀ j, (s.part.chan c).jog = some j → (s.part.chan c).referenced = false ∨
      if j.direction = .up then y.raw + (s.part.chan c).offset < (s.part.chan c).config.softUpper
      else ((s.part.chan c).config.softLower : Int) < y.raw + (s.part.chan c).offset) →
    (s.part.chan c).watchBaseline = none → (s.part.chan c).progressTimer = .stopped →
    (∀ g, (s.part.chan c).mover = .group g → (s.part.group g).state ≠ .stopping) →
    Gives (.feedbackArrival c y) s fun q =>
      (q.chan c).state = .moving ∧ (q.chan c).direction = some d ∧ (q.chan c).confirmTimer = none
      ∧ (q.chan c).confirmMark = none ∧ (q.chan c).fault = (s.part.chan c).fault
      ∧ ((s.part.chan c).watchArmed = true →
          (q.chan c).progressMark = some y.raw ∧ (q.chan c).progressTimer = .running 600)
      ∧ (∀ e, e ≠ c → q.chan e = s.part.chan e)
      ∧ (∀ g m, (s.part.chan c).mover = .group g → (s.part.group g).move = some m →
          (q.group g).move = some { m with
            lanes := ((s.part.group g).lanes.zip m.lanes).map fun lr =>
              if lr.1.channel = c then { lr.2 with confirmed := true } else lr.2 })
      ∧ (∀ g, (s.part.chan c).mover ≠ .group g → q.group g = s.part.group g)
      ∧ Kept s.part q [.queues, .clock, .tracks, .codes, .ctl, .link .a, .link .b]

/-- R13, R14: three counts within 2 mm end a channel's STOPPING: FAULTED with a fault record, else STARTING with a pending
release, else HOLDING with a mover, else IDLE. The rest position is taken, and a STOPPING group that awaits another of its
channels goes on STOPPING. -/
def Claims.StandstillEndsStopping : Prop :=
  ∀ (c : Chan) (y : Sample) (a b : Int) (s : State), s.part.ctl.held = false → s.part.hasChan c = true →
    (s.part.chan c).kind ≠ .absent → (s.part.chan c).state = .stopping → (s.part.chan c).history.take 2 = [a, b] →
    max y.raw (max a b) - min y.raw (min a b) ≤ 2 →
    y.upperOpen = false → y.lowerOpen = false → y.driveFault = false →
    100 * min y.load 9999 ≤ (s.part.chan c).config.wll * (s.part.chan c).config.overloadPct →
    (s.part.chan c).config.underload ≤ min y.load 9999 → (s.part.chan c).direction = none →
    (s.part.chan c).confirmMark = none → (s.part.chan c).jog = none → (s.part.chan c).watchBaseline = none →
    (s.part.chan c).progressTimer = .stopped →
    s.part.Awaited c →
    Gives (.feedbackArrival c y) s fun q =>
      (q.chan c).rest = y.raw ∧ (q.chan c).standstillTimer = none
      ∧ (q.chan c).state =
          (if (s.part.chan c).fault.isSome then .faulted
           else if (s.part.chan c).pendingRelease.isSome then .starting
           else if (s.part.chan c).mover ≠ .none then .holding
           else .idle)
      ∧ (q.chan c).fault = (s.part.chan c).fault ∧ (q.chan c).mover = (s.part.chan c).mover
      ∧ (∀ r, (s.part.chan c).fault = none → (s.part.chan c).pendingRelease = some r →
          (q.chan c).direction = some r.direction ∧ (q.chan c).confirmMark = some y.raw
          ∧ (q.chan c).confirmTimer = some 600)
      ∧ (∀ e, e ≠ c → q.chan e = s.part.chan e)
      ∧ Kept s.part q [.groups, .queues, .clock, .tracks, .codes, .ctl, .link .a, .link .b]

/-- Together: Claims.MotionConfirmPutsInMoving, Claims.StandstillEndsStopping. -/
def Obligations.SamplesConfirmMotionAndEndStopping : Prop :=
  Claims.MotionConfirmPutsInMoving ∧ Claims.StandstillEndsStopping

/-- R17, R92, R95, R101 to R103, R155: a fault met by a sample of a configured channel without a mover is entered in its record,
faults an IDLE channel, and raises CHANNEL_FAULT; FINAL_LIMIT halts the device. -/
def Claims.SampleFaultAtRestIsRecorded : Prop :=
  ∀ (c : Chan) (y : Sample) (s : State), s.part.ctl.held = false → s.part.hasChan c = true →
    (s.part.chan c).kind ≠ .absent → (s.part.chan c).mover = .none → (s.part.chan c).jog = none →
    Gives (.feedbackArrival c y) s fun q =>
      (y.upperOpen = true ∨ y.lowerOpen = true → (q.chan c).holdsFault .finalLimit = true)
      ∧ (y.driveFault = true → (q.chan c).holdsFault .driveFault = true)
      ∧ ((s.part.chan c).config.wll * (s.part.chan c).config.overloadPct < 100 * min y.load 9999 →
          (q.chan c).holdsFault .overload = true)
      ∧ ((s.part.chan c).state = .idle → (s.part.chan c).fault = none →
          (q.chan c).fault.isSome = true → (q.chan c).state = .faulted)
      ∧ (∀ r, (s.part.chan c).fault = some r → ∃ r', (q.chan c).fault = some r' ∧ r'.first = r.first
          ∧ r'.position = r.position ∧ r'.load = r.load)
      ∧ (∀ k, (s.part.chan c).holdsFault k = true → (q.chan c).holdsFault k = true)
      ∧ ((q.chan c).fault ≠ (s.part.chan c).fault → ∃ k, q.codes.faults[c] = some (.fault k))
      ∧ ((s.part.chan c).holdsFault .finalLimit = false → y.upperOpen = true ∨ y.lowerOpen = true →
          q.ctl.mode = .halted
            ∧ (s.part.ctl.mode ≠ .halted → q.ctl.mainPower = false
              ∧ q.codes.mode = some (.modeChange .halted s.part.ctl.mode (.deviceFault c))))

/-- R97, R92, R155: a sample more than 20 mm from the rest position of a channel at rest that is not settling detects RUNAWAY, and
the device halts from the mode it was in. A fault of the same sample comes before the halt: it may wake a PARKED device, and
take an ARMED one to STANDBY where it ends a group's move with a silence disarm pending (R164). -/
def Claims.RunawayAtRestHalts : Prop :=
  ∀ (c : Chan) (y : Sample) (s : State), s.part.ctl.held = false → s.part.hasChan c = true →
    (s.part.chan c).kind ≠ .absent → (s.part.chan c).state ∈ [ChannelState.idle, .holding, .faulted] →
    (s.part.chan c).settling = false → (s.part.chan c).jog = none → 20 < (y.raw - (s.part.chan c).rest).natAbs →
    s.part.Awaited c →
    Gives (.feedbackArrival c y) s fun q =>
      (q.chan c).holdsFault .runaway = true
      ∧ ((s.part.chan c).holdsFault .runaway = false → q.ctl.mode = .halted
          ∧ (s.part.ctl.mode ≠ .halted → q.ctl.mainPower = false
            ∧ ∃ old, q.codes.mode = some (.modeChange .halted old (.deviceFault c))
              ∧ (s.part.ctl.mode ≠ .parked → s.part.ctl.silenceDisarm = false → old = s.part.ctl.mode)))

/-- R95, R96, R98, R17, R23, R79: what a sample of a running channel detects, whatever its mover: SLACK below the underload,
REVERSED 10 mm against the commanded direction from the extreme, STALL once the progress timer has expired without 3 mm of
progress. The channel stops; a jog ends, and a group's move stops with the fault recorded. -/
def Claims.RunningChannelFaultsAreDetected : Prop :=
  ∀ (c : Chan) (y : Sample) (d : Dir) (s : State), s.part.ctl.held = false → s.part.hasChan c = true →
    (s.part.chan c).kind ≠ .absent → (s.part.chan c).state = .starting ∨ (s.part.chan c).state = .moving →
    (s.part.chan c).direction = some d → (s.part.chan c).JogsOn y →
    (∀ g, (s.part.chan c).mover = .group g → (s.part.group g).state ≠ .stopping) →
    let slack := min y.load 9999 < (s.part.chan c).config.underload
    let reversed := ∃ e, (s.part.chan c).reversalExtreme = some e ∧ gain d e y.raw ≤ -10
    let stalled := ∃ mark, (s.part.chan c).state = .moving ∧ (s.part.chan c).progressTimer = .expired
      ∧ (s.part.chan c).progressMark = some mark ∧ gain d mark y.raw < 3
    Gives (.feedbackArrival c y) s fun q =>
      (slack → (q.chan c).holdsFault .slack = true) ∧ (reversed → (q.chan c).holdsFault .reversed = true)
      ∧ (stalled → (q.chan c).holdsFault .stall = true)
      ∧ (slack ∨ reversed ∨ stalled → (s.part.chan c).fault = none →
          (q.chan c).state = .stopping ∧ (q.port c).output.brakeReleased = false ∧ (q.port c).output.run = false
          ∧ (∃ k, q.codes.faults[c] = some (.fault k))
          ∧ (∀ l, (s.part.chan c).mover = .jog l → (q.chan c).mover = .none ∧ (q.chan c).jog = none)
          ∧ ∀ g, (s.part.chan c).mover = .group g → (s.part.group g).active = true →
              (q.group g).active = false ∧ (q.group g).fault.isSome = true)

/-- R98: a calm sample of a MOVING channel with an active watch. 3 mm of progress beyond the mark in the commanded direction
moves the mark and restarts the timer, and less leaves both. -/
def Claims.ProgressMovesTheMark : Prop :=
  ∀ (c : Chan) (y : Sample) (d : Dir) (mark : Int) (n : Nat) (s : State), s.part.ctl.held = false →
    s.part.hasChan c = true → (s.part.chan c).kind ≠ .absent → (s.part.chan c).state = .moving →
    (s.part.chan c).direction = some d → (s.part.chan c).progressMark = some mark →
    (s.part.chan c).progressTimer = .running n → (s.part.chan c).Calm y → (s.part.chan c).JogsOn y →
    (∀ g, (s.part.chan c).mover = .group g → (s.part.group g).state ≠ .stopping) →
    Gives (.feedbackArrival c y) s fun q =>
      (q.chan c).state = .moving ∧ (q.chan c).fault = (s.part.chan c).fault
      ∧ (q.chan c).progressMark = (if 3 ≤ gain d mark y.raw then some y.raw else some mark)
      ∧ (q.chan c).progressTimer = (if 3 ≤ gain d mark y.raw then .running 600 else .running n)

/-- R92 to R95, R17, R23, R79, R155: FINAL_LIMIT, DRIVE_FAULT and OVERLOAD are detected by a sample of a configured channel in
every state, and FINAL_LIMIT halts the device. A channel that a jog or a group moves, and that has no fault yet, is stopped by
the first of them, in the order of R93: a HOLDING one goes to STOPPING as a running one does, and a STOPPING one without a
standstill goes on stopping, without a release that waited. The jog ends. A PREPARING or RUNNING group stops with MEMBER_FAULT,
and one that is STOPPING for another reason takes that fault. -/
def Claims.MovedChannelFaultsAreDetected : Prop :=
  ∀ (c : Chan) (y : Sample) (s : State), s.part.ctl.held = false → s.part.hasChan c = true → (s.part.chan c).kind ≠ .absent →
    let x := s.part.chan c
    let limit := y.upperOpen = true ∨ y.lowerOpen = true
    let heavy := x.config.wll * x.config.overloadPct < 100 * min y.load 9999
    let first : FaultKind := if limit then .finalLimit else if y.driveFault then .driveFault else .overload
    let still := ∃ a b, x.history.take 2 = [a, b] ∧ max y.raw (max a b) - min y.raw (min a b) ≤ 2
    Gives (.feedbackArrival c y) s fun q =>
      let z := q.chan c
      (limit → z.holdsFault .finalLimit = true) ∧ (y.driveFault = true → z.holdsFault .driveFault = true)
      ∧ (heavy → z.holdsFault .overload = true)
      ∧ (limit → x.holdsFault .finalLimit = false → q.ctl.mode = .halted
          ∧ (s.part.ctl.mode ≠ .halted → q.ctl.mainPower = false
              ∧ ∃ old, q.codes.mode = some (.modeChange .halted old (.deviceFault c))))
      ∧ (limit ∨ y.driveFault = true ∨ heavy → x.fault = none →
          x.state ∈ [ChannelState.starting, .moving, .holding] ∨ x.state = .stopping ∧ ¬still →
          x.jog = none ∨ (∃ l, x.mover = .jog l) ∧ x.state ≠ .holding →
          (∀ g, x.mover = .group g → (s.part.group g).state = .stopping → s.part.Underway g) →
          z.state = .stopping ∧ z.fault.map (·.first) = some first ∧ z.pendingRelease = none
          ∧ (x.state ≠ .stopping → z.direction = none ∧ z.history = [] ∧ z.standstillTimer = some 2000)
          ∧ (x.state = .stopping → z.standstillTimer = x.standstillTimer)
          ∧ (q.port c).output.brakeReleased = false ∧ (q.port c).output.run = false
          ∧ (∃ k, q.codes.faults[c] = some (.fault k))
          ∧ (∀ l, x.mover = .jog l → z.mover = .none ∧ z.jog = none)
          ∧ ∀ g m, x.mover = .group g → (∃ ln ∈ (s.part.group g).lanes, ln.channel = c) →
              (s.part.group g).move = some m →
              (s.part.group g).active = true ∨ (s.part.group g).state = .stopping ∧ m.reason ≠ some .fault →
              z.mover = .group g ∧ (q.group g).state = .stopping ∧ (q.group g).fault = some (.memberFault c first)
              ∧ (q.group g).move.bind (·.reason) = some .fault)

/-- Together: Claims.SampleFaultAtRestIsRecorded, Claims.RunawayAtRestHalts, Claims.RunningChannelFaultsAreDetected,
Claims.MovedChannelFaultsAreDetected, Claims.ProgressMovesTheMark. -/
def Obligations.SampleFaultIsRecorded : Prop :=
  Claims.SampleFaultAtRestIsRecorded ∧ Claims.RunawayAtRestHalts ∧ Claims.RunningChannelFaultsAreDetected
    ∧ Claims.MovedChannelFaultsAreDetected ∧ Claims.ProgressMovesTheMark

/-- R6, R11, R15, R16, R92, R99: what each expiry of a port's or a channel's timer detects on a configured channel: feedback
lost, STALL, or RUNAWAY, which halts the device. -/
def Claims.TimerExpiriesDetectFaults : Prop :=
  ∀ (c : Chan) (i : Instr) (k : FaultKind) (s : State), s.part.ctl.held = false → (s.part.chan c).kind ≠ .absent →
    (i = .feedbackTimerExpiry c ∧ (s.part.port c).feedbackTimer = some 0 ∧ k = .feedbackLost
      ∨ i = .confirmTimerExpiry c ∧ (s.part.chan c).confirmTimer = some 0 ∧ k = .stall
      ∨ i = .standstillTimerExpiry c ∧ (s.part.chan c).standstillTimer = some 0 ∧ k = .runaway
      ∨ i = .settleTimerExpiry c ∧ (s.part.chan c).settleTimer = some 0 ∧ k = .runaway) →
    Gives i s fun q =>
      (q.chan c).holdsFault k = true
      ∧ (i = .feedbackTimerExpiry c → (q.chan c).history = [] ∧ (q.port c).feedbackTimer = none
          ∧ (q.port c).arrivedSinceLoss = false)
      ∧ (i = .settleTimerExpiry c → (q.chan c).settling = false ∧ (q.chan c).settleTimer = none)
      ∧ ((s.part.chan c).fault = none →
          (q.chan c).fault = some { first := k, position := (s.part.chan c).position, load := (s.part.chan c).load, further := [] }
          ∧ q.codes.faults[c] = some (.fault k)
          ∧ ((s.part.chan c).state = .idle → (s.part.chan c).mover = .none → (q.chan c).state = .faulted)
          ∧ ((s.part.chan c).state = .starting ∨ (s.part.chan c).state = .moving →
              (q.chan c).state = .stopping ∧ (q.port c).output.brakeReleased = false ∧ (q.port c).output.run = false)
          ∧ (∀ j, (s.part.chan c).mover = .jog j → (q.chan c).mover = .none ∧ (q.chan c).jog = none)
          ∧ (∀ g, (s.part.chan c).mover = .group g → (s.part.group g).active = true → (q.group g).active = false
              ∧ (q.group g).fault = some (match k, (s.part.group g).lanes.findIdx? fun ln => ln.channel == c with
                | .stall, some n => .stall n
                | _, _ => .memberFault c k))
          ∧ (k = .runaway → q.ctl.mode = .halted ∧ (s.part.ctl.mode ≠ .halted → q.ctl.mainPower = false)))

/-- R6, R98: the feedback timer of an ABSENT channel runs out without a fault, and its history is emptied (log 21, the model's
choice); the progress timer's expiry alone detects nothing. -/
def Claims.HarmlessExpiries : Prop :=
  ∀ (c : Chan) (s : State), s.part.ctl.held = false →
    ((s.part.chan c).kind = .absent → (s.part.port c).feedbackTimer = some 0 →
      Gives (.feedbackTimerExpiry c) s fun q =>
        (q.port c).feedbackTimer = none ∧ q.chan c = { s.part.chan c with history := [] }
        ∧ (∀ e, e ≠ c → q.chan e = s.part.chan e)
        ∧ Kept s.part q [.groups, .queues, .clock, .tracks, .codes, .ctl, .link .a, .link .b])
    ∧ ((s.part.chan c).progressTimer = .running 0 → Gives (.progressTimerExpiry c) s fun q =>
        q.chan c = { s.part.chan c with progressTimer := .expired } ∧ (∀ e, e ≠ c → q.chan e = s.part.chan e)
        ∧ Kept s.part q [.ports, .groups, .queues, .clock, .tracks, .codes, .ctl, .link .a, .link .b])

/-- R168, R178, R23: an expiry whose timer has not run out, one that a restart has overtaken among them, changes nothing: after a
frame that restarts its watchdog a due link silence is not taken, after a renewal a due lease ends no jog, and the return of
power-good takes a due power loss away. That a command names such a timer at all is log 4's. -/
def Claims.ExpiryOutOfTimeChangesNothing : Prop :=
  ∀ (i : Instr) (s : State), i.isExpiry = true → ¬s.part.RunOut i → Gives i s fun q =>
    Kept s.part q [.channels, .samples, .groups, .queues, .clock, .tracks, .codes, .ctl, .link .a, .link .b]
      ∧ (s.part.OutputLaw → Kept s.part q [.ports])

/-- Together: Claims.TimerExpiriesDetectFaults, Claims.HarmlessExpiries, Claims.ExpiryOutOfTimeChangesNothing. -/
def Obligations.TimerExpiriesDetectWhatTheyName : Prop :=
  Claims.TimerExpiriesDetectFaults ∧ Claims.HarmlessExpiries ∧ Claims.ExpiryOutOfTimeChangesNothing

/-! ### Groups -/

/-- R48, R49: a lane's travel. The magnitude of D is shifted right by the ratio, which rounds toward zero; OPPOSE turns the sign,
HOLD and a ratio of 8 or more give 0. -/
def Claims.LaneTravelFollowsSignAndRatio : Prop :=
  ∀ (ln : Lane) (d : Int),
    (ln.sign = .hold ∨ 8 ≤ ln.ratio → ln.travel d = 0)
    ∧ (ln.sign = .follow → ln.ratio < 8 → ln.travel d = d.tdiv (2 ^ ln.ratio))
    ∧ (ln.sign = .oppose → ln.ratio < 8 → ln.travel d = -d.tdiv (2 ^ ln.ratio))

/-- R54 to R57: DEFINE_GROUP writes a whole definition, and DELETE_GROUP takes it away. -/
def Obligations.DefineAndDeleteGroupWriteTheDefinition : Prop :=
  ∀ (l : Link) (tier : Byte) (g : Grp) (lanes : List Lane) (sw ll lt lg : Nat) (s : State),
    s.part.Ready l → tier.toNat ≤ 7 → s.part.Prepared → (s.part.queue g).cues = [] → (s.part.group g).boundTrack = none →
    ((s.part.group g).state = .empty ∨ (s.part.group g).state = .idle → s.part.LegalLanes lanes → 10 ≤ sw → sw ≤ 250 →
      2 * sw ≤ ll → ll ≤ 1000 → 5 ≤ lt → lt ≤ 60 → lg ≤ 5000 →
      Gives (.defineGroup l tier
          ([byteOf g.val, byteOf lanes.length, byteOf sw] ++ wr16 ll ++ [byteOf lt] ++ wr16 lg ++ lanes.flatMap laneBytes))
        s fun q =>
          s.part.Answers q l 0x20 [] [.channels, .ports, .queues, .clock, .tracks, .codes]
          ∧ q.group g = { s.part.group g with
              state := .idle, lanes := lanes, syncWindow := sw, levelLimit := ll, loadTolerance := lt, lateGrace := lg
              boundTrack := none, move := none, held := false, fault := none }
          ∧ ∀ h, h ≠ g → q.group h = s.part.group h)
    ∧ ((s.part.group g).state = .idle → Gives (.deleteGroup l tier [byteOf g.val]) s fun q =>
          s.part.Answers q l 0x21 [] [.channels, .ports, .queues, .clock, .tracks, .codes]
          ∧ q.group g = { s.part.group g with
              state := .empty, lanes := [], syncWindow := 50, levelLimit := 200, loadTolerance := 25, lateGrace := 0 }
          ∧ ∀ h, h ≠ g → q.group h = s.part.group h)

/-- R87, R63 to R66, R113, R124: GO on an IDLE group fires the head cue under GO's own tier and link. The group is PREPARING,
its channels are released, and the head leaves the queue, which is unblocked. A lane that is ARRIVED at its start takes
no demand (log 14, the model's choice). -/
def Claims.GoFiresTheHeadCue : Prop :=
  ∀ (l : Link) (tier : Byte) (g : Grp) (x : Cue) (rest : List Cue) (s : State), s.part.Ready l → tier.toNat ≤ 7 →
    (s.part.group g).state = .idle → (s.part.queue g).cues = x :: rest →
    s.part.Admits g (s.part.effectiveTier l tier) l (s.part.cueTargets g x) → s.part.Travels g (s.part.cueTargets g x) →
    Gives (.go l tier [byteOf g.val]) s fun q =>
      s.part.Answers q l 0x23 [] [.samples, .clock, .tracks, .codes]
      ∧ s.part.Started q g (s.part.effectiveTier l tier) l (.cue x.number) (some x.speed) (cueSpeed x.speed)
          (s.part.cueTargets g x)
      ∧ s.part.Alone q g ∧ q.queue g = (s.part.queue g).rest false ∧ s.part.OtherQueues q g

/-- R87, R88, R124: GO on a HELD group re-fires the held move toward its targets, every lane by its own target, a HOLD lane too by
log 33 (the model's choice). -/
def Claims.GoRefiresTheHeldMove : Prop :=
  ∀ (l : Link) (tier : Byte) (g : Grp) (m : MoveRecord) (v : Nat) (s : State), s.part.Ready l → tier.toNat ≤ 7 →
    (s.part.group g).state = .held → (s.part.group g).move = some m → m.speed = some v →
    s.part.Admits g (s.part.effectiveTier l tier) l (m.lanes.map (·.target)) →
    s.part.Travels g (m.lanes.map (·.target)) →
    Gives (.go l tier [byteOf g.val]) s fun q =>
      s.part.Answers q l 0x23 [] [.samples, .clock, .tracks, .codes]
      ∧ s.part.Started q g (s.part.effectiveTier l tier) l m.source (some v) (cueSpeed v) (m.lanes.map (·.target))
      ∧ s.part.Alone q g ∧ q.queue g = { s.part.queue g with blocked := false } ∧ s.part.OtherQueues q g

/-- R67, R77, R88, R118, R119, R126: a GO whose lanes all stand within the arrival band completes in the taking of its fire, of the
head cue on an IDLE group and of the held move on a HELD one. The queue it leaves is told: an AFTER_PREVIOUS head dwells, an
AT_MARK head awaits its mark. -/
def Claims.GoWithNothingToTravelCompletes : Prop :=
  ∀ (l : Link) (tier : Byte) (g : Grp) (s : State), s.part.Ready l → tier.toNat ≤ 7 →
    let completes := fun (targets : List Int) (queue : CueQueue) (number : Nat) =>
      s.part.Admits g (s.part.effectiveTier l tier) l targets → ¬s.part.Travels g targets →
      (s.part.setQueue g queue).HeadWaits g →
      Gives (.go l tier [byteOf g.val]) s fun q =>
        q.Accepted l 0x23 [] ∧ (s.part.setQueue g queue).CompletesAtOnce q g number
    (∀ x rest, (s.part.group g).state = .idle → (s.part.queue g).cues = x :: rest →
      completes (s.part.cueTargets g x) ((s.part.queue g).rest false) x.number)
    ∧ ((s.part.group g).state = .held → ∀ m, (s.part.group g).move = some m → ∀ n, m.source = .cue n →
      completes (m.lanes.map (·.target)) { s.part.queue g with blocked := false } n)

/-- R63 to R65, R87: what GO is refused for, each check after those before it: MODE; TIER, CLAIM and UNREFERENCED with the
index of the first lane that fails; STATE for a group that has nothing to fire or is bound to a track; STATE for the first lane
whose channel cannot be reserved; LIMIT for the first lane whose target is out of bounds. -/
def Claims.GoRefusals : Prop :=
  ∀ (l : Link) (tier : Byte) (g : Grp) (s : State), s.part.Ready l → tier.toNat ≤ 7 →
    let p := s.part
    let refused := fun code index => Gives (.go l tier [byteOf g.val]) s fun q => p.Refuses q l 0x23 code index
    (p.ctl.mode ≠ .armed → refused .mode 0xFF)
    ∧ (p.ctl.mode = .armed →
      (∀ n, p.FirstLane g n (fun x => ¬x.Lets (p.effectiveTier l tier)) → refused .tier (byteOf n))
      ∧ ((∀ ln ∈ (p.group g).lanes, (p.chan ln.channel).Lets (p.effectiveTier l tier)) →
        (∀ n, p.FirstLane g n (fun x => x.owner ≠ some l) → refused .claim (byteOf n))
        ∧ ((∀ ln ∈ (p.group g).lanes, (p.chan ln.channel).owner = some l) →
          ∀ n, p.FirstLane g n (fun x => x.referenced = false) → refused .unreferenced (byteOf n)))
      ∧ (p.LanesAllow g (p.effectiveTier l tier) l →
        ((p.group g).state ≠ .idle → (p.group g).state ≠ .held → refused .state 0xFF)
        ∧ ((p.group g).state = .idle → (p.queue g).cues = [] → refused .state 0xFF)
        ∧ ((p.group g).boundTrack.isSome = true → refused .state 0xFF)
        ∧ ∀ targets, (p.group g).boundTrack = none →
          ((p.group g).state = .idle ∧ (∃ x, (p.queue g).cues.head? = some x ∧ targets = p.cueTargets g x)
            ∨ (p.group g).state = .held ∧ ∃ m, (p.group g).move = some m ∧ targets = m.lanes.map (·.target)
                ∧ m.lanes.length = (p.group g).lanes.length) →
          (∀ n, p.FirstLane g n (fun x => x.state ≠ .idle ∨ x.mover ≠ .none) → refused .state (byteOf n))
          ∧ ((∀ ln ∈ (p.group g).lanes, (p.chan ln.channel).state = .idle ∧ (p.chan ln.channel).mover = .none) →
            ∀ n lt, ((p.group g).lanes.zip targets)[n]? = some lt → (p.chan lt.1.channel).Bars lt.2 →
              (∀ k u, k < n → ((p.group g).lanes.zip targets)[k]? = some u → ¬(p.chan u.1.channel).Bars u.2) →
              refused .limit (byteOf n))))

/-- Together: Claims.GoFiresTheHeadCue, Claims.GoRefiresTheHeldMove, Claims.GoWithNothingToTravelCompletes,
Claims.GoRefusals. -/
def Obligations.GoFiresTheHeadOrTheHeldMove : Prop :=
  Claims.GoFiresTheHeadCue ∧ Claims.GoRefiresTheHeldMove ∧ Claims.GoWithNothingToTravelCompletes ∧ Claims.GoRefusals

/-- R81, R86, R12: STOP of a moving group. It enters STOPPING with reason REQUEST, its control period stops, and every lane
channel that runs is stopped. -/
def Claims.StopStopsAMovingGroup : Prop :=
  ∀ (l : Link) (tier : Byte) (g : Grp) (m : MoveRecord) (s : State), s.part.Ready l → tier.toNat ≤ 7 →
    (s.part.group g).state = .preparing ∨ (s.part.group g).state = .running → (s.part.group g).move = some m →
    s.part.Underway g →
    Gives (.stop l tier [1, byteOf g.val]) s fun q =>
      s.part.Answers q l 0x24 [] [.samples, .queues, .clock, .tracks, .codes]
      ∧ q.group g = { s.part.group g with
          state := .stopping, controlTimer := none, move := some { m with reason := some .request } }
      ∧ (∀ ln ∈ (s.part.group g).lanes,
          ((s.part.chan ln.channel).state = .starting ∨ (s.part.chan ln.channel).state = .moving →
            q.chan ln.channel = (s.part.chan ln.channel).stopped
              ∧ (q.port ln.channel).output.brakeReleased = false ∧ (q.port ln.channel).output.run = false)
          ∧ ((s.part.chan ln.channel).state = .stopping →
            q.chan ln.channel = { s.part.chan ln.channel with pendingRelease := none })
          ∧ ((s.part.chan ln.channel).state = .holding → q.chan ln.channel = s.part.chan ln.channel))
      ∧ s.part.Alone q g

/-- R86, R121: STOP of any groups named once each, or of all with count 0. No named group moves on; an IDLE one with an armed head
is disarmed, and its queue blocked if it holds a cue. -/
def Claims.StopReachesEveryNamedGroup : Prop :=
  ∀ (l : Link) (tier : Byte) (gs : List Grp) (s : State), s.part.Ready l → tier.toNat ≤ 7 → gs.Nodup →
    Gives (.stop l tier (byteOf gs.length :: gs.map fun g => byteOf g.val)) s fun q =>
      q.Accepted l 0x24 []
      ∧ Kept s.part q [.samples, .clock] ∧ (s.part.ctl.mode ≠ .parked → Kept s.part q [.taken])
      ∧ ∀ g, g ∈ gs ∨ gs = [] →
          (q.group g).active = false
          ∧ ((s.part.group g).state = .idle → q.group g = s.part.group g
              ∧ q.queue g =
                if (s.part.queue g).arming = .none then s.part.queue g
                else { cues := (s.part.queue g).cues, blocked := !(s.part.queue g).cues.isEmpty, arming := .none
                       dwellTimer := none })

/-- Together: Claims.StopStopsAMovingGroup, Claims.StopReachesEveryNamedGroup. -/
def Obligations.StopStopsTheNamedGroups : Prop :=
  Claims.StopStopsAMovingGroup ∧ Claims.StopReachesEveryNamedGroup

/-- R89, R128: CANCEL discards a held move and blocks a queue that holds a cue; FLUSH_CUES empties the queue. -/
def Claims.CancelAndFlushTakeTheirMatter : Prop :=
  ∀ (l : Link) (tier : Byte) (g : Grp) (s : State), s.part.Ready l → tier.toNat ≤ 7 →
    (∀ ln ∈ (s.part.group g).lanes,
      (s.part.chan ln.channel).Lets (s.part.effectiveTier l tier) ∧ (s.part.chan ln.channel).owner ≠ some l.other) →
    ((s.part.group g).state = .held → Gives (.cancel l tier [byteOf g.val]) s fun q =>
      s.part.Answers q l 0x25 [] [.channels, .ports, .clock, .tracks, .codes]
      ∧ q.group g = { s.part.group g with state := .idle, move := none, held := false }
      ∧ q.queue g = { s.part.queue g with blocked := !(s.part.queue g).cues.isEmpty }
      ∧ s.part.OtherQueues q g ∧ ∀ h, h ≠ g → q.group h = s.part.group h)
    ∧ ((s.part.group g).state = .empty ∨ (s.part.group g).state = .idle → Gives (.cancel l tier [byteOf g.val]) s fun q =>
      s.part.Answers q l 0x25 [] [.channels, .ports, .groups, .queues, .clock, .tracks, .codes])
    ∧ (s.part.Prepared → Gives (.flushCues l tier [byteOf g.val]) s fun q =>
      s.part.Answers q l 0x26 [byteOf (s.part.queue g).cues.length] [.channels, .ports, .groups, .clock, .tracks, .codes]
      ∧ q.queue g = { cues := [], blocked := false, arming := .none, dwellTimer := none } ∧ s.part.OtherQueues q g)

/-- R89, R128, R33, R35: what CANCEL and FLUSH_CUES are refused for, each check after those before it: RANGE for the group, MODE for
FLUSH_CUES in PARKED and HALTED, TIER and CLAIM with the index of the first lane that fails, where the other link's claim fails and
no claim does not, and STATE for CANCEL of a group that moves, stops or is FAULTED. -/
def Claims.CancelAndFlushRefusals : Prop :=
  ∀ (l : Link) (tier b : Byte) (g : Grp) (n : Nat) (s : State), s.part.Ready l → tier.toNat ≤ 7 →
    let p := s.part
    let cancel := fun code index => Gives (.cancel l tier [byteOf g.val]) s fun q => p.Refuses q l 0x25 code index
    let flush := fun code index => Gives (.flushCues l tier [byteOf g.val]) s fun q => p.Refuses q l 0x26 code index
    let lets := ∀ ln ∈ (p.group g).lanes, (p.chan ln.channel).Lets (p.effectiveTier l tier)
    (7 < b.toNat → (Gives (.cancel l tier [b]) s fun q => p.Refuses q l 0x25 .range 0xFF)
      ∧ Gives (.flushCues l tier [b]) s fun q => p.Refuses q l 0x26 .range 0xFF)
    ∧ (¬p.Prepared → flush .mode 0xFF)
    ∧ (p.FirstLane g n (fun x => ¬x.Lets (p.effectiveTier l tier)) →
        cancel .tier (byteOf n) ∧ (p.Prepared → flush .tier (byteOf n)))
    ∧ (lets → p.FirstLane g n (fun x => x.owner = some l.other) →
        cancel .claim (byteOf n) ∧ (p.Prepared → flush .claim (byteOf n)))
    ∧ (lets → (∀ ln ∈ (p.group g).lanes, (p.chan ln.channel).owner ≠ some l.other) →
        (p.group g).state ∈ [GroupState.preparing, .running, .stopping, .faulted] → cancel .state 0xFF)

/-- Together: Claims.CancelAndFlushTakeTheirMatter, Claims.CancelAndFlushRefusals. -/
def Obligations.CancelAndFlushDiscard : Prop :=
  Claims.CancelAndFlushTakeTheirMatter ∧ Claims.CancelAndFlushRefusals

/-- R90: CLEAR_FAULT on a FAULTED group whose channels have no record. A cue move becomes the held move; a track move is
discarded and the group unbound. -/
def Claims.ClearFaultClearsTheGroup : Prop :=
  ∀ (l : Link) (tier b : Byte) (g : Grp) (m : MoveRecord) (s : State), s.part.Ready l → tier.toNat ≤ 7 →
    (s.part.group g).state = .faulted → (s.part.group g).move = some m →
    (∀ ln ∈ (s.part.group g).lanes,
      (s.part.chan ln.channel).Lets (s.part.effectiveTier l tier) ∧ (s.part.chan ln.channel).owner ≠ some l.other
        ∧ (s.part.chan ln.channel).fault = none) →
    ((∃ n, m.source = .cue n) → Gives (.clearFaultGroup l tier [1, byteOf g.val, b]) s fun q =>
      s.part.Answers q l 0x15 [] [.channels, .samples, .queues, .clock, .tracks, .codes]
      ∧ q.group g = { s.part.group g with fault := none, state := .held, held := true }
      ∧ ∀ h, h ≠ g → q.group h = s.part.group h)
    ∧ (∀ t, m.source = .track t → (s.part.queue g).cues = [] → Gives (.clearFaultGroup l tier [1, byteOf g.val, b]) s fun q =>
      s.part.Answers q l 0x15 [] [.channels, .samples, .queues, .clock, .codes]
      ∧ q.group g = { s.part.group g with fault := none, move := none, state := .idle, boundTrack := none }
      ∧ (∀ h, h ≠ g → q.group h = s.part.group h)
      ∧ g ∉ (q.track t).bound)

/-- Together: Claims.ClearFaultClearsTheSpan, Claims.ClearFaultClearsTheGroup. -/
def Obligations.ClearFaultClearsSpanOrGroup : Prop :=
  Claims.ClearFaultClearsTheSpan ∧ Claims.ClearFaultClearsTheGroup

/-- R70: a lane's lead is what it has travelled beyond the laggard's progress, scaled to its own travel and rounded toward zero;
what the laggard has travelled counts as at least 0 and at most its travel. The laggard and a lane of zero travel lead by 0,
and with no laggard a lane leads by what it has travelled beyond its own travel. -/
def Claims.LeadIsTheTravelBeyondTheLaggard : Prop :=
  ∀ (a b : Progress),
    (a.record.travel = 0 → a.lead (some b) = 0 ∧ a.lead none = 0)
    ∧ (a.index = b.index → a.lead (some b) = 0)
    ∧ (a.record.travel ≠ 0 → a.lead none = a.done - a.record.travel.natAbs)
    ∧ (a.record.travel ≠ 0 → a.index ≠ b.index →
        let counted : Int := max 0 (min b.done b.record.travel.natAbs)
        a.lead (some b) =
          (a.done * b.record.travel.natAbs - counted * a.record.travel.natAbs).tdiv b.record.travel.natAbs)

/-- R70, 4.1: the leads of a move are, in lane order, those of its lanes against the laggard among them, each on the distance
that its channel has travelled from the lane's start in the direction of its travel. -/
def Claims.LeadsAreOfTheTravelledDistances : Prop :=
  ∀ (p : Part) (g : Grp) (m : MoveRecord),
    (p.leads g m).length = min (p.group g).lanes.length m.lanes.length
    ∧ ∀ (n : Nat) (ln : Lane) (r : LaneRecord), (p.group g).lanes[n]? = some ln → m.lanes[n]? = some r →
      let pos := (p.chan ln.channel).pos
      let done : Int := if 0 < r.travel then pos - r.start else if r.travel < 0 then r.start - pos else 0
      let a : Progress := { index := n, record := r, done := done }
      (p.progress g m)[n]? = some a ∧ (p.leads g m)[n]? = some (a.lead (laggard (p.progress g m)))

/-- R70: the laggard is the lane on its way with the smallest fraction of its travel, compared exactly, and of those that share it
the lowest. There is none when no lane is on its way. -/
def Claims.LaggardHasTheSmallestFraction : Prop :=
  ∀ (p : Part) (g : Grp) (m : MoveRecord),
    let l := p.progress g m
    let onWay := fun a : Progress => a.record.travel ≠ 0 ∧ a.record.state ≠ .arrived
    (laggard l = none ↔ ∀ a ∈ l, ¬onWay a)
    ∧ ∀ b, laggard l = some b ↔ b ∈ l ∧ onWay b ∧ ∀ a ∈ l, onWay a →
        b.done * a.record.travel.natAbs ≤ a.done * b.record.travel.natAbs
        ∧ (a.index < b.index → b.done * a.record.travel.natAbs < a.done * b.record.travel.natAbs)

/-- R53: the load-shift test. -/
def Claims.LoadShiftTestIsExact : Prop :=
  ∀ (tolerance baseline load : Nat),
    loadShifted tolerance baseline load = true ↔
      100 * ((load : Int) - baseline).natAbs > baseline * tolerance + 2000

/-- R69, R76: a control period of a PREPARING group whose lanes are all confirmed, none ahead, none arrived and none shifted,
makes it RUNNING and changes nothing else but its timer. -/
def Claims.ControlPeriodStartsRunning : Prop :=
  ∀ (g : Grp) (m : MoveRecord) (s : State), s.part.ctl.held = false → (s.part.group g).controlTimer = some 0 →
    (s.part.group g).state = .preparing ∨ (s.part.group g).state = .running → (s.part.group g).move = some m →
    s.part.Level g m (·.start) → (∀ r ∈ m.lanes, r.state = .driving ∧ r.confirmed = true
      ∧ r.travel = r.target - r.start ∧ 5 < r.travel.natAbs) → m.lanes ≠ [] →
    Gives (.controlPeriod g) s fun q =>
      q.group g = { s.part.group g with state := .running, controlTimer := some 20 }
      ∧ (∀ h, h ≠ g → q.group h = s.part.group h)
      ∧ Kept s.part q [.channels, .samples, .queues, .clock, .tracks, .codes, .ctl, .link .a, .link .b]

/-- R75, R12: at a control period a lone lane that comes within 5 mm of its target becomes ARRIVED, and its channel is
stopped. That it then counts as confirmed and its watch is disarmed is log 15's and R98's. -/
def Claims.ControlPeriodTakesArrivals : Prop :=
  ∀ (g : Grp) (ln : Lane) (r : LaneRecord) (m : MoveRecord) (s : State), s.part.ctl.held = false →
    (s.part.group g).controlTimer = some 0 → (s.part.group g).state = .running →
    (s.part.group g).lanes = [ln] → (s.part.group g).move = some m → m.lanes = [r] → r.state = .driving →
    r.travel ≠ 0 → (s.part.chan ln.channel).load = r.baseline →
    (if r.travel < 0 then (s.part.chan ln.channel).pos - r.target else r.target - (s.part.chan ln.channel).pos) ≤ 5 →
    (s.part.chan ln.channel).state = .starting ∨ (s.part.chan ln.channel).state = .moving →
    Gives (.controlPeriod g) s fun q =>
      q.group g = { s.part.group g with
        controlTimer := some 20, move := some { m with lanes := [{ r with state := .arrived, confirmed := true }] } }
      ∧ q.chan ln.channel = { (s.part.chan ln.channel).stopped with watchArmed := false }
      ∧ (q.port ln.channel).output.brakeReleased = false ∧ s.part.Alone q g
      ∧ Kept s.part q [.samples, .queues, .clock, .tracks, .codes, .ctl, .link .a, .link .b]

/-- R71, R72, R98, R10: trim hold in a control period that finds no lane out of level, on a lane short of its target. Beyond the
window a DRIVING lane becomes TRIMMED: a VARIABLE channel goes on at half the lane's demand, a FIXED one is stopped, and the
progress watch is disarmed. At half the window or less a TRIMMED lane becomes DRIVING: its channel is released with the full
demand, at once when it runs or holds and at its standstill when it is stopping, and the watch is armed. In between, and for
a DRIVING lane within the window, lane and channel stay as they were. -/
def Claims.ControlPeriodTrims : Prop :=
  ∀ (g : Grp) (m : MoveRecord) (n : Nat) (ln : Lane) (r : LaneRecord) (lead : Int) (s : State),
    s.part.ctl.held = false → (s.part.group g).controlTimer = some 0 → (s.part.group g).active = true →
    (s.part.group g).move = some m → m.lanes.length = (s.part.group g).lanes.length →
    ((s.part.group g).lanes.map (·.channel)).Nodup → (s.part.group g).lanes[n]? = some ln → m.lanes[n]? = some r →
    (s.part.leads g m)[n]? = some lead → s.part.Steady g m →
    5 < (if r.travel < 0 then (s.part.chan ln.channel).pos - r.target else r.target - (s.part.chan ln.channel).pos) →
    let x := s.part.chan ln.channel
    let window : Int := (s.part.group g).syncWindow
    let way : Dir := if r.travel < 0 then .down else .up
    let runs := (x.state = .starting ∨ x.state = .moving) ∧ x.direction = some way
    let demand := fun n => if x.kind = .variableSpeed then min n x.config.nominalSpeed else 0
    Gives (.controlPeriod g) s fun q =>
      let y := q.chan ln.channel
      let lane := (q.group g).move.bind fun k => k.lanes[n]?
      (r.state = .driving ∧ lead ≤ window ∨ r.state = .trimmed ∧ window < 2 * lead → lane = some r ∧ y = x)
      ∧ (r.state = .driving → window < lead →
          lane = some { r with state := .trimmed, demand := r.demand / 2 }
          ∧ (x.kind ≠ .fixedSpeed → runs → y = { x with
              demand := demand (r.demand / 2), watchArmed := false, progressMark := none, progressTimer := .stopped })
          ∧ (x.kind = .fixedSpeed → x.state = .starting ∨ x.state = .moving →
              y = { x.stopped with watchArmed := false }
                ∧ (q.port ln.channel).output.brakeReleased = false ∧ (q.port ln.channel).output.run = false))
      ∧ (r.state = .trimmed → 2 * lead ≤ window →
          lane = some { r with state := .driving, demand := r.full } ∧ y.watchArmed = true
          ∧ (runs → y.state = x.state ∧ y.direction = x.direction ∧ y.demand = demand r.full)
          ∧ (x.state = .holding → y.state = .starting ∧ y.direction = some way ∧ y.demand = demand r.full
              ∧ y.confirmMark = some x.raw ∧ y.confirmTimer = some 600)
          ∧ (x.state = .stopping → x.fault = none → x.mover = .group g →
              y.state = .stopping ∧ y.pendingRelease = some { direction := way, demand := r.full }))

/-- R69, R71, R72, R75, R76: any steady control period that ends no move. A PREPARING group is RUNNING once every lane that is not
ARRIVED is confirmed, and stays PREPARING till then; every lane within 5 mm of its target becomes ARRIVED, whatever trim hold made
of it, and its channel, if it runs, is stopped. That it then counts as confirmed is log 15's. Nothing but the group and its
channels changes. -/
def Claims.SteadyPeriodConfirmsAndArrives : Prop :=
  ∀ (g : Grp) (m : MoveRecord) (s : State), s.part.ctl.held = false → (s.part.group g).controlTimer = some 0 →
    (s.part.group g).active = true → (s.part.group g).move = some m →
    m.lanes.length = (s.part.group g).lanes.length → ((s.part.group g).lanes.map (·.channel)).Nodup →
    s.part.Steady g m → s.part.Unfinished g m →
    Gives (.controlPeriod g) s fun q =>
      ((∀ r ∈ m.lanes, r.state = .arrived ∨ r.confirmed = true) → (q.group g).state = .running)
      ∧ ((∃ r ∈ m.lanes, r.state ≠ .arrived ∧ r.confirmed = false) → (q.group g).state = (s.part.group g).state)
      ∧ q.group g = { s.part.group g with
          state := (q.group g).state, controlTimer := some 20, move := some { m with lanes := (q.group g).records } }
      ∧ (q.group g).records.length = m.lanes.length
      ∧ s.part.Alone q g ∧ Kept s.part q [.samples, .queues, .clock, .tracks, .codes, .ctl, .link .a, .link .b]
      ∧ ∀ (n : Nat) (ln : Lane) (r : LaneRecord) (lead : Int), (s.part.group g).lanes[n]? = some ln → m.lanes[n]? = some r →
          (s.part.leads g m)[n]? = some lead →
          let x := s.part.chan ln.channel
          let y := q.chan ln.channel
          (q.group g).records[n]? = some (r.afterPeriod (s.part.group g).syncWindow lead x.pos)
          ∧ (r.state ≠ .arrived → r.remaining x.pos ≤ 5 →
              (x.state = .starting ∨ x.state = .moving →
                y = { x.stopped with watchArmed := false, demand := y.demand }
                ∧ (r.trim (trimOf (s.part.group g).syncWindow r.state lead) = r → y.demand = x.demand)
                ∧ (q.port ln.channel).output.brakeReleased = false ∧ (q.port ln.channel).output.run = false)
              ∧ (x.state = .stopping → y.state = .stopping ∧ y.pendingRelease = none ∧ y.watchArmed = false))

/-- Together: Claims.ControlPeriodStartsRunning, Claims.ControlPeriodTakesArrivals, Claims.ControlPeriodTrims,
Claims.SteadyPeriodConfirmsAndArrives. -/
def Obligations.ControlPeriodRunsAndArrives : Prop :=
  Claims.ControlPeriodStartsRunning ∧ Claims.ControlPeriodTakesArrivals ∧ Claims.ControlPeriodTrims
    ∧ Claims.SteadyPeriodConfirmsAndArrives

/-- R77, R84, R145, R147: at a steady control period with every lane ARRIVED and every channel HOLDING, on its target or off it, a
cue move completes: CUE_DONE, the group IDLE, its channels without a mover, and its queue told: an AFTER_PREVIOUS head dwells,
an AT_MARK head awaits its mark (R118, R119, R126). A track move goes on RUNNING, and the group joins the arrived set; with the
last group that a closing track awaits the play ends. -/
def Claims.ControlPeriodEndsTheMove : Prop :=
  ∀ (g : Grp) (m : MoveRecord) (s : State), s.part.ctl.held = false → (s.part.group g).controlTimer = some 0 →
    (s.part.group g).active = true → s.part.Landed g m →
    (∀ n, m.source = .cue n → s.part.HeadWaits g → Gives (.controlPeriod g) s fun q =>
      q.group g = { s.part.group g with state := .idle, move := none, controlTimer := none }
      ∧ q.codes.groups[g] = some (.cueDone n)
      ∧ (∀ ln ∈ (s.part.group g).lanes, (q.chan ln.channel).state = .idle ∧ (q.chan ln.channel).mover = .none
          ∧ (q.chan ln.channel).owner =
              if (s.part.chan ln.channel).releaseOnEnd then none else (s.part.chan ln.channel).owner)
      ∧ q.queue g = s.part.queueOnCompletion g ∧ s.part.OtherQueues q g
      ∧ (∀ h, h ≠ g → q.group h = s.part.group h) ∧ Kept s.part q [.samples, .clock, .tracks]
      ∧ (s.part.ctl.mode ≠ .parked → s.part.Alone q g ∧ (s.part.ctl.silenceDisarm = false → Kept s.part q [.ctl])))
    ∧ ∀ t, m.source = .track t → g ∈ (s.part.track t).playing →
      let awaited := ∃ h ∈ (s.part.track t).playing, h ≠ g ∧ h ∉ (s.part.track t).arrived
      ((s.part.track t).closing = false ∨ awaited → Gives (.controlPeriod g) s fun q =>
        q.group g = { s.part.group g with state := .running, controlTimer := some 20 }
        ∧ (∀ h, h ∈ (q.track t).arrived ↔ h = g ∨ h ∈ (s.part.track t).arrived)
        ∧ q.track t = { s.part.track t with arrived := (q.track t).arrived } ∧ (∀ u, u ≠ t → q.track u = s.part.track u)
        ∧ (∀ h, h ≠ g → q.group h = s.part.group h)
        ∧ Kept s.part q [.channels, .samples, .queues, .clock, .codes, .ctl, .link .a, .link .b])
      ∧ ((s.part.track t).closing = true → ¬awaited →
        (((s.part.track t).playing.flatMap fun h => (s.part.group h).lanes).map (·.channel)).Nodup →
        Gives (.controlPeriod g) s fun q =>
          q.track t = (s.part.track t).ended ∧ q.codes.tracks[t] = some .trackEnded
          ∧ q.group g = { s.part.group g with state := .idle, move := none, controlTimer := none })

/-- R77, R118 to R120, R122, R123, R126: the head behind a cue move that completes at a control period is judged in the same taking.
With a dwell of 0 (log 17), or a mark that the running clock has reached by no more than the late grace, it fires under its own
tier and origin link, on the part as the completion leaves it, its silence disarm judged (log 16), or is dropped with
CUE_REFUSED, here for the mode; a mark passed by more than the late grace drops it with CUE_LATE. A lane that is ARRIVED at its
start takes no demand (log 14). The three logs are the model's choice. -/
def Claims.CompletionJudgesTheHeadBehind : Prop :=
  ∀ (g : Grp) (m : MoveRecord) (n : Nat) (x : Cue) (rest : List Cue) (s : State), s.part.ctl.held = false →
    (s.part.group g).controlTimer = some 0 → (s.part.group g).active = true → s.part.Landed g m →
    m.source = .cue n → s.part.Armable g → (s.part.queue g).cues = x :: rest →
    let due := x.trigger = .afterPrevious 0 ∨ ∃ mark, x.trigger = .atMark mark ∧ s.part.clock.running = true
      ∧ mark ≤ s.part.clock.value ∧ s.part.clock.value ≤ mark + (s.part.group g).lateGrace
    let dropped : CueQueue := { cues := rest, blocked := !rest.isEmpty, arming := .none, dwellTimer := none }
    let p := s.part.completeCue g n
    Gives (.controlPeriod g) s fun q =>
      (due → p.Admits g x.tier x.origin (p.cueTargets g x) → p.Travels g (p.cueTargets g x) →
        p.Started q g x.tier x.origin (.cue x.number) (some x.speed) (cueSpeed x.speed) (p.cueTargets g x)
        ∧ q.queue g = (s.part.queue g).rest false ∧ q.codes.groups[g] = some (.cueDone n)
        ∧ s.part.Alone q g ∧ s.part.OtherQueues q g ∧ Kept s.part q [.samples, .clock, .tracks])
      ∧ (due → p.ctl.mode ≠ .armed →
        q.queue g = dropped ∧ q.codes.groups[g] = some (.cueRefused x.number .mode 0xFF) ∧ q.group g = p.group g)
      ∧ (∀ mark, x.trigger = .atMark mark → s.part.clock.running = true →
        mark + (s.part.group g).lateGrace < s.part.clock.value →
        q.queue g = dropped ∧ q.codes.groups[g] = some (.cueLate x.number) ∧ q.group g = p.group g)

/-- Together: Claims.ControlPeriodEndsTheMove, Claims.CompletionJudgesTheHeadBehind. -/
def Obligations.ControlPeriodCompletesTheMove : Prop :=
  Claims.ControlPeriodEndsTheMove ∧ Claims.CompletionJudgesTheHeadBehind

/-- R71, R72, R73: trim hold and sync loss judge a lane's lead: beyond the window a DRIVING lane is held, at half of it a TRIMMED
one resumes; the lowest lane whose lead exceeds the level limit loses sync. -/
def Claims.TrimAndSyncJudgeTheLead : Prop :=
  (∀ (window : Nat) (lead : Int),
    (trimOf window .driving lead = .hold ↔ (window : Int) < lead)
    ∧ (trimOf window .trimmed lead = .resume ↔ 2 * lead ≤ window)
    ∧ trimOf window .arrived lead = .keep)
  ∧ (∀ (r : LaneRecord), (r.trim .hold).demand = r.demand / 2 ∧ (r.trim .hold).state = .trimmed
    ∧ (r.trim .resume).demand = r.full ∧ (r.trim .resume).state = .driving)
  ∧ ∀ (p : Part) (g : Grp) (leads : List Int) (i : Nat), p.syncLost g leads = some i ↔
      (∃ x, leads[i]? = some x ∧ ((p.group g).levelLimit : Int) < x)
        ∧ ∀ j x, j < i → leads[j]? = some x → x ≤ (p.group g).levelLimit

/-- Together: Claims.LaneTravelFollowsSignAndRatio, Claims.LeadIsTheTravelBeyondTheLaggard,
Claims.LeadsAreOfTheTravelledDistances, Claims.LaggardHasTheSmallestFraction, Claims.LoadShiftTestIsExact, Claims.TrimAndSyncJudgeTheLead. -/
def Obligations.LaneArithmeticIsExact : Prop :=
  Claims.LaneTravelFollowsSignAndRatio
    ∧ Claims.LeadIsTheTravelBeyondTheLaggard
    ∧ Claims.LeadsAreOfTheTravelledDistances
    ∧ Claims.LaggardHasTheSmallestFraction
    ∧ Claims.LoadShiftTestIsExact
    ∧ Claims.TrimAndSyncJudgeTheLead

/-- R80, R81, R101: a group fault with a lane puts the group in STOPPING for a fault, keeps its cause, and enters the fault in the
lane channel's record, whichever of the three kinds it is. The lane entries stand as they were (R81); that the laggard's lane so
stays DRIVING when SYNC_LOST stops the group, where R78's table has it leave DRIVING, is the model's choice (log 32). -/
def Claims.GroupFaultNamesTheLane : Prop :=
  ∀ (p : Part) (g : Grp) (n : Nat) (ln : Lane) (m : MoveRecord) (cause : GroupFault) (k : FaultKind),
    (cause, k) ∈ [(GroupFault.syncLost n, FaultKind.syncLost), (.loadShift n, .loadShift), (.trackLag n, .trackLag)] →
    (p.group g).lanes[n]? = some ln → (p.group g).move = some m → (p.chan ln.channel).kind ≠ .absent →
    (p.chan ln.channel).mover = .group g → (p.chan ln.channel).state = .moving → (p.chan ln.channel).fault = none →
    let q := p.raiseGroupFault g n cause k
    (q.group g).state = .stopping ∧ (q.group g).fault = some cause
      ∧ (q.group g).move = some { m with reason := some .fault } ∧ (q.group g).controlTimer = none
      ∧ (q.chan ln.channel).state = .stopping
      ∧ (q.chan ln.channel).fault = some
          { first := k, position := (p.chan ln.channel).position, load := (p.chan ln.channel).load, further := [] }
      ∧ q.codes.faults[ln.channel] = some (.fault k)

/-- R69, R73, R74, R80: in a control period the lowest lane whose lead exceeds the level limit loses sync; with none, in RUNNING, the
first lane whose load has shifted fails. Either group fault names the lane, stops the group, and goes into the record of the
lane's running channel. A PREPARING group whose lanes are all confirmed is RUNNING in this period (R76). -/
def Claims.ControlPeriodRaisesGroupFaults : Prop :=
  ∀ (g : Grp) (m : MoveRecord) (n : Nat) (ln : Lane) (cause : GroupFault) (k : FaultKind) (s : State),
    s.part.ctl.held = false → (s.part.group g).controlTimer = some 0 → (s.part.group g).active = true →
    (s.part.group g).move = some m → m.lanes.length = (s.part.group g).lanes.length →
    ((s.part.group g).lanes.map (·.channel)).Nodup → (s.part.group g).lanes[n]? = some ln →
    (s.part.chan ln.channel).kind ≠ .absent → (s.part.chan ln.channel).mover = .group g →
    (s.part.chan ln.channel).state = .starting ∨ (s.part.chan ln.channel).state = .moving →
    (s.part.chan ln.channel).fault = none →
    let limit : Int := (s.part.group g).levelLimit
    let shifts := fun j => ∃ x r, (s.part.group g).lanes[j]? = some x ∧ m.lanes[j]? = some r
      ∧ loadShifted (s.part.group g).loadTolerance r.baseline (s.part.chan x.channel).load = true
    (cause = .syncLost n ∧ k = .syncLost ∧ (∃ x, (s.part.leads g m)[n]? = some x ∧ limit < x)
        ∧ (∀ j x, j < n → (s.part.leads g m)[j]? = some x → x ≤ limit)
      ∨ cause = .loadShift n ∧ k = .loadShift ∧ (∀ x ∈ s.part.leads g m, x ≤ limit)
        ∧ ((s.part.group g).state = .running ∨ ∀ r ∈ m.lanes, r.state = .arrived ∨ r.confirmed = true)
        ∧ shifts n ∧ ∀ j, j < n → ¬shifts j) →
    Gives (.controlPeriod g) s fun q =>
      (q.group g).state = .stopping ∧ (q.group g).fault = some cause ∧ (q.group g).controlTimer = none
      ∧ (q.group g).move.bind (·.reason) = some .fault
      ∧ (q.chan ln.channel).state = .stopping
      ∧ (q.chan ln.channel).fault = some
          { first := k, position := (s.part.chan ln.channel).position, load := (s.part.chan ln.channel).load, further := [] }
      ∧ q.codes.faults[ln.channel] = some (.fault k)
      ∧ (q.port ln.channel).output.brakeReleased = false ∧ (q.port ln.channel).output.run = false

/-- R82, R126, R145, R149: a STOPPING group whose lane channels are all HOLDING or FAULTED leaves STOPPING, by its stop reason and
kind of move, and its channels lose their mover. That the last group of a closing track abandons the play, with TRACK_STOPPED, is
log 18's, and that an abandoned play keeps the stored tier is log 19's; both are the model's choice. -/
def Claims.GroupLeavesStoppingByItsReason : Prop :=
  ∀ (p : Part) (g : Grp) (m : MoveRecord), (p.group g).state = .stopping → (p.group g).move = some m →
    (∀ ln ∈ (p.group g).lanes, (p.chan ln.channel).state = .holding ∨ (p.chan ln.channel).state = .faulted) →
    let q := p.exitStopping g
    p.Leaves q g m
    ∧ (p.EndsQuietly g m → ∀ ln ∈ (p.group g).lanes, (q.chan ln.channel).mover = .none
        ∧ (q.chan ln.channel).state = if (p.chan ln.channel).state = .holding then .idle else .faulted)

/-- R13, R14, R82, R163: a standstill that ends the STOPPING of a STOPPING group's last lane channel takes the group out of
STOPPING in the same taking. The channel is FAULTED with a fault record and IDLE without one, and every lane channel loses its
mover, and its owner where a silence had marked it. A release that waits for the standstill is no such end. A track whose last
group so leaves is abandoned, a closing one by log 18 and with its stored tier kept by log 19, both the model's choice. -/
def Claims.LastStandstillEndsTheMove : Prop :=
  ∀ (c : Chan) (y : Sample) (a b : Int) (g : Grp) (m : MoveRecord) (s : State), s.part.ctl.held = false →
    s.part.hasChan c = true → (s.part.chan c).kind ≠ .absent → (s.part.chan c).state = .stopping →
    (s.part.chan c).history.take 2 = [a, b] → max y.raw (max a b) - min y.raw (min a b) ≤ 2 →
    y.upperOpen = false → y.lowerOpen = false → y.driveFault = false →
    100 * min y.load 9999 ≤ (s.part.chan c).config.wll * (s.part.chan c).config.overloadPct →
    (s.part.chan c).direction = none → (s.part.chan c).jog = none → (s.part.chan c).watchBaseline = none →
    (s.part.chan c).progressTimer = .stopped → (s.part.chan c).mover = .group g →
    (s.part.chan c).fault.isSome = true ∨ (s.part.chan c).pendingRelease = none →
    (s.part.group g).state = .stopping → (s.part.group g).move = some m →
    (∃ ln ∈ (s.part.group g).lanes, ln.channel = c) →
    (∀ ln ∈ (s.part.group g).lanes, ln.channel ≠ c →
      (s.part.chan ln.channel).state = .holding ∨ (s.part.chan ln.channel).state = .faulted) →
    Gives (.feedbackArrival c y) s fun q =>
      s.part.Leaves q g m
      ∧ (s.part.EndsQuietly g m →
          (q.chan c).state = (if (s.part.chan c).fault.isSome then .faulted else .idle)
          ∧ (q.chan c).rest = y.raw ∧ (q.chan c).standstillTimer = none ∧ (q.chan c).fault = (s.part.chan c).fault
          ∧ ∀ ln ∈ (s.part.group g).lanes, (q.chan ln.channel).mover = .none
              ∧ (q.chan ln.channel).owner =
                  (if (s.part.chan ln.channel).releaseOnEnd then none else (s.part.chan ln.channel).owner)
              ∧ (ln.channel ≠ c → (q.chan ln.channel).state =
                  if (s.part.chan ln.channel).state = .holding then .idle else .faulted))
      ∧ Kept s.part q [.clock]

/-- Together: Claims.GroupFaultNamesTheLane, Claims.ControlPeriodRaisesGroupFaults, Claims.GroupLeavesStoppingByItsReason,
Claims.LastStandstillEndsTheMove. The abandoned end of a closing track (log 18) and the stored tier it keeps (log 19) are the
model's choice. -/
def Obligations.GroupsEnterAndLeaveStopping : Prop :=
  Claims.GroupFaultNamesTheLane ∧ Claims.ControlPeriodRaisesGroupFaults ∧ Claims.GroupLeavesStoppingByItsReason
    ∧ Claims.LastStandstillEndsTheMove

/-! ### Cue queues and the show clock -/

/-- R115 to R118, R120, R122, R123, R67: QUEUE_CUE appends the cue with its effective tier and origin link. Only an AT_MARK cue put
into an empty list of an IDLE, unbound group whose queue is neither blocked nor armed is armed. A mark that the clock has not
reached, or that stands before a STOPPED clock, leaves it waiting; one passed by more than the late grace drops it with CUE_LATE;
any other fires it, at once complete where nothing travels, or drops it with CUE_REFUSED, here for the mode. A lane that is
ARRIVED at its start takes no demand (log 14, the model's choice). -/
def Obligations.QueueCueAppendsTheCue : Prop :=
  ∀ (l : Link) (tier : Byte) (g : Grp) (x : Cue) (s : State), s.part.Ready l → tier.toNat ≤ 7 → x.Legal → s.part.Prepared →
    x.tier = s.part.effectiveTier l tier → x.origin = l → s.part.LanesAllow g (s.part.effectiveTier l tier) l →
    (s.part.group g).state ≠ .empty →
    ((∃ n, x.form = .absolute n) → ∀ ln, (s.part.group g).lanes.head? = some ln → ln.ratio = 0) →
    x.number ∉ (s.part.queue g).cues.map (·.number) → (s.part.queue g).cues.length < 8 →
    let free := (s.part.group g).state = .idle ∧ (s.part.group g).boundTrack = none ∧ (s.part.queue g).blocked = false
      ∧ (s.part.queue g).arming = .none ∧ (s.part.queue g).cues = []
    let running := s.part.clock.running = true
    let emptied : CueQueue := { cues := [], blocked := false, arming := .none, dwellTimer := none }
    let targets := s.part.cueTargets g x
    Gives (.queueCue l tier (queueCueBody g x)) s fun q =>
      let answers := s.part.Answers q l 0x22 [byteOf ((s.part.queue g).cues.length + 1)]
      (q.Accepted l 0x22 [byteOf ((s.part.queue g).cues.length + 1)] ∧ s.part.OtherQueues q g
        ∧ Kept s.part q [.samples, .clock, .tracks, .taken])
      ∧ (¬(free ∧ ∃ mark, x.trigger = .atMark mark) → answers [.channels, .groups, .codes]
          ∧ q.queue g = { s.part.queue g with cues := (s.part.queue g).cues ++ [x] })
      ∧ (free → ∀ mark, x.trigger = .atMark mark →
        (¬running ∨ s.part.clock.value < mark → answers [.channels, .groups, .codes]
          ∧ q.queue g = { s.part.queue g with cues := [x], arming := .awaitingMark })
        ∧ (running → mark + (s.part.group g).lateGrace < s.part.clock.value →
          q.queue g = emptied ∧ q.codes.groups[g] = some (.cueLate x.number) ∧ Kept s.part q [.channels, .groups])
        ∧ (running → mark ≤ s.part.clock.value → s.part.clock.value ≤ mark + (s.part.group g).lateGrace →
          (s.part.ctl.mode ≠ .armed → q.queue g = emptied
            ∧ q.codes.groups[g] = some (.cueRefused x.number .mode 0xFF) ∧ Kept s.part q [.channels, .groups])
          ∧ (s.part.Admits g x.tier l targets → q.queue g = emptied ∧ s.part.Alone q g
            ∧ (s.part.Travels g targets → answers [.codes]
              ∧ s.part.Started q g x.tier l (.cue x.number) (some x.speed) (cueSpeed x.speed) targets)
            ∧ (¬s.part.Travels g targets → q.codes.groups[g] = some (.cueDone x.number)
              ∧ q.group g = { s.part.group g with state := .idle, held := false, move := none, controlTimer := none }
              ∧ ∀ ln ∈ (s.part.group g).lanes, (q.chan ln.channel).state = .idle ∧ (q.chan ln.channel).mover = .none))))

/-- R119, R120, R122: the dwell of a head runs out, or the running clock reaches the mark of a waiting head or has passed it by no
more than the late grace, and the head fires under its own tier and origin link. A lane that is ARRIVED at its start takes no
demand (log 14, the model's choice). -/
def Claims.DwellAndMarkFireTheHead : Prop :=
  ∀ (i : Instr) (g : Grp) (x : Cue) (rest : List Cue) (s : State), s.part.ctl.held = false →
    (s.part.group g).state = .idle → (s.part.queue g).cues = x :: rest →
    (i = .dwellExpiry g ∧ (s.part.queue g).dwellTimer = some 0
      ∨ ∃ mark, i = .markReached g ∧ (s.part.queue g).arming = .awaitingMark ∧ x.trigger = .atMark mark
          ∧ s.part.clock.running = true ∧ mark ≤ s.part.clock.value
          ∧ s.part.clock.value ≤ mark + (s.part.group g).lateGrace) →
    s.part.Admits g x.tier x.origin (s.part.cueTargets g x) → s.part.Travels g (s.part.cueTargets g x) →
    Gives i s fun q =>
      s.part.Started q g x.tier x.origin (.cue x.number) (some x.speed) (cueSpeed x.speed) (s.part.cueTargets g x)
      ∧ s.part.Alone q g ∧ q.queue g = (s.part.queue g).rest ((s.part.queue g).blocked && !rest.isEmpty)
      ∧ s.part.OtherQueues q g ∧ Kept s.part q [.samples, .clock, .tracks, .codes, .ctl, .link .a, .link .b]

/-- R120, R123, R125: a head met later than the late grace is dropped with CUE_LATE, and a head whose fire is refused, here for
the mode, with CUE_REFUSED; a queue that still holds a cue is blocked, and nothing moves. -/
def Claims.LateAndRefusedHeadsAreDropped : Prop :=
  ∀ (g : Grp) (x : Cue) (rest : List Cue) (s : State), s.part.ctl.held = false →
    (s.part.queue g).cues = x :: rest → s.part.ctl.mode ≠ .parked →
    let dropped : CueQueue := { cues := rest, blocked := !rest.isEmpty, arming := .none, dwellTimer := none }
    (∀ mark, (s.part.queue g).arming = .awaitingMark → x.trigger = .atMark mark → s.part.clock.running = true →
      mark + (s.part.group g).lateGrace < s.part.clock.value → Gives (.markReached g) s fun q =>
        q.queue g = dropped ∧ q.codes.groups[g] = some (.cueLate x.number) ∧ s.part.OtherQueues q g
        ∧ Kept s.part q [.channels, .samples, .groups, .clock, .tracks, .ctl])
    ∧ (s.part.ctl.mode ≠ .armed → (s.part.queue g).dwellTimer = some 0 → Gives (.dwellExpiry g) s fun q =>
        q.queue g = dropped ∧ q.codes.groups[g] = some (.cueRefused x.number .mode 0xFF) ∧ s.part.OtherQueues q g
        ∧ Kept s.part q [.channels, .samples, .groups, .clock, .tracks, .ctl])

/-- Together: Claims.DwellAndMarkFireTheHead, Claims.LateAndRefusedHeadsAreDropped. -/
def Obligations.HeadsFireOrAreDropped : Prop :=
  Claims.DwellAndMarkFireTheHead ∧ Claims.LateAndRefusedHeadsAreDropped

/-- R129, R130: SET_CLOCK, whose reply carries the clock as it then stands, and the end of the clock, when no head that waits
for a mark is reached by it. -/
def Claims.SetClockSetsStartsAndHolds : Prop :=
  ∀ (l : Link) (tier a b c d : Byte) (s : State), s.part.Ready l → tier.toNat ≤ 7 →
    let n := a.toNat * 16777216 + b.toNat * 65536 + c.toNat * 256 + d.toNat
    let tells := fun (q : Part) (k : ShowClock) =>
      s.part.Answers q l 0x27 (wr32 k.value ++ [if k.running then 1 else 0])
          [.channels, .samples, .groups, .queues, .tracks, .codes]
        ∧ q.clock = k
    (s.part.clock.running = false → Gives (.setClockSet l tier [0, a, b, c, d]) s fun q =>
      tells q { value := n, running := false })
    ∧ (s.part.clock.running = true → Gives (.setClockSet l tier [0, a, b, c, d]) s fun q =>
      s.part.Refuses q l 0x27 .state 0xFF)
    ∧ (Gives (.setClockHold l tier [2, a, b, c, d]) s fun q => tells q { s.part.clock with running := false })
    ∧ (s.part.clock.running = true → Gives (.setClockStart l tier [1, a, b, c, d]) s fun q => tells q s.part.clock)
    ∧ (s.part.clock.running = false →
        (∀ g x rest mark, (s.part.queue g).arming = .awaitingMark → (s.part.queue g).cues = x :: rest →
          x.trigger = .atMark mark → s.part.clock.value < mark) →
        Gives (.setClockStart l tier [1, a, b, c, d]) s fun q =>
          tells q { s.part.clock with running := s.part.clock.value != 4294967295 })
    ∧ (s.part.clock = { value := 4294967295, running := true } → (∀ g, (s.part.queue g).arming ≠ .awaitingMark) →
        Gives .showClockSaturate s fun q =>
          q.clock = { value := 4294967295, running := false }
          ∧ Kept s.part q [.channels, .samples, .groups, .queues, .tracks, .codes, .ctl, .link .a, .link .b])

/-- R120, R122, R123, R125, R129, R130: the heads that a START judges, and the clock that reaches its last value, in whatever order
(log 5). A head whose mark lies ahead waits on; one met later than the late grace is dropped with CUE_LATE; any other fires
under its own tier and origin link, at once complete where nothing travels, or is dropped with CUE_REFUSED, here for the
mode. Heads that fire in the same taking are those of groups that share no channel. A queue that does not await a mark stays as
it is. A lane that is ARRIVED at its start takes no demand (log 14, the model's choice). -/
def Claims.ClockJudgesTheWaitingHeads : Prop :=
  ∀ (i : Instr) (l : Link) (tier a b c d : Byte) (s : State), s.part.ctl.held = false →
    (i = .setClockStart l tier [1, a, b, c, d] ∧ (s.part.link l).answering = none ∧ tier.toNat ≤ 7
        ∧ s.part.clock.running = false
      ∨ i = .showClockSaturate ∧ s.part.clock = { value := 4294967295, running := true }) →
    let v := s.part.clock.value
    Gives i s fun q =>
      let clock : ShowClock := { value := v, running := v != 4294967295 }
      q.clock = clock ∧ Kept s.part q [.samples, .tracks]
      ∧ (i ≠ .showClockSaturate → q.Accepted l 0x27 (wr32 v ++ [if clock.running then 1 else 0]))
      ∧ (∀ g, (s.part.queue g).arming ≠ .awaitingMark → q.queue g = s.part.queue g ∧ q.group g = s.part.group g)
      ∧ ∀ g x rest mark, (s.part.queue g).arming = .awaitingMark → (s.part.queue g).cues = x :: rest →
        x.trigger = .atMark mark →
        let dropped : CueQueue := { cues := rest, blocked := !rest.isEmpty, arming := .none, dwellTimer := none }
        let alone := ∀ h, h ≠ g → (s.part.queue h).arming ≠ .awaitingMark
        let apart := ∀ h, h ≠ g → (s.part.queue h).arming = .awaitingMark →
          ∀ ln ∈ (s.part.group h).lanes, ∀ k ∈ (s.part.group g).lanes, ln.channel ≠ k.channel
        let targets := s.part.cueTargets g x
        (v < mark → q.queue g = s.part.queue g ∧ q.group g = s.part.group g)
        ∧ (mark + (s.part.group g).lateGrace < v →
          q.queue g = dropped ∧ q.codes.groups[g] = some (.cueLate x.number) ∧ q.group g = s.part.group g)
        ∧ (mark ≤ v → v ≤ mark + (s.part.group g).lateGrace →
          (s.part.ctl.mode ≠ .armed → q.queue g = dropped
            ∧ q.codes.groups[g] = some (.cueRefused x.number .mode 0xFF) ∧ q.group g = s.part.group g)
          ∧ (s.part.Admits g x.tier x.origin targets → (s.part.group g).state = .idle → apart →
            s.part.ctl.silenceDisarm = false ∨ alone →
            (s.part.Travels g targets →
              s.part.Started q g x.tier x.origin (.cue x.number) (some x.speed) (cueSpeed x.speed) targets
              ∧ q.queue g = (s.part.queue g).rest ((s.part.queue g).blocked && !rest.isEmpty))
            ∧ (¬s.part.Travels g targets → rest = [] →
              q.queue g = dropped ∧ q.codes.groups[g] = some (.cueDone x.number)
              ∧ q.group g = { s.part.group g with state := .idle, held := false, move := none, controlTimer := none }
              ∧ ∀ ln ∈ (s.part.group g).lanes, (q.chan ln.channel).state = .idle
                  ∧ (q.chan ln.channel).mover = .none)))

/-- Together: Claims.SetClockSetsStartsAndHolds, Claims.ClockJudgesTheWaitingHeads. -/
def Obligations.SetClockSetsStartsAndHolds : Prop :=
  Claims.SetClockSetsStartsAndHolds ∧ Claims.ClockJudgesTheWaitingHeads

/-! ### Tracks -/

/-- R138, R118, R120, R122, R123, R125: UNBIND_TRACK judges arming on an AT_MARK head of an IDLE group whose queue is not blocked. A mark that the
clock has not reached, or that stands before a STOPPED clock, leaves the head waiting; one passed by more than the late
grace drops it with CUE_LATE; any other fires it, under its own tier and origin link, or drops it with CUE_REFUSED, here for the
mode. A head that is armed already, or of a blocked queue, stays as it is. A lane that is ARRIVED at its start takes no
demand (log 14, the model's choice). -/
def Claims.UnbindArmsAnAtMarkHead : Prop :=
  ∀ (l : Link) (tier : Byte) (t : Trk) (g : Grp) (x : Cue) (rest : List Cue) (mark : Nat) (s : State), s.part.Ready l →
    tier.toNat ≤ 7 → s.part.Prepared → (s.part.group g).state = .idle → g ∈ (s.part.track t).bound →
    (s.part.queue g).cues = x :: rest → x.trigger = .atMark mark →
    Gives (.unbindTrack l tier [byteOf t.val, byteOf g.val]) s fun q =>
      let free := (s.part.queue g).blocked = false ∧ (s.part.queue g).arming = .none
      let running := s.part.clock.running = true
      let p := s.part.modGroup g fun y => { y with boundTrack := none }
      (q.Accepted l 0x31 [] ∧ s.part.OtherQueues q g ∧ Kept s.part q [.samples, .clock])
      ∧ (¬free → q.queue g = s.part.queue g ∧ (q.group g).boundTrack = none)
      ∧ (free → ¬running ∨ s.part.clock.value < mark →
          q.queue g = { s.part.queue g with arming := .awaitingMark }
          ∧ q.group g = { s.part.group g with boundTrack := none } ∧ Kept s.part q [.channels, .codes])
      ∧ (free → running → mark + (s.part.group g).lateGrace < s.part.clock.value →
          q.queue g = { cues := rest, blocked := !rest.isEmpty, arming := .none, dwellTimer := none }
          ∧ q.group g = { s.part.group g with boundTrack := none } ∧ q.codes.groups[g] = some (.cueLate x.number)
          ∧ Kept s.part q [.channels])
      ∧ (free → running → mark ≤ s.part.clock.value → s.part.clock.value ≤ mark + (s.part.group g).lateGrace →
          (p.Admits g x.tier x.origin (p.cueTargets g x) → p.Travels g (p.cueTargets g x) →
            p.Started q g x.tier x.origin (.cue x.number) (some x.speed) (cueSpeed x.speed) (p.cueTargets g x)
            ∧ q.queue g = (s.part.queue g).rest false)
          ∧ (s.part.ctl.mode ≠ .armed →
            q.queue g = { cues := rest, blocked := !rest.isEmpty, arming := .none, dwellTimer := none }
            ∧ q.codes.groups[g] = some (.cueRefused x.number .mode 0xFF) ∧ Kept s.part q [.channels]))

/-- R137, R138, R121, R118: BIND_TRACK binds an IDLE group that shares no channel with the bound ones, names the owner link with
the first, and disarms the head; UNBIND_TRACK takes an IDLE group out, and with the last the owner and the waypoints. -/
def Claims.BindAndUnbindChangeTheBoundSet : Prop :=
  ∀ (l : Link) (tier : Byte) (t : Trk) (g : Grp) (s : State), s.part.Ready l → tier.toNat ≤ 7 → s.part.Prepared →
    (s.part.group g).state = .idle →
    ((s.part.track t).owner ≠ some l.other → (s.part.group g).boundTrack = none → (s.part.track t).state ≠ .playing →
      (s.part.track t).state ≠ .starved →
      (∀ h ∈ (s.part.track t).bound, ∀ x ∈ (s.part.group h).lanes, ∀ y ∈ (s.part.group g).lanes, x.channel ≠ y.channel) →
      Gives (.bindTrack l tier [byteOf t.val, byteOf g.val]) s fun q =>
        s.part.Answers q l 0x30 [] [.channels, .ports, .clock, .codes]
        ∧ q.group g = { s.part.group g with boundTrack := some t } ∧ (∀ h, h ≠ g → q.group h = s.part.group h)
        ∧ (∀ h, h ∈ (q.track t).bound ↔ h = g ∨ h ∈ (s.part.track t).bound)
        ∧ q.track t = { s.part.track t with
            bound := (q.track t).bound
            owner := if (s.part.track t).bound = [] then some l else (s.part.track t).owner }
        ∧ (∀ u, u ≠ t → q.track u = s.part.track u)
        ∧ q.queue g = { s.part.queue g with arming := .none, dwellTimer := none } ∧ s.part.OtherQueues q g)
    ∧ (g ∈ (s.part.track t).bound → (∀ x rest mark, (s.part.queue g).cues = x :: rest → x.trigger ≠ .atMark mark) →
      Gives (.unbindTrack l tier [byteOf t.val, byteOf g.val]) s fun q =>
        s.part.Answers q l 0x31 [] [.channels, .samples, .queues, .clock, .codes]
        ∧ q.group g = { s.part.group g with boundTrack := none } ∧ (∀ h, h ≠ g → q.group h = s.part.group h)
        ∧ (q.track t).bound = (s.part.track t).bound.filter (· ≠ g)
        ∧ ((q.track t).bound = [] → (q.track t).owner = none ∧ (q.track t).waypoints = [] ∧ (q.track t).state = .empty)
        ∧ ((q.track t).bound ≠ [] → (q.track t).owner = (s.part.track t).owner
            ∧ (q.track t).waypoints = (s.part.track t).waypoints ∧ (q.track t).state = (s.part.track t).state)
        ∧ ∀ u, u ≠ t → q.track u = s.part.track u)

/-- Together: Claims.UnbindArmsAnAtMarkHead, Claims.BindAndUnbindChangeTheBoundSet. -/
def Obligations.BindAndUnbindTrack : Prop :=
  Claims.UnbindArmsAnAtMarkHead ∧ Claims.BindAndUnbindChangeTheBoundSet

/-- R139, R140, R144, R85: FEED_TRACK appends its batch for the owner link. A STARVED track takes its head waypoint as the current
segment at once, and its playing groups that are PREPARING or RUNNING are retargeted to it (with the model's choices of logs 14,
15 and 33). -/
def Obligations.FeedTrackAppendsTheBatch : Prop :=
  ∀ (l : Link) (tier : Byte) (t : Trk) (batch : List Waypoint) (s : State), s.part.Ready l → tier.toNat ≤ 7 →
    s.part.Prepared → LegalBatch batch → (s.part.track t).owner = some l →
    (∀ w ∈ (s.part.track t).waypoints, w.last = false) → (s.part.track t).waypoints.length + batch.length ≤ 32 →
    ((s.part.track t).state ≠ .starved →
      Gives (.feedTrack l tier ([byteOf t.val, byteOf batch.length] ++ batch.flatMap waypointBytes)) s fun q =>
        s.part.Answers q l 0x32 [byteOf ((s.part.track t).waypoints.length + batch.length)]
          [.channels, .samples, .groups, .queues, .clock, .codes]
        ∧ q.track t = { s.part.track t with
            waypoints := (s.part.track t).waypoints ++ batch
            state := if (s.part.track t).state = .empty then .loaded else (s.part.track t).state }
        ∧ ∀ u, u ≠ t → q.track u = s.part.track u)
    ∧ ((s.part.track t).state = .starved → ∀ w rest, (s.part.track t).waypoints ++ batch = w :: rest →
      Gives (.feedTrack l tier ([byteOf t.val, byteOf batch.length] ++ batch.flatMap waypointBytes)) s fun q =>
        s.part.Answers q l 0x32 [byteOf rest.length] [.samples, .queues, .clock, .codes]
        ∧ q.track t = { (s.part.track t).segment w rest with starvationTimer := none }
        ∧ (∀ u, u ≠ t → q.track u = s.part.track u)
        ∧ (∀ g, g ∉ (s.part.track t).playing → q.group g = s.part.group g)
        ∧ s.part.SegmentGiven q t w)

/-- R85, R141, R10, R12, R98: a retarget of a group, of any number of lanes. One target out of bounds leaves everything as it
was; else every lane has its new target, travel and demand, and its channel follows. Within 5 mm of its target a lane is ARRIVED
and confirmed, and a running channel stops. Otherwise the lane is DRIVING: a channel MOVING that way takes the demand, and a
confirmed lane stays so; one that runs the other way stops with the release pending; one at rest starts. An ARRIVED lane takes
no demand and is confirmed, and a HOLD lane off its target travels too (logs 14, 15 and 33, the model's choices). -/
def Claims.RetargetGivesNewTargets : Prop :=
  ∀ (p : Part) (t : Trk) (g : Grp) (w : Waypoint) (m : MoveRecord), (p.group g).move = some m →
    m.lanes.length = (p.group g).lanes.length → (p.originList t g).length = (p.group g).lanes.length →
    ((p.group g).lanes.map (·.channel)).Nodup →
    let barred := ∃ lt ∈ (p.group g).lanes.zip (p.segmentTargets t g w), (p.chan lt.1.channel).Bars lt.2
    let q := p.retarget g (p.segmentPlan t g w)
    (barred → q = p)
    ∧ (¬barred →
        p.Alone q g ∧ Kept p q [.ports, .samples, .queues, .clock, .tracks, .codes, .ctl, .link .a, .link .b]
        ∧ (∀ c, (∀ ln ∈ (p.group g).lanes, ln.channel ≠ c) → q.chan c = p.chan c)
        ∧ (q.group g).records.length = m.lanes.length
        ∧ q.group g = { p.group g with
            move := some { m with lanes := (q.group g).records }
            state := if (q.group g).records.all (·.confirmed) then (p.group g).state else .preparing }
        ∧ ∀ (n : Nat) (ln : Lane) (r : LaneRecord) (target : Int), (p.group g).lanes[n]? = some ln → m.lanes[n]? = some r →
            (p.segmentTargets t g w)[n]? = some target →
            let x := p.chan ln.channel
            let z := q.chan ln.channel
            let travel := target - x.pos
            let way : Dir := if travel < 0 then .down else .up
            let demand :=
              if x.kind = .variableSpeed then min (p.segmentSpeed w.duration ln target) x.config.nominalSpeed else 0
            (travel.natAbs ≤ 5 →
              (q.group g).records[n]? = some { r with
                start := x.pos, target := target, travel := travel, state := .arrived, confirmed := true, demand := 0, full := 0 }
              ∧ z.watchArmed = false ∧ z.progressTimer = .stopped
              ∧ (x.state = .starting ∨ x.state = .moving →
                  z.state = .stopping ∧ z.direction = none ∧ z.pendingRelease = none)
              ∧ (x.state = .stopping → z.state = .stopping ∧ z.pendingRelease = none)
              ∧ (x.state = .holding → z.state = .holding))
            ∧ (5 < travel.natAbs →
              (q.group g).records[n]? = some { r with
                start := x.pos, target := target, travel := travel, state := .driving
                confirmed := r.confirmed && (x.state == .moving && x.direction == some way), demand := demand, full := demand }
              ∧ z.watchArmed = true
              ∧ (x.state = .holding →
                  z.state = .starting ∧ z.direction = some way ∧ z.demand = demand ∧ z.confirmMark = some x.raw
                    ∧ z.confirmTimer = some 600)
              ∧ (x.state = .starting ∨ x.state = .moving →
                  (x.direction = some way → z.state = x.state ∧ z.direction = some way ∧ z.demand = demand)
                  ∧ (x.direction ≠ some way →
                      z.state = .stopping ∧ z.direction = none ∧ z.pendingRelease = some { direction := way, demand := demand }))
              ∧ (x.state = .stopping → x.fault = none → x.mover ≠ .none →
                  z.state = .stopping ∧ z.pendingRelease = some { direction := way, demand := demand })))

/-- R142 to R144, R141, R66: PLAY_TRACK starts the play in one taking. The head waypoint is the current segment, every bound group
has its origins and plays, and each fires its track move toward its segment targets, a HOLD lane off its origin too by log 33,
and an ARRIVED lane without a demand by log 14 (the model's choices). -/
def Claims.PlayTrackStartsTheBoundGroups : Prop :=
  ∀ (l : Link) (tier : Byte) (t : Trk) (w : Waypoint) (rest : List Waypoint) (s : State), s.part.Ready l → tier.toNat ≤ 7 →
    s.part.ctl.mode = .armed → (s.part.track t).owner = some l → (s.part.track t).state = .loaded →
    (s.part.track t).waypoints = w :: rest → (s.part.track t).bound.Nodup →
    (((s.part.track t).bound.flatMap fun g => (s.part.group g).lanes).map (·.channel)).Nodup →
    (∀ g ∈ (s.part.track t).bound,
      (s.part.group g).state = .idle ∧ s.part.LanesAllow g (s.part.effectiveTier l tier) l
      ∧ (s.part.originList t g).length = (s.part.group g).lanes.length
      ∧ (∀ ln ∈ (s.part.group g).lanes, (s.part.chan ln.channel).state = .idle ∧ (s.part.chan ln.channel).mover = .none)
      ∧ ∀ lt ∈ (s.part.group g).lanes.zip (s.part.segmentTargets t g w),
          0 ≤ lt.2 ∧ lt.2 ≤ 60000 ∧ ((s.part.chan lt.1.channel).config.softLower : Int) ≤ lt.2
            ∧ lt.2 ≤ (s.part.chan lt.1.channel).config.softUpper) →
    Gives (.playTrack l tier [byteOf t.val]) s fun q =>
      s.part.Answers q l 0x33 [] [.samples, .queues, .clock, .codes]
      ∧ q.track t = { (s.part.track t).segment w rest with
          playing := (s.part.track t).bound, tier := some (s.part.effectiveTier l tier), origins := (q.track t).origins }
      ∧ (∀ u, u ≠ t → q.track u = s.part.track u)
      ∧ (∀ g ∈ (s.part.track t).bound,
          (q.track t).origins[g] = some (s.part.originList t g)
          ∧ s.part.Started q g (s.part.effectiveTier l tier) l (.track t) none (s.part.segmentSpeed w.duration)
              (s.part.segmentTargets t g w))
      ∧ (∀ g, g ∉ (s.part.track t).bound → q.group g = s.part.group g)
      ∧ ∀ c, (∀ g ∈ (s.part.track t).bound, ∀ ln ∈ (s.part.group g).lanes, ln.channel ≠ c) → q.chan c = s.part.chan c

/-- R142, R65: what PLAY_TRACK is refused for, each check after those before it: RANGE and MODE; TIER with the first lane channel
of the bound groups that fails; CLAIM for a link that is not the track's owner, a track without groups included, then for the
first channel that is not the owner's; UNREFERENCED for the first channel; STATE for a play under way, an empty list, a group
that is not IDLE, then for the first channel that cannot be reserved; LIMIT for the first channel whose target is out of
bounds. A refusal starts no group, reserves no channel and takes no origin. -/
def Claims.PlayTrackRefusals : Prop :=
  ∀ (l : Link) (tier b : Byte) (t : Trk) (s : State), s.part.Ready l → tier.toNat ≤ 7 →
    let p := s.part
    let lanes := p.trackLanes t
    let refused := fun code index => Gives (.playTrack l tier [byteOf t.val]) s fun q => p.Refuses q l 0x33 code index
    let refusedAt := fun (code : Result) (bad : Channel → Prop) => ∀ n ln, lanes[n]? = some ln → p.FirstIn lanes n bad →
      refused code (byteOf ln.channel.val)
    (2 ≤ b.toNat → Gives (.playTrack l tier [b]) s fun q => p.Refuses q l 0x33 .range 0xFF)
    ∧ (p.ctl.mode ≠ .armed → refused .mode 0xFF)
    ∧ (p.ctl.mode = .armed →
      refusedAt .tier (fun x => ¬x.Lets (p.effectiveTier l tier))
      ∧ ((∀ ln ∈ lanes, (p.chan ln.channel).Lets (p.effectiveTier l tier)) →
        ((p.track t).owner ≠ some l → refused .claim 0xFF)
        ∧ ((p.track t).owner = some l →
          refusedAt .claim (fun x => x.owner ≠ some l)
          ∧ ((∀ ln ∈ lanes, (p.chan ln.channel).owner = some l) →
            refusedAt .unreferenced (fun x => x.referenced = false)
            ∧ ((∀ ln ∈ lanes, (p.chan ln.channel).referenced = true) →
              ((p.track t).state = .playing ∨ (p.track t).state = .starved → refused .state 0xFF)
              ∧ ((p.track t).waypoints = [] → refused .state 0xFF)
              ∧ ((∃ g ∈ (p.track t).bound, (p.group g).state ≠ .idle) → refused .state 0xFF)
              ∧ ∀ w rest, (p.track t).waypoints = w :: rest → (p.track t).state ≠ .playing →
                (p.track t).state ≠ .starved → (∀ g ∈ (p.track t).bound, (p.group g).state = .idle) →
                refusedAt .state (fun x => x.state ≠ .idle ∨ x.mover ≠ .none)
                ∧ ((∀ ln ∈ lanes, (p.chan ln.channel).state = .idle ∧ (p.chan ln.channel).mover = .none) →
                  let aims := (p.track t).bound.flatMap fun g => (p.group g).lanes.zip (p.segmentTargets t g w)
                  ∀ (n : Nat) (lt : Lane × Int), aims[n]? = some lt → (p.chan lt.1.channel).Bars lt.2 →
                    (∀ (k : Nat) (u : Lane × Int), k < n → aims[k]? = some u → ¬(p.chan u.1.channel).Bars u.2) →
                    refused .limit (byteOf lt.1.channel.val)))))))

/-- Together: Claims.PlayTrackStartsTheBoundGroups, Claims.PlayTrackRefusals. -/
def Obligations.PlayTrackStartsTheBoundGroups : Prop :=
  Claims.PlayTrackStartsTheBoundGroups ∧ Claims.PlayTrackRefusals

/-- R148, R81, R82: STOP_TRACK stops the play of a PLAYING or STARVED track with TRACK_STOPPED, and discards the origins of any
other. A PREPARING or RUNNING group of the play is STOPPING with reason REQUEST while a lane channel is under way, and with all
of them at rest it is IDLE without a move in the same taking, its movers cleared; a STOPPING group keeps its reason, and no group
raises an event. The watch of a channel goes with its mover (log 20, the model's choice). -/
def Obligations.StopTrackEndsThePlay : Prop :=
  ∀ (l : Link) (tier : Byte) (t : Trk) (s : State), s.part.Ready l → tier.toNat ≤ 7 →
    ((s.part.track t).state = .playing ∨ (s.part.track t).state = .starved → s.part.ctl.mode ≠ .parked →
      (∀ g ∈ (s.part.track t).playing, ∀ m, (s.part.group g).move = some m → m.source = .track t) →
      Gives (.stopTrack l tier [byteOf t.val]) s fun q =>
        q.Accepted l 0x34 [] ∧ q.track t = (s.part.track t).ended ∧ q.codes.tracks[t] = some .trackStopped
        ∧ (∀ g ∈ (s.part.track t).playing, (q.group g).active = false
            ∧ ((s.part.group g).active = true → s.part.Underway g → (q.group g).state = .stopping
              ∧ (q.group g).move = (s.part.group g).move.map fun m => { m with reason := some .request }))
        ∧ ((((s.part.track t).playing.flatMap fun g => (s.part.group g).lanes).map (·.channel)).Nodup →
            s.part.PlayersEnd q t .request)
        ∧ (∀ g ∈ (s.part.track t).playing, (s.part.group g).active = true → ∀ ln ∈ (s.part.group g).lanes,
            (q.port ln.channel).output.brakeReleased = false ∧ (q.port ln.channel).output.run = false)
        ∧ q.codes.groups = s.part.codes.groups ∧ (∀ u, u ≠ t → q.track u = s.part.track u)
        ∧ Kept s.part q [.samples, .queues, .clock, .taken])
    ∧ ((s.part.track t).state = .empty ∨ (s.part.track t).state = .loaded →
      Gives (.stopTrack l tier [byteOf t.val]) s fun q =>
        s.part.Answers q l 0x34 [] [.channels, .samples, .groups, .queues, .clock, .codes]
        ∧ q.track t = { s.part.track t with origins := Vector.replicate 8 none }
        ∧ ∀ u, u ≠ t → q.track u = s.part.track u)

/-- R146, R144, R85: the segment timer runs out, with no lane lagging. An END segment sets the closing flag and stays current
while groups are awaited; with an empty list the track starves, with TRACK_STARVED; else the head waypoint is the next segment,
and the playing groups that are PREPARING or RUNNING are retargeted to it (with the model's choices of logs 14, 15 and 33). -/
def Claims.SegmentExpiryTakesTheNextSegment : Prop :=
  ∀ (t : Trk) (w : Waypoint) (s : State), s.part.ctl.held = false → (s.part.track t).segmentTimer = some 0 →
    (s.part.track t).current = some w → (s.part.track t).state = .playing → s.part.KeepsUp t w →
    (w.last = true → (∃ g ∈ (s.part.track t).playing, g ∉ (s.part.track t).arrived) →
      Gives (.segmentTimerExpiry t) s fun q =>
        q.track t = { s.part.track t with segmentTimer := none, closing := true }
        ∧ (∀ u, u ≠ t → q.track u = s.part.track u)
        ∧ Kept s.part q [.channels, .samples, .groups, .queues, .clock, .codes, .ctl, .link .a, .link .b])
    ∧ (w.last = false → (s.part.track t).waypoints = [] → s.part.ctl.mode ≠ .parked →
      Gives (.segmentTimerExpiry t) s fun q =>
        q.track t = { s.part.track t with
          segmentTimer := none, current := none, state := .starved, starvationTimer := some 10000 }
        ∧ (∀ u, u ≠ t → q.track u = s.part.track u) ∧ q.codes.tracks[t] = some .trackStarved
        ∧ Kept s.part q [.channels, .samples, .groups, .queues, .clock, .ctl])
    ∧ (∀ v rest, w.last = false → (s.part.track t).waypoints = v :: rest → Gives (.segmentTimerExpiry t) s fun q =>
        q.track t = (s.part.track t).segment v rest ∧ (∀ u, u ≠ t → q.track u = s.part.track u)
        ∧ (∀ g, g ∉ (s.part.track t).playing → q.group g = s.part.group g)
        ∧ s.part.SegmentGiven q t v
        ∧ Kept s.part q [.samples, .queues, .clock, .codes, .ctl, .link .a, .link .b])

/-- R146, R80: at the expiry of a segment the first lane of a moving group that stands farther than the group's level limit from
its target for that segment lags: the group stops with TRACK_LAG, the fault goes into the lane channel's record, and the track
raises TRACK_LAG with group and lane, after which the expiring waypoint is judged as for the other groups. The others that are
PREPARING or RUNNING are retargeted to the next segment (R144). -/
def Claims.SegmentExpiryJudgesLag : Prop :=
  ∀ (t : Trk) (w : Waypoint) (g : Grp) (n : Nat) (ln : Lane) (m : MoveRecord) (s : State), s.part.ctl.held = false →
    (s.part.track t).segmentTimer = some 0 → (s.part.track t).current = some w → (s.part.track t).state = .playing →
    g ∈ (s.part.track t).playing → (s.part.track t).playing.Nodup →
    (((s.part.track t).playing.flatMap fun h => (s.part.group h).lanes).map (·.channel)).Nodup →
    (s.part.group g).active = true → (s.part.group g).move = some m → (s.part.group g).lanes[n]? = some ln →
    (s.part.chan ln.channel).kind ≠ .absent → (s.part.chan ln.channel).mover = .group g →
    (s.part.chan ln.channel).state = .starting ∨ (s.part.chan ln.channel).state = .moving →
    (s.part.chan ln.channel).fault = none →
    let far := fun h j => ∃ lt, ((s.part.group h).lanes.zip (s.part.segmentTargets t h w))[j]? = some lt
      ∧ (s.part.group h).levelLimit < ((s.part.chan lt.1.channel).pos - lt.2).natAbs
    far g n → (∀ j, j < n → ¬far g j) → (∀ h ∈ (s.part.track t).playing, h ≠ g → ∀ j, ¬far h j) →
    Gives (.segmentTimerExpiry t) s fun q =>
      (q.group g).state = .stopping ∧ (q.group g).fault = some (.trackLag n)
      ∧ (q.group g).move = some { m with reason := some .fault } ∧ (q.group g).controlTimer = none
      ∧ (q.chan ln.channel).state = .stopping
      ∧ (q.chan ln.channel).fault = some
          { first := .trackLag, position := (s.part.chan ln.channel).position, load := (s.part.chan ln.channel).load
            further := [] }
      ∧ q.codes.faults[ln.channel] = some (.fault .trackLag)
      ∧ (w.last = true ∧ g ∉ (s.part.track t).arrived → q.codes.tracks[t] = some (.trackLag g n)
          ∧ q.track t = { s.part.track t with segmentTimer := none, closing := true })
      ∧ (∀ v rest, w.last = false → (s.part.track t).waypoints = v :: rest → q.codes.tracks[t] = some (.trackLag g n)
          ∧ q.track t = (s.part.track t).segment v rest
          ∧ (s.part.ctl.mode ≠ .parked → s.part.PlaysApart t →
              ∀ h ∈ (s.part.track t).playing, h ≠ g → (s.part.group h).active = true → s.part.Retargeted q t h v))
      ∧ (w.last = false → (s.part.track t).waypoints = [] → q.codes.tracks[t] = some .trackStarved)

/-- Together: Claims.SegmentExpiryTakesTheNextSegment, Claims.SegmentExpiryJudgesLag, Claims.RetargetGivesNewTargets. -/
def Obligations.SegmentExpiryGivesTheNextSegment : Prop :=
  Claims.SegmentExpiryTakesTheNextSegment ∧ Claims.SegmentExpiryJudgesLag ∧ Claims.RetargetGivesNewTargets

/-- R146, R147, R84: the play ends when an END segment runs out with every playing group arrived, with TRACK_ENDED, and when the
starvation timer runs out, with TRACK_STOPPED. Each group whose lane channels all are HOLDING completes at once to IDLE; a
PREPARING or RUNNING one with a lane channel under way is STOPPING with reason COMPLETE, and a STOPPING one keeps its reason. The
watch of a channel goes with its mover (log 20, the model's choice). -/
def Obligations.PlayEndsWithACompletionOrder : Prop :=
  ∀ (t : Trk) (i : Instr) (e : Event) (s : State), s.part.ctl.held = false → s.part.ctl.mode ≠ .parked →
    (((s.part.track t).playing.flatMap fun g => (s.part.group g).lanes).map (·.channel)).Nodup →
    (i = .starvationTimerExpiry t ∧ (s.part.track t).starvationTimer = some 0 ∧ e = .trackStopped
      ∨ ∃ w, i = .segmentTimerExpiry t ∧ (s.part.track t).segmentTimer = some 0 ∧ (s.part.track t).current = some w
          ∧ w.last = true ∧ (s.part.track t).state = .playing ∧ s.part.KeepsUp t w
          ∧ (∀ g ∈ (s.part.track t).playing, g ∈ (s.part.track t).arrived) ∧ e = .trackEnded) →
    Gives i s fun q =>
      q.track t = (s.part.track t).ended ∧ q.codes.tracks[t] = some e
      ∧ (∀ g ∈ (s.part.track t).playing, (q.group g).active = false
          ∧ ∀ m, (s.part.group g).active = true → (s.part.group g).move = some m → m.source = .track t →
              (∀ ln ∈ (s.part.group g).lanes, (s.part.chan ln.channel).state = .holding) →
              (q.group g).state = .idle ∧ (q.group g).move = none
                ∧ ∀ ln ∈ (s.part.group g).lanes, (q.chan ln.channel).mover = .none)
      ∧ s.part.PlayersEnd q t .complete
      ∧ (∀ u, u ≠ t → q.track u = s.part.track u)
      ∧ (∀ g, g ∉ (s.part.track t).playing → q.group g = s.part.group g)
      ∧ Kept s.part q [.samples, .queues, .clock]

/-! ### Snapshots and readback -/

/-- R180, R181, R189: LATCH captures into each selected empty slot of its targets, with the clock's value as stamp, and counts the
captures; READ_SNAPSHOT returns each member's records, from its slots or live, and empties the slots. -/
def Obligations.LatchCapturesAndReadSnapshotFrees : Prop :=
  ∀ (l : Link) (tier b sel : Byte) (f e : Chan) (g : Grp) (s : State), s.part.Ready l → tier.toNat ≤ 7 →
    let status := sel = 1 ∨ sel = 3
    let position := sel = 2 ∨ sel = 3
    let latched := fun x : Channel => { x with
      statusSlot := if status ∧ x.statusSlot = none then
          some { state := x.state, owner := x.owner, mover := x.mover, referenced := x.referenced, fault := x.fault
                 stamp := s.part.clock.value }
        else x.statusSlot
      positionSlot := if position ∧ x.positionSlot = none then
          some { position := if x.referenced then some (x.raw + x.offset) else none, raw := x.raw, load := x.load
                 stamp := s.part.clock.value }
        else x.positionSlot }
    let count := fun test : Chan → Bool =>
      (allChans.countP fun c => test c && decide (status ∧ (s.part.chan c).statusSlot = none))
        + allChans.countP fun c => test c && decide (position ∧ (s.part.chan c).positionSlot = none)
    let lane := fun c => (s.part.group g).lanes.any (·.channel == c)
    ((status ∨ position) → s.part.hasChan f = true → s.part.hasChan e = true →
      Gives (.latch l tier [0, byteOf f.val, byteOf e.val, sel]) s fun q =>
        s.part.Answers q l 0x40 [byteOf (count fun c => decide (f ≤ c ∧ c ≤ e))]
          [.ports, .groups, .queues, .clock, .tracks, .codes]
        ∧ ∀ c, q.chan c = if f ≤ c ∧ c ≤ e then latched (s.part.chan c) else s.part.chan c)
    ∧ ((status ∨ position) → (s.part.group g).state ≠ .empty → ((s.part.group g).lanes.map (·.channel)).Nodup →
      Gives (.latch l tier [1, byteOf g.val, b, sel]) s fun q =>
        s.part.Answers q l 0x40 [byteOf (count lane)] [.ports, .groups, .queues, .clock, .tracks, .codes]
        ∧ ∀ c, q.chan c = if lane c then latched (s.part.chan c) else s.part.chan c)
    ∧ (s.part.hasChan f = true → s.part.hasChan e = true → e.val < f.val + 8 →
      Gives (.readSnapshot l tier [byteOf f.val, byteOf e.val]) s fun q =>
        let members := allChans.filter fun c => decide (f ≤ c ∧ c ≤ e)
        s.part.Answers q l 0x41
          (byteOf members.length :: members.flatMap fun c =>
            let x := s.part.chan c
            snapshotBytes c (x.statusSlot.getD (x.statusRecord s.part.clock.value)) x.statusSlot.isSome
              (x.positionSlot.getD (x.positionRecord s.part.clock.value)) x.positionSlot.isSome)
          [.ports, .groups, .queues, .clock, .tracks, .codes]
        ∧ ∀ c, q.chan c = if f ≤ c ∧ c ≤ e then { s.part.chan c with statusSlot := none, positionSlot := none }
            else s.part.chan c)
    ∧ (s.part.hasChan f = true → s.part.hasChan e = true → f.val + 8 ≤ e.val →
      Gives (.readSnapshot l tier [byteOf f.val, byteOf e.val]) s fun q =>
        s.part.Refuses q l 0x41 .range (byteOf (f.val + 8)))

/-- R183 to R185: READ_GROUP, READ_CUES and READ_TRACK carry the record as its block holds it, and change nothing. What is sent of
an absent bound track or group fault record is a free value (log 8), and the order of fields is log 22's. -/
def Obligations.ReadbackChangesNothing : Prop :=
  ∀ (l : Link) (tier b : Byte) (s : State), s.part.Ready l → tier.toNat ≤ 7 →
    (∀ g, byteOf g.val = b →
      (Gives (.readGroup l tier [b]) s fun q =>
        let x := s.part.group g
        s.part.Answers q l 0x42
          ([groupStateCode x.state, byteOf x.syncWindow] ++ wr16 x.levelLimit ++ [byteOf x.loadTolerance]
            ++ wr16 x.lateGrace ++ (byteOf x.lanes.length :: x.lanes.flatMap laneBytes)
            ++ [boundTrackByte x.boundTrack, if x.held then 1 else 0] ++ faultRecordBytes x.fault
            ++ match x.move with
               | some m => [linkCode m.origin, byteOf m.tier] ++ sourceBytes m.source ++ wrLoad m.speed
                   ++ [reasonCode m.reason] ++ m.lanes.flatMap laneRecordBytes
               | none => [])
          [.channels, .ports, .groups, .queues, .clock, .tracks, .codes])
      ∧ (Gives (.readCues l tier [b]) s fun q =>
        let x := s.part.queue g
        s.part.Answers q l 0x43
          ([if x.blocked then 1 else 0, armingCode x.arming]
            ++ (match x.dwellTimer with
                | some n => wr32 n
                | none => [])
            ++ byteOf x.cues.length :: x.cues.flatMap cueBytes)
          [.channels, .ports, .groups, .queues, .clock, .tracks, .codes]))
    ∧ (8 ≤ b.toNat → (Gives (.readGroup l tier [b]) s fun q => s.part.Refuses q l 0x42 .range 0xFF)
        ∧ (Gives (.readCues l tier [b]) s fun q => s.part.Refuses q l 0x43 .range 0xFF))
    ∧ (∀ t, byteOf t.val = b → Gives (.readTrack l tier [b]) s fun q =>
        let x := s.part.track t
        let groups := fun set : List Grp => byteOf set.length :: set.map fun g => byteOf g.val
        s.part.Answers q l 0x44
          ([trackStateCode x.state, ownerCode x.owner, if x.closing then 1 else 0, match x.tier with
              | some n => byteOf n
              | none => 0xFF]
            ++ groups x.bound ++ groups x.playing ++ groups x.arrived
            ++ (match x.current with
                | some w => wrS16 w.offset ++ wr16 w.duration ++ [if w.last then 1 else 0]
                | none => [0, 0, 0, 0, 0])
            ++ timeLeft x.segmentTimer ++ timeLeft x.starvationTimer ++ [byteOf x.waypoints.length]
            ++ x.bound.flatMap fun g =>
              match x.origins[g] with
              | some o => o.flatMap fun n => wrPos (some n)
              | none => (s.part.group g).lanes.flatMap fun _ => wrPos none)
          [.channels, .ports, .groups, .queues, .clock, .tracks, .codes])
    ∧ (2 ≤ b.toNat → Gives (.readTrack l tier [b]) s fun q => s.part.Refuses q l 0x44 .range 0xFF)
end

