-- ==== Sys2Proof/Laws/State.lean ====
section
/-! SUPPORT. Reading a record after an update: one lemma for each update and each field or reader. -/

namespace Sys2Proof.Machine

/-! ### What an update leaves in place -/

@[simp] theorem Part.setChan_ports (p : Part) (c : Chan) (x : Channel) : (p.setChan c x).ports = p.ports := rfl
@[simp] theorem Part.setChan_groups (p : Part) (c : Chan) (x : Channel) : (p.setChan c x).groups = p.groups := rfl
@[simp] theorem Part.setChan_queues (p : Part) (c : Chan) (x : Channel) : (p.setChan c x).queues = p.queues := rfl
@[simp] theorem Part.setChan_clock (p : Part) (c : Chan) (x : Channel) : (p.setChan c x).clock = p.clock := rfl
@[simp] theorem Part.setChan_tracks (p : Part) (c : Chan) (x : Channel) : (p.setChan c x).tracks = p.tracks := rfl
@[simp] theorem Part.setChan_linkA (p : Part) (c : Chan) (x : Channel) : (p.setChan c x).linkA = p.linkA := rfl
@[simp] theorem Part.setChan_linkB (p : Part) (c : Chan) (x : Channel) : (p.setChan c x).linkB = p.linkB := rfl
@[simp] theorem Part.setChan_codes (p : Part) (c : Chan) (x : Channel) : (p.setChan c x).codes = p.codes := rfl
@[simp] theorem Part.setChan_ctl (p : Part) (c : Chan) (x : Channel) : (p.setChan c x).ctl = p.ctl := rfl
@[simp] theorem Part.setChan_draws (p : Part) (c : Chan) (x : Channel) : (p.setChan c x).draws = p.draws := rfl
@[simp] theorem Part.setChan_port (p : Part) (c : Chan) (x : Channel) (d : Chan) :
    (p.setChan c x).port d = p.port d := rfl
@[simp] theorem Part.setChan_group (p : Part) (c : Chan) (x : Channel) (h : Grp) :
    (p.setChan c x).group h = p.group h := rfl
@[simp] theorem Part.setChan_queue (p : Part) (c : Chan) (x : Channel) (h : Grp) :
    (p.setChan c x).queue h = p.queue h := rfl
@[simp] theorem Part.setChan_track (p : Part) (c : Chan) (x : Channel) (u : Trk) :
    (p.setChan c x).track u = p.track u := rfl
@[simp] theorem Part.setChan_link (p : Part) (c : Chan) (x : Channel) (l : Link) :
    (p.setChan c x).link l = p.link l := by cases l <;> rfl

@[simp] theorem Part.modChan_ports (p : Part) (c : Chan) (f : Channel → Channel) : (p.modChan c f).ports = p.ports := rfl
@[simp] theorem Part.modChan_groups (p : Part) (c : Chan) (f : Channel → Channel) : (p.modChan c f).groups = p.groups := rfl
@[simp] theorem Part.modChan_queues (p : Part) (c : Chan) (f : Channel → Channel) : (p.modChan c f).queues = p.queues := rfl
@[simp] theorem Part.modChan_clock (p : Part) (c : Chan) (f : Channel → Channel) : (p.modChan c f).clock = p.clock := rfl
@[simp] theorem Part.modChan_tracks (p : Part) (c : Chan) (f : Channel → Channel) : (p.modChan c f).tracks = p.tracks := rfl
@[simp] theorem Part.modChan_linkA (p : Part) (c : Chan) (f : Channel → Channel) : (p.modChan c f).linkA = p.linkA := rfl
@[simp] theorem Part.modChan_linkB (p : Part) (c : Chan) (f : Channel → Channel) : (p.modChan c f).linkB = p.linkB := rfl
@[simp] theorem Part.modChan_codes (p : Part) (c : Chan) (f : Channel → Channel) : (p.modChan c f).codes = p.codes := rfl
@[simp] theorem Part.modChan_ctl (p : Part) (c : Chan) (f : Channel → Channel) : (p.modChan c f).ctl = p.ctl := rfl
@[simp] theorem Part.modChan_draws (p : Part) (c : Chan) (f : Channel → Channel) : (p.modChan c f).draws = p.draws := rfl
@[simp] theorem Part.modChan_port (p : Part) (c : Chan) (f : Channel → Channel) (d : Chan) :
    (p.modChan c f).port d = p.port d := rfl
@[simp] theorem Part.modChan_group (p : Part) (c : Chan) (f : Channel → Channel) (h : Grp) :
    (p.modChan c f).group h = p.group h := rfl
@[simp] theorem Part.modChan_queue (p : Part) (c : Chan) (f : Channel → Channel) (h : Grp) :
    (p.modChan c f).queue h = p.queue h := rfl
@[simp] theorem Part.modChan_track (p : Part) (c : Chan) (f : Channel → Channel) (u : Trk) :
    (p.modChan c f).track u = p.track u := rfl
@[simp] theorem Part.modChan_link (p : Part) (c : Chan) (f : Channel → Channel) (l : Link) :
    (p.modChan c f).link l = p.link l := by cases l <;> rfl

@[simp] theorem Part.setPort_channels (p : Part) (c : Chan) (x : Port) : (p.setPort c x).channels = p.channels := rfl
@[simp] theorem Part.setPort_groups (p : Part) (c : Chan) (x : Port) : (p.setPort c x).groups = p.groups := rfl
@[simp] theorem Part.setPort_queues (p : Part) (c : Chan) (x : Port) : (p.setPort c x).queues = p.queues := rfl
@[simp] theorem Part.setPort_clock (p : Part) (c : Chan) (x : Port) : (p.setPort c x).clock = p.clock := rfl
@[simp] theorem Part.setPort_tracks (p : Part) (c : Chan) (x : Port) : (p.setPort c x).tracks = p.tracks := rfl
@[simp] theorem Part.setPort_linkA (p : Part) (c : Chan) (x : Port) : (p.setPort c x).linkA = p.linkA := rfl
@[simp] theorem Part.setPort_linkB (p : Part) (c : Chan) (x : Port) : (p.setPort c x).linkB = p.linkB := rfl
@[simp] theorem Part.setPort_codes (p : Part) (c : Chan) (x : Port) : (p.setPort c x).codes = p.codes := rfl
@[simp] theorem Part.setPort_ctl (p : Part) (c : Chan) (x : Port) : (p.setPort c x).ctl = p.ctl := rfl
@[simp] theorem Part.setPort_draws (p : Part) (c : Chan) (x : Port) : (p.setPort c x).draws = p.draws := rfl
@[simp] theorem Part.setPort_chan (p : Part) (c : Chan) (x : Port) (d : Chan) :
    (p.setPort c x).chan d = p.chan d := rfl
@[simp] theorem Part.setPort_group (p : Part) (c : Chan) (x : Port) (h : Grp) :
    (p.setPort c x).group h = p.group h := rfl
@[simp] theorem Part.setPort_queue (p : Part) (c : Chan) (x : Port) (h : Grp) :
    (p.setPort c x).queue h = p.queue h := rfl
@[simp] theorem Part.setPort_track (p : Part) (c : Chan) (x : Port) (u : Trk) :
    (p.setPort c x).track u = p.track u := rfl
@[simp] theorem Part.setPort_link (p : Part) (c : Chan) (x : Port) (l : Link) :
    (p.setPort c x).link l = p.link l := by cases l <;> rfl

@[simp] theorem Part.modPort_channels (p : Part) (c : Chan) (f : Port → Port) : (p.modPort c f).channels = p.channels := rfl
@[simp] theorem Part.modPort_groups (p : Part) (c : Chan) (f : Port → Port) : (p.modPort c f).groups = p.groups := rfl
@[simp] theorem Part.modPort_queues (p : Part) (c : Chan) (f : Port → Port) : (p.modPort c f).queues = p.queues := rfl
@[simp] theorem Part.modPort_clock (p : Part) (c : Chan) (f : Port → Port) : (p.modPort c f).clock = p.clock := rfl
@[simp] theorem Part.modPort_tracks (p : Part) (c : Chan) (f : Port → Port) : (p.modPort c f).tracks = p.tracks := rfl
@[simp] theorem Part.modPort_linkA (p : Part) (c : Chan) (f : Port → Port) : (p.modPort c f).linkA = p.linkA := rfl
@[simp] theorem Part.modPort_linkB (p : Part) (c : Chan) (f : Port → Port) : (p.modPort c f).linkB = p.linkB := rfl
@[simp] theorem Part.modPort_codes (p : Part) (c : Chan) (f : Port → Port) : (p.modPort c f).codes = p.codes := rfl
@[simp] theorem Part.modPort_ctl (p : Part) (c : Chan) (f : Port → Port) : (p.modPort c f).ctl = p.ctl := rfl
@[simp] theorem Part.modPort_draws (p : Part) (c : Chan) (f : Port → Port) : (p.modPort c f).draws = p.draws := rfl
@[simp] theorem Part.modPort_chan (p : Part) (c : Chan) (f : Port → Port) (d : Chan) :
    (p.modPort c f).chan d = p.chan d := rfl
@[simp] theorem Part.modPort_group (p : Part) (c : Chan) (f : Port → Port) (h : Grp) :
    (p.modPort c f).group h = p.group h := rfl
@[simp] theorem Part.modPort_queue (p : Part) (c : Chan) (f : Port → Port) (h : Grp) :
    (p.modPort c f).queue h = p.queue h := rfl
@[simp] theorem Part.modPort_track (p : Part) (c : Chan) (f : Port → Port) (u : Trk) :
    (p.modPort c f).track u = p.track u := rfl
@[simp] theorem Part.modPort_link (p : Part) (c : Chan) (f : Port → Port) (l : Link) :
    (p.modPort c f).link l = p.link l := by cases l <;> rfl

@[simp] theorem Part.setGroup_channels (p : Part) (g : Grp) (x : Group) : (p.setGroup g x).channels = p.channels := rfl
@[simp] theorem Part.setGroup_ports (p : Part) (g : Grp) (x : Group) : (p.setGroup g x).ports = p.ports := rfl
@[simp] theorem Part.setGroup_queues (p : Part) (g : Grp) (x : Group) : (p.setGroup g x).queues = p.queues := rfl
@[simp] theorem Part.setGroup_clock (p : Part) (g : Grp) (x : Group) : (p.setGroup g x).clock = p.clock := rfl
@[simp] theorem Part.setGroup_tracks (p : Part) (g : Grp) (x : Group) : (p.setGroup g x).tracks = p.tracks := rfl
@[simp] theorem Part.setGroup_linkA (p : Part) (g : Grp) (x : Group) : (p.setGroup g x).linkA = p.linkA := rfl
@[simp] theorem Part.setGroup_linkB (p : Part) (g : Grp) (x : Group) : (p.setGroup g x).linkB = p.linkB := rfl
@[simp] theorem Part.setGroup_codes (p : Part) (g : Grp) (x : Group) : (p.setGroup g x).codes = p.codes := rfl
@[simp] theorem Part.setGroup_ctl (p : Part) (g : Grp) (x : Group) : (p.setGroup g x).ctl = p.ctl := rfl
@[simp] theorem Part.setGroup_draws (p : Part) (g : Grp) (x : Group) : (p.setGroup g x).draws = p.draws := rfl
@[simp] theorem Part.setGroup_chan (p : Part) (g : Grp) (x : Group) (d : Chan) :
    (p.setGroup g x).chan d = p.chan d := rfl
@[simp] theorem Part.setGroup_port (p : Part) (g : Grp) (x : Group) (d : Chan) :
    (p.setGroup g x).port d = p.port d := rfl
@[simp] theorem Part.setGroup_queue (p : Part) (g : Grp) (x : Group) (h : Grp) :
    (p.setGroup g x).queue h = p.queue h := rfl
@[simp] theorem Part.setGroup_track (p : Part) (g : Grp) (x : Group) (u : Trk) :
    (p.setGroup g x).track u = p.track u := rfl
@[simp] theorem Part.setGroup_link (p : Part) (g : Grp) (x : Group) (l : Link) :
    (p.setGroup g x).link l = p.link l := by cases l <;> rfl

@[simp] theorem Part.modGroup_channels (p : Part) (g : Grp) (f : Group → Group) : (p.modGroup g f).channels = p.channels := rfl
@[simp] theorem Part.modGroup_ports (p : Part) (g : Grp) (f : Group → Group) : (p.modGroup g f).ports = p.ports := rfl
@[simp] theorem Part.modGroup_queues (p : Part) (g : Grp) (f : Group → Group) : (p.modGroup g f).queues = p.queues := rfl
@[simp] theorem Part.modGroup_clock (p : Part) (g : Grp) (f : Group → Group) : (p.modGroup g f).clock = p.clock := rfl
@[simp] theorem Part.modGroup_tracks (p : Part) (g : Grp) (f : Group → Group) : (p.modGroup g f).tracks = p.tracks := rfl
@[simp] theorem Part.modGroup_linkA (p : Part) (g : Grp) (f : Group → Group) : (p.modGroup g f).linkA = p.linkA := rfl
@[simp] theorem Part.modGroup_linkB (p : Part) (g : Grp) (f : Group → Group) : (p.modGroup g f).linkB = p.linkB := rfl
@[simp] theorem Part.modGroup_codes (p : Part) (g : Grp) (f : Group → Group) : (p.modGroup g f).codes = p.codes := rfl
@[simp] theorem Part.modGroup_ctl (p : Part) (g : Grp) (f : Group → Group) : (p.modGroup g f).ctl = p.ctl := rfl
@[simp] theorem Part.modGroup_draws (p : Part) (g : Grp) (f : Group → Group) : (p.modGroup g f).draws = p.draws := rfl
@[simp] theorem Part.modGroup_chan (p : Part) (g : Grp) (f : Group → Group) (d : Chan) :
    (p.modGroup g f).chan d = p.chan d := rfl
@[simp] theorem Part.modGroup_port (p : Part) (g : Grp) (f : Group → Group) (d : Chan) :
    (p.modGroup g f).port d = p.port d := rfl
@[simp] theorem Part.modGroup_queue (p : Part) (g : Grp) (f : Group → Group) (h : Grp) :
    (p.modGroup g f).queue h = p.queue h := rfl
@[simp] theorem Part.modGroup_track (p : Part) (g : Grp) (f : Group → Group) (u : Trk) :
    (p.modGroup g f).track u = p.track u := rfl
@[simp] theorem Part.modGroup_link (p : Part) (g : Grp) (f : Group → Group) (l : Link) :
    (p.modGroup g f).link l = p.link l := by cases l <;> rfl

@[simp] theorem Part.setQueue_channels (p : Part) (g : Grp) (x : CueQueue) : (p.setQueue g x).channels = p.channels := rfl
@[simp] theorem Part.setQueue_ports (p : Part) (g : Grp) (x : CueQueue) : (p.setQueue g x).ports = p.ports := rfl
@[simp] theorem Part.setQueue_groups (p : Part) (g : Grp) (x : CueQueue) : (p.setQueue g x).groups = p.groups := rfl
@[simp] theorem Part.setQueue_clock (p : Part) (g : Grp) (x : CueQueue) : (p.setQueue g x).clock = p.clock := rfl
@[simp] theorem Part.setQueue_tracks (p : Part) (g : Grp) (x : CueQueue) : (p.setQueue g x).tracks = p.tracks := rfl
@[simp] theorem Part.setQueue_linkA (p : Part) (g : Grp) (x : CueQueue) : (p.setQueue g x).linkA = p.linkA := rfl
@[simp] theorem Part.setQueue_linkB (p : Part) (g : Grp) (x : CueQueue) : (p.setQueue g x).linkB = p.linkB := rfl
@[simp] theorem Part.setQueue_codes (p : Part) (g : Grp) (x : CueQueue) : (p.setQueue g x).codes = p.codes := rfl
@[simp] theorem Part.setQueue_ctl (p : Part) (g : Grp) (x : CueQueue) : (p.setQueue g x).ctl = p.ctl := rfl
@[simp] theorem Part.setQueue_draws (p : Part) (g : Grp) (x : CueQueue) : (p.setQueue g x).draws = p.draws := rfl
@[simp] theorem Part.setQueue_chan (p : Part) (g : Grp) (x : CueQueue) (d : Chan) :
    (p.setQueue g x).chan d = p.chan d := rfl
@[simp] theorem Part.setQueue_port (p : Part) (g : Grp) (x : CueQueue) (d : Chan) :
    (p.setQueue g x).port d = p.port d := rfl
@[simp] theorem Part.setQueue_group (p : Part) (g : Grp) (x : CueQueue) (h : Grp) :
    (p.setQueue g x).group h = p.group h := rfl
@[simp] theorem Part.setQueue_track (p : Part) (g : Grp) (x : CueQueue) (u : Trk) :
    (p.setQueue g x).track u = p.track u := rfl
@[simp] theorem Part.setQueue_link (p : Part) (g : Grp) (x : CueQueue) (l : Link) :
    (p.setQueue g x).link l = p.link l := by cases l <;> rfl

@[simp] theorem Part.modQueue_channels (p : Part) (g : Grp) (f : CueQueue → CueQueue) : (p.modQueue g f).channels = p.channels := rfl
@[simp] theorem Part.modQueue_ports (p : Part) (g : Grp) (f : CueQueue → CueQueue) : (p.modQueue g f).ports = p.ports := rfl
@[simp] theorem Part.modQueue_groups (p : Part) (g : Grp) (f : CueQueue → CueQueue) : (p.modQueue g f).groups = p.groups := rfl
@[simp] theorem Part.modQueue_clock (p : Part) (g : Grp) (f : CueQueue → CueQueue) : (p.modQueue g f).clock = p.clock := rfl
@[simp] theorem Part.modQueue_tracks (p : Part) (g : Grp) (f : CueQueue → CueQueue) : (p.modQueue g f).tracks = p.tracks := rfl
@[simp] theorem Part.modQueue_linkA (p : Part) (g : Grp) (f : CueQueue → CueQueue) : (p.modQueue g f).linkA = p.linkA := rfl
@[simp] theorem Part.modQueue_linkB (p : Part) (g : Grp) (f : CueQueue → CueQueue) : (p.modQueue g f).linkB = p.linkB := rfl
@[simp] theorem Part.modQueue_codes (p : Part) (g : Grp) (f : CueQueue → CueQueue) : (p.modQueue g f).codes = p.codes := rfl
@[simp] theorem Part.modQueue_ctl (p : Part) (g : Grp) (f : CueQueue → CueQueue) : (p.modQueue g f).ctl = p.ctl := rfl
@[simp] theorem Part.modQueue_draws (p : Part) (g : Grp) (f : CueQueue → CueQueue) : (p.modQueue g f).draws = p.draws := rfl
@[simp] theorem Part.modQueue_chan (p : Part) (g : Grp) (f : CueQueue → CueQueue) (d : Chan) :
    (p.modQueue g f).chan d = p.chan d := rfl
@[simp] theorem Part.modQueue_port (p : Part) (g : Grp) (f : CueQueue → CueQueue) (d : Chan) :
    (p.modQueue g f).port d = p.port d := rfl
@[simp] theorem Part.modQueue_group (p : Part) (g : Grp) (f : CueQueue → CueQueue) (h : Grp) :
    (p.modQueue g f).group h = p.group h := rfl
@[simp] theorem Part.modQueue_track (p : Part) (g : Grp) (f : CueQueue → CueQueue) (u : Trk) :
    (p.modQueue g f).track u = p.track u := rfl
@[simp] theorem Part.modQueue_link (p : Part) (g : Grp) (f : CueQueue → CueQueue) (l : Link) :
    (p.modQueue g f).link l = p.link l := by cases l <;> rfl

@[simp] theorem Part.setTrack_channels (p : Part) (t : Trk) (x : Track) : (p.setTrack t x).channels = p.channels := rfl
@[simp] theorem Part.setTrack_ports (p : Part) (t : Trk) (x : Track) : (p.setTrack t x).ports = p.ports := rfl
@[simp] theorem Part.setTrack_groups (p : Part) (t : Trk) (x : Track) : (p.setTrack t x).groups = p.groups := rfl
@[simp] theorem Part.setTrack_queues (p : Part) (t : Trk) (x : Track) : (p.setTrack t x).queues = p.queues := rfl
@[simp] theorem Part.setTrack_clock (p : Part) (t : Trk) (x : Track) : (p.setTrack t x).clock = p.clock := rfl
@[simp] theorem Part.setTrack_linkA (p : Part) (t : Trk) (x : Track) : (p.setTrack t x).linkA = p.linkA := rfl
@[simp] theorem Part.setTrack_linkB (p : Part) (t : Trk) (x : Track) : (p.setTrack t x).linkB = p.linkB := rfl
@[simp] theorem Part.setTrack_codes (p : Part) (t : Trk) (x : Track) : (p.setTrack t x).codes = p.codes := rfl
@[simp] theorem Part.setTrack_ctl (p : Part) (t : Trk) (x : Track) : (p.setTrack t x).ctl = p.ctl := rfl
@[simp] theorem Part.setTrack_draws (p : Part) (t : Trk) (x : Track) : (p.setTrack t x).draws = p.draws := rfl
@[simp] theorem Part.setTrack_chan (p : Part) (t : Trk) (x : Track) (d : Chan) :
    (p.setTrack t x).chan d = p.chan d := rfl
@[simp] theorem Part.setTrack_port (p : Part) (t : Trk) (x : Track) (d : Chan) :
    (p.setTrack t x).port d = p.port d := rfl
@[simp] theorem Part.setTrack_group (p : Part) (t : Trk) (x : Track) (h : Grp) :
    (p.setTrack t x).group h = p.group h := rfl
@[simp] theorem Part.setTrack_queue (p : Part) (t : Trk) (x : Track) (h : Grp) :
    (p.setTrack t x).queue h = p.queue h := rfl
@[simp] theorem Part.setTrack_link (p : Part) (t : Trk) (x : Track) (l : Link) :
    (p.setTrack t x).link l = p.link l := by cases l <;> rfl

@[simp] theorem Part.modTrack_channels (p : Part) (t : Trk) (f : Track → Track) : (p.modTrack t f).channels = p.channels := rfl
@[simp] theorem Part.modTrack_ports (p : Part) (t : Trk) (f : Track → Track) : (p.modTrack t f).ports = p.ports := rfl
@[simp] theorem Part.modTrack_groups (p : Part) (t : Trk) (f : Track → Track) : (p.modTrack t f).groups = p.groups := rfl
@[simp] theorem Part.modTrack_queues (p : Part) (t : Trk) (f : Track → Track) : (p.modTrack t f).queues = p.queues := rfl
@[simp] theorem Part.modTrack_clock (p : Part) (t : Trk) (f : Track → Track) : (p.modTrack t f).clock = p.clock := rfl
@[simp] theorem Part.modTrack_linkA (p : Part) (t : Trk) (f : Track → Track) : (p.modTrack t f).linkA = p.linkA := rfl
@[simp] theorem Part.modTrack_linkB (p : Part) (t : Trk) (f : Track → Track) : (p.modTrack t f).linkB = p.linkB := rfl
@[simp] theorem Part.modTrack_codes (p : Part) (t : Trk) (f : Track → Track) : (p.modTrack t f).codes = p.codes := rfl
@[simp] theorem Part.modTrack_ctl (p : Part) (t : Trk) (f : Track → Track) : (p.modTrack t f).ctl = p.ctl := rfl
@[simp] theorem Part.modTrack_draws (p : Part) (t : Trk) (f : Track → Track) : (p.modTrack t f).draws = p.draws := rfl
@[simp] theorem Part.modTrack_chan (p : Part) (t : Trk) (f : Track → Track) (d : Chan) :
    (p.modTrack t f).chan d = p.chan d := rfl
@[simp] theorem Part.modTrack_port (p : Part) (t : Trk) (f : Track → Track) (d : Chan) :
    (p.modTrack t f).port d = p.port d := rfl
@[simp] theorem Part.modTrack_group (p : Part) (t : Trk) (f : Track → Track) (h : Grp) :
    (p.modTrack t f).group h = p.group h := rfl
@[simp] theorem Part.modTrack_queue (p : Part) (t : Trk) (f : Track → Track) (h : Grp) :
    (p.modTrack t f).queue h = p.queue h := rfl
@[simp] theorem Part.modTrack_link (p : Part) (t : Trk) (f : Track → Track) (l : Link) :
    (p.modTrack t f).link l = p.link l := by cases l <;> rfl

@[simp] theorem Part.setLink_channels (p : Part) (l : Link) (x : LinkIf) : (p.setLink l x).channels = p.channels := by
  cases l <;> rfl
@[simp] theorem Part.setLink_ports (p : Part) (l : Link) (x : LinkIf) : (p.setLink l x).ports = p.ports := by
  cases l <;> rfl
@[simp] theorem Part.setLink_groups (p : Part) (l : Link) (x : LinkIf) : (p.setLink l x).groups = p.groups := by
  cases l <;> rfl
@[simp] theorem Part.setLink_queues (p : Part) (l : Link) (x : LinkIf) : (p.setLink l x).queues = p.queues := by
  cases l <;> rfl
@[simp] theorem Part.setLink_clock (p : Part) (l : Link) (x : LinkIf) : (p.setLink l x).clock = p.clock := by
  cases l <;> rfl
@[simp] theorem Part.setLink_tracks (p : Part) (l : Link) (x : LinkIf) : (p.setLink l x).tracks = p.tracks := by
  cases l <;> rfl
@[simp] theorem Part.setLink_codes (p : Part) (l : Link) (x : LinkIf) : (p.setLink l x).codes = p.codes := by
  cases l <;> rfl
@[simp] theorem Part.setLink_ctl (p : Part) (l : Link) (x : LinkIf) : (p.setLink l x).ctl = p.ctl := by
  cases l <;> rfl
@[simp] theorem Part.setLink_draws (p : Part) (l : Link) (x : LinkIf) : (p.setLink l x).draws = p.draws := by
  cases l <;> rfl
@[simp] theorem Part.setLink_chan (p : Part) (l : Link) (x : LinkIf) (c : Chan) :
    (p.setLink l x).chan c = p.chan c := by cases l <;> rfl
@[simp] theorem Part.setLink_port (p : Part) (l : Link) (x : LinkIf) (c : Chan) :
    (p.setLink l x).port c = p.port c := by cases l <;> rfl
@[simp] theorem Part.setLink_group (p : Part) (l : Link) (x : LinkIf) (g : Grp) :
    (p.setLink l x).group g = p.group g := by cases l <;> rfl
@[simp] theorem Part.setLink_queue (p : Part) (l : Link) (x : LinkIf) (g : Grp) :
    (p.setLink l x).queue g = p.queue g := by cases l <;> rfl
@[simp] theorem Part.setLink_track (p : Part) (l : Link) (x : LinkIf) (t : Trk) :
    (p.setLink l x).track t = p.track t := by cases l <;> rfl

@[simp] theorem Part.modLink_channels (p : Part) (l : Link) (f : LinkIf → LinkIf) : (p.modLink l f).channels = p.channels := by
  cases l <;> rfl
@[simp] theorem Part.modLink_ports (p : Part) (l : Link) (f : LinkIf → LinkIf) : (p.modLink l f).ports = p.ports := by
  cases l <;> rfl
@[simp] theorem Part.modLink_groups (p : Part) (l : Link) (f : LinkIf → LinkIf) : (p.modLink l f).groups = p.groups := by
  cases l <;> rfl
@[simp] theorem Part.modLink_queues (p : Part) (l : Link) (f : LinkIf → LinkIf) : (p.modLink l f).queues = p.queues := by
  cases l <;> rfl
@[simp] theorem Part.modLink_clock (p : Part) (l : Link) (f : LinkIf → LinkIf) : (p.modLink l f).clock = p.clock := by
  cases l <;> rfl
@[simp] theorem Part.modLink_tracks (p : Part) (l : Link) (f : LinkIf → LinkIf) : (p.modLink l f).tracks = p.tracks := by
  cases l <;> rfl
@[simp] theorem Part.modLink_codes (p : Part) (l : Link) (f : LinkIf → LinkIf) : (p.modLink l f).codes = p.codes := by
  cases l <;> rfl
@[simp] theorem Part.modLink_ctl (p : Part) (l : Link) (f : LinkIf → LinkIf) : (p.modLink l f).ctl = p.ctl := by
  cases l <;> rfl
@[simp] theorem Part.modLink_draws (p : Part) (l : Link) (f : LinkIf → LinkIf) : (p.modLink l f).draws = p.draws := by
  cases l <;> rfl
@[simp] theorem Part.modLink_chan (p : Part) (l : Link) (f : LinkIf → LinkIf) (c : Chan) :
    (p.modLink l f).chan c = p.chan c := by cases l <;> rfl
@[simp] theorem Part.modLink_port (p : Part) (l : Link) (f : LinkIf → LinkIf) (c : Chan) :
    (p.modLink l f).port c = p.port c := by cases l <;> rfl
@[simp] theorem Part.modLink_group (p : Part) (l : Link) (f : LinkIf → LinkIf) (g : Grp) :
    (p.modLink l f).group g = p.group g := by cases l <;> rfl
@[simp] theorem Part.modLink_queue (p : Part) (l : Link) (f : LinkIf → LinkIf) (g : Grp) :
    (p.modLink l f).queue g = p.queue g := by cases l <;> rfl
@[simp] theorem Part.modLink_track (p : Part) (l : Link) (f : LinkIf → LinkIf) (t : Trk) :
    (p.modLink l f).track t = p.track t := by cases l <;> rfl

@[simp] theorem Part.modCtl_channels (p : Part) (f : ModeCtl → ModeCtl) : (p.modCtl f).channels = p.channels := rfl
@[simp] theorem Part.modCtl_ports (p : Part) (f : ModeCtl → ModeCtl) : (p.modCtl f).ports = p.ports := rfl
@[simp] theorem Part.modCtl_groups (p : Part) (f : ModeCtl → ModeCtl) : (p.modCtl f).groups = p.groups := rfl
@[simp] theorem Part.modCtl_queues (p : Part) (f : ModeCtl → ModeCtl) : (p.modCtl f).queues = p.queues := rfl
@[simp] theorem Part.modCtl_clock (p : Part) (f : ModeCtl → ModeCtl) : (p.modCtl f).clock = p.clock := rfl
@[simp] theorem Part.modCtl_tracks (p : Part) (f : ModeCtl → ModeCtl) : (p.modCtl f).tracks = p.tracks := rfl
@[simp] theorem Part.modCtl_linkA (p : Part) (f : ModeCtl → ModeCtl) : (p.modCtl f).linkA = p.linkA := rfl
@[simp] theorem Part.modCtl_linkB (p : Part) (f : ModeCtl → ModeCtl) : (p.modCtl f).linkB = p.linkB := rfl
@[simp] theorem Part.modCtl_codes (p : Part) (f : ModeCtl → ModeCtl) : (p.modCtl f).codes = p.codes := rfl
@[simp] theorem Part.modCtl_draws (p : Part) (f : ModeCtl → ModeCtl) : (p.modCtl f).draws = p.draws := rfl
@[simp] theorem Part.modCtl_chan (p : Part) (f : ModeCtl → ModeCtl) (c : Chan) : (p.modCtl f).chan c = p.chan c := rfl
@[simp] theorem Part.modCtl_port (p : Part) (f : ModeCtl → ModeCtl) (c : Chan) : (p.modCtl f).port c = p.port c := rfl
@[simp] theorem Part.modCtl_group (p : Part) (f : ModeCtl → ModeCtl) (g : Grp) : (p.modCtl f).group g = p.group g := rfl
@[simp] theorem Part.modCtl_queue (p : Part) (f : ModeCtl → ModeCtl) (g : Grp) : (p.modCtl f).queue g = p.queue g := rfl
@[simp] theorem Part.modCtl_track (p : Part) (f : ModeCtl → ModeCtl) (t : Trk) : (p.modCtl f).track t = p.track t := rfl
@[simp] theorem Part.modCtl_link (p : Part) (f : ModeCtl → ModeCtl) (l : Link) : (p.modCtl f).link l = p.link l := by cases l <;> rfl
@[simp] theorem Part.modCtl_ctl (p : Part) (f : ModeCtl → ModeCtl) : (p.modCtl f).ctl = f p.ctl := rfl

@[simp] theorem Part.draw_channels (p : Part) (n : Nat) : (p.draw n).channels = p.channels := rfl
@[simp] theorem Part.draw_ports (p : Part) (n : Nat) : (p.draw n).ports = p.ports := rfl
@[simp] theorem Part.draw_groups (p : Part) (n : Nat) : (p.draw n).groups = p.groups := rfl
@[simp] theorem Part.draw_queues (p : Part) (n : Nat) : (p.draw n).queues = p.queues := rfl
@[simp] theorem Part.draw_clock (p : Part) (n : Nat) : (p.draw n).clock = p.clock := rfl
@[simp] theorem Part.draw_tracks (p : Part) (n : Nat) : (p.draw n).tracks = p.tracks := rfl
@[simp] theorem Part.draw_linkA (p : Part) (n : Nat) : (p.draw n).linkA = p.linkA := rfl
@[simp] theorem Part.draw_linkB (p : Part) (n : Nat) : (p.draw n).linkB = p.linkB := rfl
@[simp] theorem Part.draw_codes (p : Part) (n : Nat) : (p.draw n).codes = p.codes := rfl
@[simp] theorem Part.draw_ctl (p : Part) (n : Nat) : (p.draw n).ctl = p.ctl := rfl
@[simp] theorem Part.draw_chan (p : Part) (n : Nat) (c : Chan) : (p.draw n).chan c = p.chan c := rfl
@[simp] theorem Part.draw_port (p : Part) (n : Nat) (c : Chan) : (p.draw n).port c = p.port c := rfl
@[simp] theorem Part.draw_group (p : Part) (n : Nat) (g : Grp) : (p.draw n).group g = p.group g := rfl
@[simp] theorem Part.draw_queue (p : Part) (n : Nat) (g : Grp) : (p.draw n).queue g = p.queue g := rfl
@[simp] theorem Part.draw_track (p : Part) (n : Nat) (t : Trk) : (p.draw n).track t = p.track t := rfl
@[simp] theorem Part.draw_link (p : Part) (n : Nat) (l : Link) : (p.draw n).link l = p.link l := by cases l <;> rfl
@[simp] theorem Part.draw_draws (p : Part) (n : Nat) : (p.draw n).draws = p.draws + n := rfl

/-! ### What an update writes -/

theorem Part.setChan_chan (p : Part) (c d : Chan) (x : Channel) :
    (p.setChan c x).chan d = if d = c then x else p.chan d := by
  simp only [Part.setChan, Part.chan]
  by_cases h : d = c
  · subst h; simp
  · have : c.val ≠ d.val := fun e => h (Fin.ext e.symm)
    simp [h, this]

@[simp] theorem Part.setChan_chan_self (p : Part) (c : Chan) (x : Channel) : (p.setChan c x).chan c = x := by
  simp [Part.setChan_chan]

theorem Part.setChan_chan_ne (p : Part) (c d : Chan) (x : Channel) (h : d ≠ c) :
    (p.setChan c x).chan d = p.chan d := by
  simp [Part.setChan_chan, h]

theorem Part.modChan_chan (p : Part) (c d : Chan) (f : Channel → Channel) :
    (p.modChan c f).chan d = if d = c then f (p.chan d) else p.chan d := by
  simp only [Part.modChan, Part.setChan_chan]
  split
  · next h => rw [h]
  · rfl

@[simp] theorem Part.modChan_chan_self (p : Part) (c : Chan) (f : Channel → Channel) :
    (p.modChan c f).chan c = f (p.chan c) := by
  simp [Part.modChan_chan]

theorem Part.modChan_chan_ne (p : Part) (c d : Chan) (f : Channel → Channel) (h : d ≠ c) :
    (p.modChan c f).chan d = p.chan d := by
  simp [Part.modChan_chan, h]

theorem Part.setPort_port (p : Part) (c d : Chan) (x : Port) :
    (p.setPort c x).port d = if d = c then x else p.port d := by
  simp only [Part.setPort, Part.port]
  by_cases h : d = c
  · subst h; simp
  · have : c.val ≠ d.val := fun e => h (Fin.ext e.symm)
    simp [h, this]

@[simp] theorem Part.setPort_port_self (p : Part) (c : Chan) (x : Port) : (p.setPort c x).port c = x := by
  simp [Part.setPort_port]

theorem Part.setPort_port_ne (p : Part) (c d : Chan) (x : Port) (h : d ≠ c) :
    (p.setPort c x).port d = p.port d := by
  simp [Part.setPort_port, h]

theorem Part.modPort_port (p : Part) (c d : Chan) (f : Port → Port) :
    (p.modPort c f).port d = if d = c then f (p.port d) else p.port d := by
  simp only [Part.modPort, Part.setPort_port]
  split
  · next h => rw [h]
  · rfl

@[simp] theorem Part.modPort_port_self (p : Part) (c : Chan) (f : Port → Port) :
    (p.modPort c f).port c = f (p.port c) := by
  simp [Part.modPort_port]

theorem Part.modPort_port_ne (p : Part) (c d : Chan) (f : Port → Port) (h : d ≠ c) :
    (p.modPort c f).port d = p.port d := by
  simp [Part.modPort_port, h]

theorem Part.setGroup_group (p : Part) (g k : Grp) (x : Group) :
    (p.setGroup g x).group k = if k = g then x else p.group k := by
  simp only [Part.setGroup, Part.group]
  by_cases h : k = g
  · subst h; simp
  · have : g.val ≠ k.val := fun e => h (Fin.ext e.symm)
    simp [h, this]

@[simp] theorem Part.setGroup_group_self (p : Part) (g : Grp) (x : Group) : (p.setGroup g x).group g = x := by
  simp [Part.setGroup_group]

theorem Part.setGroup_group_ne (p : Part) (g k : Grp) (x : Group) (h : k ≠ g) :
    (p.setGroup g x).group k = p.group k := by
  simp [Part.setGroup_group, h]

theorem Part.modGroup_group (p : Part) (g k : Grp) (f : Group → Group) :
    (p.modGroup g f).group k = if k = g then f (p.group k) else p.group k := by
  simp only [Part.modGroup, Part.setGroup_group]
  split
  · next h => rw [h]
  · rfl

@[simp] theorem Part.modGroup_group_self (p : Part) (g : Grp) (f : Group → Group) :
    (p.modGroup g f).group g = f (p.group g) := by
  simp [Part.modGroup_group]

theorem Part.modGroup_group_ne (p : Part) (g k : Grp) (f : Group → Group) (h : k ≠ g) :
    (p.modGroup g f).group k = p.group k := by
  simp [Part.modGroup_group, h]

theorem Part.setQueue_queue (p : Part) (g k : Grp) (x : CueQueue) :
    (p.setQueue g x).queue k = if k = g then x else p.queue k := by
  simp only [Part.setQueue, Part.queue]
  by_cases h : k = g
  · subst h; simp
  · have : g.val ≠ k.val := fun e => h (Fin.ext e.symm)
    simp [h, this]

@[simp] theorem Part.setQueue_queue_self (p : Part) (g : Grp) (x : CueQueue) : (p.setQueue g x).queue g = x := by
  simp [Part.setQueue_queue]

theorem Part.setQueue_queue_ne (p : Part) (g k : Grp) (x : CueQueue) (h : k ≠ g) :
    (p.setQueue g x).queue k = p.queue k := by
  simp [Part.setQueue_queue, h]

theorem Part.modQueue_queue (p : Part) (g k : Grp) (f : CueQueue → CueQueue) :
    (p.modQueue g f).queue k = if k = g then f (p.queue k) else p.queue k := by
  simp only [Part.modQueue, Part.setQueue_queue]
  split
  · next h => rw [h]
  · rfl

@[simp] theorem Part.modQueue_queue_self (p : Part) (g : Grp) (f : CueQueue → CueQueue) :
    (p.modQueue g f).queue g = f (p.queue g) := by
  simp [Part.modQueue_queue]

theorem Part.modQueue_queue_ne (p : Part) (g k : Grp) (f : CueQueue → CueQueue) (h : k ≠ g) :
    (p.modQueue g f).queue k = p.queue k := by
  simp [Part.modQueue_queue, h]

theorem Part.setTrack_track (p : Part) (t u : Trk) (x : Track) :
    (p.setTrack t x).track u = if u = t then x else p.track u := by
  simp only [Part.setTrack, Part.track]
  by_cases h : u = t
  · subst h; simp
  · have : t.val ≠ u.val := fun e => h (Fin.ext e.symm)
    simp [h, this]

@[simp] theorem Part.setTrack_track_self (p : Part) (t : Trk) (x : Track) : (p.setTrack t x).track t = x := by
  simp [Part.setTrack_track]

theorem Part.setTrack_track_ne (p : Part) (t u : Trk) (x : Track) (h : u ≠ t) :
    (p.setTrack t x).track u = p.track u := by
  simp [Part.setTrack_track, h]

theorem Part.modTrack_track (p : Part) (t u : Trk) (f : Track → Track) :
    (p.modTrack t f).track u = if u = t then f (p.track u) else p.track u := by
  simp only [Part.modTrack, Part.setTrack_track]
  split
  · next h => rw [h]
  · rfl

@[simp] theorem Part.modTrack_track_self (p : Part) (t : Trk) (f : Track → Track) :
    (p.modTrack t f).track t = f (p.track t) := by
  simp [Part.modTrack_track]

theorem Part.modTrack_track_ne (p : Part) (t u : Trk) (f : Track → Track) (h : u ≠ t) :
    (p.modTrack t f).track u = p.track u := by
  simp [Part.modTrack_track, h]

@[simp] theorem Part.setLink_link_self (p : Part) (l : Link) (x : LinkIf) : (p.setLink l x).link l = x := by
  cases l <;> rfl

@[simp] theorem Part.modLink_link_self (p : Part) (l : Link) (f : LinkIf → LinkIf) :
    (p.modLink l f).link l = f (p.link l) := by
  cases l <;> rfl

@[simp] theorem Part.setLink_link_other (p : Part) (l : Link) (x : LinkIf) :
    (p.setLink l x).link l.other = p.link l.other := by
  cases l <;> rfl

@[simp] theorem Part.modLink_link_other (p : Part) (l : Link) (f : LinkIf → LinkIf) :
    (p.modLink l f).link l.other = p.link l.other := by
  cases l <;> rfl

/-! ### Parts that agree on every reader are equal -/

theorem Part.channels_ext {p q : Part} (h : ∀ c, p.chan c = q.chan c) : p.channels = q.channels := by
  apply Vector.ext
  intro i hi
  exact h ⟨i, hi⟩

theorem Part.ports_ext {p q : Part} (h : ∀ c, p.port c = q.port c) : p.ports = q.ports := by
  apply Vector.ext
  intro i hi
  exact h ⟨i, hi⟩

theorem Part.groups_ext {p q : Part} (h : ∀ g, p.group g = q.group g) : p.groups = q.groups := by
  apply Vector.ext
  intro i hi
  exact h ⟨i, hi⟩

theorem Part.queues_ext {p q : Part} (h : ∀ g, p.queue g = q.queue g) : p.queues = q.queues := by
  apply Vector.ext
  intro i hi
  exact h ⟨i, hi⟩

theorem Part.tracks_ext {p q : Part} (h : ∀ t, p.track t = q.track t) : p.tracks = q.tracks := by
  apply Vector.ext
  intro i hi
  exact h ⟨i, hi⟩

end Sys2Proof.Machine
end

