-- ==== Sys2Proof/Laws/Loops.lean ====
section
/-! SUPPORT. Loops over channels, groups, tracks and lanes: what a loop leaves alone, and what a loop of updates at distinct
places leaves at each place. -/

namespace Sys2Proof.Machine

@[simp] theorem mem_allChans (c : Chan) : c ∈ allChans := by revert c; decide
@[simp] theorem mem_allGroups (g : Grp) : g ∈ allGroups := by revert g; decide
@[simp] theorem mem_allTracks (t : Trk) : t ∈ allTracks := by revert t; decide
theorem allChans_nodup : allChans.Nodup := by decide
theorem allGroups_nodup : allGroups.Nodup := by decide
theorem allTracks_nodup : allTracks.Nodup := by decide

@[simp] theorem Part.forEach_nil {α : Type} (p : Part) (f : Part → α → Part) : p.forEach [] f = p := rfl
@[simp] theorem Part.forEach_cons {α : Type} (p : Part) (x : α) (l : List α) (f : Part → α → Part) :
    p.forEach (x :: l) f = (f p x).forEach l f := rfl
theorem Part.forEach_append {α : Type} (p : Part) (l m : List α) (f : Part → α → Part) :
    p.forEach (l ++ m) f = (p.forEach l f).forEach m f := List.foldl_append

/-- A property that every turn keeps, a loop keeps. -/
theorem Part.forEach_inv {α : Type} {P : Part → Prop} {f : Part → α → Part} {l : List α} {p : Part} (h0 : P p)
    (h : ∀ q x, x ∈ l → P q → P (f q x)) : P (p.forEach l f) := by
  induction l generalizing p with
  | nil => exact h0
  | cons x l ih =>
    exact ih (h p x (List.mem_cons_self ..) h0) fun q y hy => h q y (List.mem_cons_of_mem _ hy)

/-- What every turn leaves as it was, a loop leaves as it was. -/
theorem Part.forEach_keeps {α β : Type} (r : Part → β) {f : Part → α → Part} (l : List α) (p : Part)
    (h : ∀ q x, x ∈ l → r (f q x) = r q) : r (p.forEach l f) = r p :=
  Part.forEach_inv (P := fun q => r q = r p) rfl fun q x hx hq => (h q x hx).trans hq

/-! ### Channel loops -/

/-- A loop of channel updates leaves a channel that it does not name. -/
theorem Part.forEach_modChan_out {α : Type} (p : Part) (l : List α) (key : α → Chan) (f : α → Channel → Channel) (d : Chan)
    (hd : ∀ x ∈ l, key x ≠ d) : (p.forEach l fun q x => q.modChan (key x) (f x)).chan d = p.chan d :=
  Part.forEach_keeps (fun q => q.chan d) l p fun q x hx => Part.modChan_chan_ne q (key x) d (f x) fun e => hd x hx e.symm

/-- A loop of channel updates that names no channel twice updates each channel that it names once. -/
theorem Part.forEach_modChan_in {α : Type} (p : Part) (l : List α) (key : α → Chan) (f : α → Channel → Channel)
    (hl : (l.map key).Nodup) {x : α} (hx : x ∈ l) :
    (p.forEach l fun q x => q.modChan (key x) (f x)).chan (key x) = f x (p.chan (key x)) := by
  induction l generalizing p with
  | nil => cases hx
  | cons y l ih =>
    rw [List.map_cons, List.nodup_cons] at hl
    rw [Part.forEach_cons]
    rcases List.mem_cons.mp hx with h | h
    · subst h
      rw [Part.forEach_modChan_out _ _ _ _ _ fun z hz e => hl.1 (List.mem_map.mpr ⟨z, hz, e⟩), Part.modChan_chan_self]
    · have hne : key x ≠ key y := fun e => hl.1 (List.mem_map.mpr ⟨x, h, e⟩)
      rw [ih _ hl.2 h, Part.modChan_chan_ne _ _ _ _ hne]

/-- A loop of channel updates over a list of channels without repeats. -/
theorem Part.forEach_modChan (p : Part) (l : List Chan) (f : Chan → Channel → Channel) (hl : l.Nodup) (d : Chan) :
    (p.forEach l fun q c => q.modChan c (f c)).chan d = if d ∈ l then f d (p.chan d) else p.chan d := by
  by_cases h : d ∈ l
  · rw [if_pos h]
    exact Part.forEach_modChan_in p l id f (by simpa using hl) h
  · rw [if_neg h]
    exact Part.forEach_modChan_out p l id f d fun x hx e => h (e ▸ hx)

/-- A loop of updates over every channel. -/
theorem Part.forEach_allChans (p : Part) (f : Chan → Channel → Channel) (d : Chan) :
    (p.forEach allChans fun q c => q.modChan c (f c)).chan d = f d (p.chan d) := by
  rw [Part.forEach_modChan p allChans f allChans_nodup d, if_pos (mem_allChans d)]

/-- A loop of updates over every drive port. -/
theorem Part.forEach_allPorts (p : Part) (f : Chan → Port → Port) (d : Chan) :
    (p.forEach allChans fun q c => q.modPort c (f c)).port d = f d (p.port d) := by
  have go : ∀ (l : List Chan) (p : Part), l.Nodup →
      (p.forEach l fun q c => q.modPort c (f c)).port d = if d ∈ l then f d (p.port d) else p.port d := by
    intro l
    induction l with
    | nil => intro p _; simp
    | cons c l ih =>
      intro p hl
      rw [List.nodup_cons] at hl
      rw [Part.forEach_cons, ih _ hl.2, Part.modPort_port]
      by_cases h : d = c
      · subst h; simp [hl.1]
      · simp [h]
  rw [go allChans p allChans_nodup, if_pos (mem_allChans d)]

/-- A loop of updates over every group. -/
theorem Part.forEach_modGroup (p : Part) (f : Grp → Group → Group) (k : Grp) :
    (p.forEach allGroups fun q g => q.modGroup g (f g)).group k = f k (p.group k) := by
  have go : ∀ (l : List Grp) (p : Part), l.Nodup →
      (p.forEach l fun q g => q.modGroup g (f g)).group k = if k ∈ l then f k (p.group k) else p.group k := by
    intro l
    induction l with
    | nil => intro p _; simp
    | cons g l ih =>
      intro p hl
      rw [List.nodup_cons] at hl
      rw [Part.forEach_cons, ih _ hl.2, Part.modGroup_group]
      by_cases h : k = g
      · subst h; simp [hl.1]
      · simp [h]
  rw [go allGroups p allGroups_nodup, if_pos (mem_allGroups k)]

/-- A loop of updates over every cue queue. -/
theorem Part.forEach_modQueue (p : Part) (f : Grp → CueQueue → CueQueue) (k : Grp) :
    (p.forEach allGroups fun q g => q.modQueue g (f g)).queue k = f k (p.queue k) := by
  have go : ∀ (l : List Grp) (p : Part), l.Nodup →
      (p.forEach l fun q g => q.modQueue g (f g)).queue k = if k ∈ l then f k (p.queue k) else p.queue k := by
    intro l
    induction l with
    | nil => intro p _; simp
    | cons g l ih =>
      intro p hl
      rw [List.nodup_cons] at hl
      rw [Part.forEach_cons, ih _ hl.2, Part.modQueue_queue]
      by_cases h : k = g
      · subst h; simp [hl.1]
      · simp [h]
  rw [go allGroups p allGroups_nodup, if_pos (mem_allGroups k)]

end Sys2Proof.Machine
end

