-- ==== Sys2Proof/Laws/Ops.lean ====
section
/-! SUPPORT. What the shared operations do: the drive of the outputs, the two forms of a taking, raising an event, changing the
mode, clearing a mover and ending a jog. -/

namespace Sys2Proof.Machine

/-! ### The outputs (R7) -/

/-- The drive writes the ports and counts a draw; anything else it leaves. -/
theorem Part.drive_keeps {β : Type} (r : Part → β) (hp : ∀ (q : Part) c f, r (q.modPort c f) = r q)
    (hd : ∀ (q : Part) n, r (q.draw n) = r q) (p : Part) : r p.drive = r p :=
  (hd _ _).trans (Part.forEach_keeps r _ _ fun q c _ => hp q c _)

@[simp] theorem Part.drive_channels (p : Part) : p.drive.channels = p.channels :=
  Part.drive_keeps (fun q => q.channels) (fun _ _ _ => rfl) (fun _ _ => rfl) p
@[simp] theorem Part.drive_groups (p : Part) : p.drive.groups = p.groups :=
  Part.drive_keeps (fun q => q.groups) (fun _ _ _ => rfl) (fun _ _ => rfl) p
@[simp] theorem Part.drive_queues (p : Part) : p.drive.queues = p.queues :=
  Part.drive_keeps (fun q => q.queues) (fun _ _ _ => rfl) (fun _ _ => rfl) p
@[simp] theorem Part.drive_clock (p : Part) : p.drive.clock = p.clock :=
  Part.drive_keeps (fun q => q.clock) (fun _ _ _ => rfl) (fun _ _ => rfl) p
@[simp] theorem Part.drive_tracks (p : Part) : p.drive.tracks = p.tracks :=
  Part.drive_keeps (fun q => q.tracks) (fun _ _ _ => rfl) (fun _ _ => rfl) p
@[simp] theorem Part.drive_linkA (p : Part) : p.drive.linkA = p.linkA :=
  Part.drive_keeps (fun q => q.linkA) (fun _ _ _ => rfl) (fun _ _ => rfl) p
@[simp] theorem Part.drive_linkB (p : Part) : p.drive.linkB = p.linkB :=
  Part.drive_keeps (fun q => q.linkB) (fun _ _ _ => rfl) (fun _ _ => rfl) p
@[simp] theorem Part.drive_codes (p : Part) : p.drive.codes = p.codes :=
  Part.drive_keeps (fun q => q.codes) (fun _ _ _ => rfl) (fun _ _ => rfl) p
@[simp] theorem Part.drive_ctl (p : Part) : p.drive.ctl = p.ctl :=
  Part.drive_keeps (fun q => q.ctl) (fun _ _ _ => rfl) (fun _ _ => rfl) p
@[simp] theorem Part.drive_chan (p : Part) (c : Chan) : p.drive.chan c = p.chan c :=
  Part.drive_keeps (fun q => q.chan c) (fun _ _ _ => rfl) (fun _ _ => rfl) p
@[simp] theorem Part.drive_group (p : Part) (g : Grp) : p.drive.group g = p.group g :=
  Part.drive_keeps (fun q => q.group g) (fun _ _ _ => rfl) (fun _ _ => rfl) p
@[simp] theorem Part.drive_queue (p : Part) (g : Grp) : p.drive.queue g = p.queue g :=
  Part.drive_keeps (fun q => q.queue g) (fun _ _ _ => rfl) (fun _ _ => rfl) p
@[simp] theorem Part.drive_track (p : Part) (t : Trk) : p.drive.track t = p.track t :=
  Part.drive_keeps (fun q => q.track t) (fun _ _ _ => rfl) (fun _ _ => rfl) p
@[simp] theorem Part.drive_link (p : Part) (l : Link) : p.drive.link l = p.link l :=
  Part.drive_keeps (fun q => q.link l) (fun q c f => Part.modPort_link q c f l) (fun q n => Part.draw_link q n l) p

/-- A drive that makes no port safe draws nothing. -/
theorem Part.drive_draws (p : Part) : p.drive.draws = p.draws + if allChans.any p.becomesSafe then 1 else 0 := by
  have h : (p.forEach allChans fun q c => q.modPort c fun x => { x with output := p.outputOf c }).draws = p.draws :=
    Part.forEach_keeps (fun q => q.draws) _ _ fun _ _ _ => rfl
  unfold Part.drive Part.draw
  rw [h]

/-- After a drive each port applies what R7 asks of it, and keeps the rest. -/
theorem Part.drive_port (p : Part) (c : Chan) : p.drive.port c = { p.port c with output := p.outputOf c } := by
  unfold Part.drive
  rw [Part.draw_port]
  exact Part.forEach_allPorts p (fun c x => { x with output := p.outputOf c }) c

/-- A port that is to be released applies what its channel asks. -/
theorem Part.outputOf_released {p : Part} {c : Chan} (h : p.releases c = true) :
    p.outputOf c =
      { brakeReleased := true, run := true, direction := (p.chan c).direction.getD (p.port c).output.direction
        demand := if (p.chan c).kind == .variableSpeed then (p.chan c).demand else 0 } := if_pos h

/-- Any other port is safe. -/
theorem Part.outputOf_safe {p : Part} {c : Chan} (h : p.releases c = false) : (p.outputOf c).isSafe = true := by
  unfold Part.outputOf
  rw [if_neg (by simp [h])]
  split
  · assumption
  · rfl

/-- A safe port that stays safe keeps its output. -/
theorem Part.outputOf_kept {p : Part} {c : Chan} (h : p.releases c = false) (hs : (p.port c).output.isSafe = true) :
    p.outputOf c = (p.port c).output := by
  unfold Part.outputOf
  rw [if_neg (by simp [h]), if_pos hs]

theorem PortOutput.isSafe_iff (x : PortOutput) :
    x.isSafe = true ↔ x.brakeReleased = false ∧ x.run = false ∧ x.demand = 0 := by
  simp [PortOutput.isSafe, and_assoc]

/-! ### Takings -/

@[simp] theorem State.take_next (s : State) (f : Part → Part) : s.take f = .next { s with part := (f s.part).drive } := rfl
@[simp] theorem State.note_next (s : State) (f : Part → Part) : s.note f = .next { s with part := f s.part } := rfl

theorem Part.awake_of_held {p : Part} (h : p.ctl.held = true) (f : Part → Part) : p.awake f = p := by simp [Part.awake, h]
theorem Part.awake_of_free {p : Part} (h : p.ctl.held = false) (f : Part → Part) : p.awake f = f p := by simp [Part.awake, h]

/-! ### Events (R174, R175) -/

@[simp] theorem Part.post_channels (p : Part) (q : NoticePair) (e : Event) : (p.post q e).channels = p.channels := rfl
@[simp] theorem Part.post_ports (p : Part) (q : NoticePair) (e : Event) : (p.post q e).ports = p.ports := rfl
@[simp] theorem Part.post_groups (p : Part) (q : NoticePair) (e : Event) : (p.post q e).groups = p.groups := rfl
@[simp] theorem Part.post_queues (p : Part) (q : NoticePair) (e : Event) : (p.post q e).queues = p.queues := rfl
@[simp] theorem Part.post_clock (p : Part) (q : NoticePair) (e : Event) : (p.post q e).clock = p.clock := rfl
@[simp] theorem Part.post_tracks (p : Part) (q : NoticePair) (e : Event) : (p.post q e).tracks = p.tracks := rfl
@[simp] theorem Part.post_ctl (p : Part) (q : NoticePair) (e : Event) : (p.post q e).ctl = p.ctl := rfl
@[simp] theorem Part.post_draws (p : Part) (q : NoticePair) (e : Event) : (p.post q e).draws = p.draws := rfl
@[simp] theorem Part.post_chan (p : Part) (q : NoticePair) (e : Event) (c : Chan) : (p.post q e).chan c = p.chan c := rfl
@[simp] theorem Part.post_port (p : Part) (q : NoticePair) (e : Event) (c : Chan) : (p.post q e).port c = p.port c := rfl
@[simp] theorem Part.post_group (p : Part) (q : NoticePair) (e : Event) (g : Grp) : (p.post q e).group g = p.group g := rfl
@[simp] theorem Part.post_queue (p : Part) (q : NoticePair) (e : Event) (g : Grp) : (p.post q e).queue g = p.queue g := rfl
@[simp] theorem Part.post_track (p : Part) (q : NoticePair) (e : Event) (t : Trk) : (p.post q e).track t = p.track t := rfl
@[simp] theorem Part.post_codes (p : Part) (q : NoticePair) (e : Event) : (p.post q e).codes = p.codes.write q e := rfl
@[simp] theorem Part.post_link (p : Part) (q : NoticePair) (e : Event) (l : Link) :
    (p.post q e).link l = (p.link l).offer q := by cases l <;> rfl

@[simp] theorem LinkIf.setPending_pending (x : LinkIf) (l : List NoticePair) : (x.setPending l).pending = l := rfl
@[simp] theorem LinkIf.setPending_attention (x : LinkIf) (l : List NoticePair) :
    (x.setPending l).attention = !l.isEmpty := rfl

/-- An offer touches the pending set and the attention line alone. -/
theorem LinkIf.offer_eq (x : LinkIf) (q : NoticePair) :
    x.offer q = { x with pending := (x.offer q).pending, attention := (x.offer q).attention } := by
  unfold LinkIf.offer; split <;> rfl

theorem NoticePair.mem_all (q : NoticePair) : q ∈ NoticePair.all := by
  cases q with
  | mode => decide
  | link => decide
  | channelFault c => revert c; decide
  | group g => revert g; decide
  | track t => revert t; decide
  | loadWatch c => revert c; decide

theorem NoticePair.all_nodup : NoticePair.all.Nodup := by decide

/-- The members of a set after a pair has been entered. -/
theorem mem_addPair (q r : NoticePair) (l : List NoticePair) : r ∈ addPair q l ↔ r = q ∨ r ∈ l := by
  unfold addPair
  by_cases h : l.contains q = true
  · rw [if_pos h]
    have hq : q ∈ l := by simpa using h
    exact ⟨Or.inr, fun h => h.elim (fun e => e ▸ hq) id⟩
  · rw [if_neg h]
    simp [NoticePair.mem_all]

theorem addPair_nodup (q : NoticePair) {l : List NoticePair} (h : l.Nodup) : (addPair q l).Nodup := by
  unfold addPair
  split
  · exact h
  · exact NoticePair.all_nodup.filter _

/-- Entering a pair that is a member leaves the set unchanged (R175). -/
theorem addPair_of_mem {q : NoticePair} {l : List NoticePair} (h : q ∈ l) : addPair q l = l := by
  unfold addPair; simp [h]

/-- An event that is not judged for wake is posted alone. -/
theorem Part.raise_awake {p : Part} (h : p.ctl.mode ≠ .parked) (q : NoticePair) (e : Event) : p.raise q e = p.post q e := by
  unfold Part.raise Part.judgeWake
  simp [h]

theorem Part.raise_exempt {p : Part} {q : NoticePair} {e : Event} (h : wakeExempt q e = true) : p.raise q e = p.post q e := by
  unfold Part.raise Part.judgeWake
  simp [h]

/-! ### Mode and main power (R151, R152, R110) -/

theorem Part.dropBaselines_chan (p : Part) (c : Chan) :
    p.dropBaselines.chan c = { p.chan c with watchBaseline := none } :=
  Part.forEach_allChans p (fun _ x => { x with watchBaseline := none }) c

theorem Part.takeBaselines_chan (p : Part) (c : Chan) :
    p.takeBaselines.chan c = if (p.chan c).configured then { p.chan c with watchBaseline := some (p.chan c).load }
      else p.chan c :=
  Part.forEach_allChans p (fun _ x => if x.configured then { x with watchBaseline := some x.load } else x) c

/-- The baselines that go with a change of mode touch the channels alone. -/
theorem Part.changeBaselines_eq (p : Part) (old new : DeviceMode) :
    p.changeBaselines old new = { p with channels := (p.changeBaselines old new).channels } := by
  have loop (f : Channel → Channel) :
      (p.forEach allChans fun q c => q.modChan c f)
        = { p with channels := (p.forEach allChans fun q c => q.modChan c f).channels } :=
    Part.forEach_inv (P := fun q => q = { p with channels := q.channels }) rfl fun q x _ h => by
      rw [h]; rfl
  unfold Part.changeBaselines
  split
  · exact loop _
  · split
    · exact loop _
    · rfl

/-- A change of mode: the Mode Controller takes the mode and its power, the baselines follow, and MODE is posted. -/
theorem Part.changeMode_eq (p : Part) (new : DeviceMode) (cause : ModeCause) :
    p.changeMode new cause = { p with
      channels := (p.changeBaselines p.ctl.mode new).channels
      ctl := ({ p.ctl with mode := new } : ModeCtl).setPower new.powered
      codes := p.codes.write .mode (.modeChange new p.ctl.mode cause)
      linkA := p.linkA.offer .mode, linkB := p.linkB.offer .mode } := by
  unfold Part.changeMode
  rw [Part.changeBaselines_eq]
  have h : ((p.modCtl fun m => ({ m with mode := new } : ModeCtl).setPower new.powered).changeBaselines p.ctl.mode
      new).channels = (p.changeBaselines p.ctl.mode new).channels := by
    apply Part.channels_ext
    intro c
    unfold Part.changeBaselines
    split
    · rw [Part.takeBaselines_chan, Part.takeBaselines_chan]; rfl
    · split
      · rw [Part.dropBaselines_chan, Part.dropBaselines_chan]; rfl
      · rfl
  rw [h]
  rfl

@[simp] theorem Part.changeMode_group (p : Part) (new : DeviceMode) (cause : ModeCause) (g : Grp) :
    (p.changeMode new cause).group g = p.group g := by rw [Part.changeMode_eq]; rfl
@[simp] theorem Part.changeMode_queue (p : Part) (new : DeviceMode) (cause : ModeCause) (g : Grp) :
    (p.changeMode new cause).queue g = p.queue g := by rw [Part.changeMode_eq]; rfl
@[simp] theorem Part.changeMode_track (p : Part) (new : DeviceMode) (cause : ModeCause) (t : Trk) :
    (p.changeMode new cause).track t = p.track t := by rw [Part.changeMode_eq]; rfl
@[simp] theorem Part.changeMode_port (p : Part) (new : DeviceMode) (cause : ModeCause) (c : Chan) :
    (p.changeMode new cause).port c = p.port c := by rw [Part.changeMode_eq]; rfl
@[simp] theorem Part.changeMode_clock (p : Part) (new : DeviceMode) (cause : ModeCause) :
    (p.changeMode new cause).clock = p.clock := by rw [Part.changeMode_eq]
@[simp] theorem Part.changeMode_link (p : Part) (new : DeviceMode) (cause : ModeCause) (l : Link) :
    (p.changeMode new cause).link l = (p.link l).offer .mode := by rw [Part.changeMode_eq]; cases l <;> rfl
theorem Part.changeMode_ctl (p : Part) (new : DeviceMode) (cause : ModeCause) :
    (p.changeMode new cause).ctl = ({ p.ctl with mode := new } : ModeCtl).setPower new.powered := by rw [Part.changeMode_eq]

/-- A change of mode touches a channel's watch baseline alone. -/
theorem Part.changeMode_chan (p : Part) (new : DeviceMode) (cause : ModeCause) (c : Chan) :
    (p.changeMode new cause).chan c =
      { p.chan c with watchBaseline := ((p.changeMode new cause).chan c).watchBaseline } := by
  rw [Part.changeMode_eq]
  show (p.changeBaselines p.ctl.mode new).chan c
    = { p.chan c with watchBaseline := ((p.changeBaselines p.ctl.mode new).chan c).watchBaseline }
  unfold Part.changeBaselines
  split
  · rw [Part.takeBaselines_chan]; split <;> rfl
  · split
    · rw [Part.dropBaselines_chan]
    · rfl

/-! ### Movers and jogs (R8, R23, R163, R164) -/

/-- No channel has a mover. -/
theorem Part.firstMover_none (p : Part) : p.firstMover = none ↔ ∀ c, (p.chan c).mover = .none := by
  simp [Part.firstMover]

/-- The disarm takes the part to STANDBY when the flag is set, the device ARMED and no mover left; otherwise it does nothing. -/
theorem Part.judgeDisarm_eq (p : Part) :
    p.judgeDisarm = p ∨
      (p.ctl.silenceDisarm = true ∧ p.ctl.mode = .armed ∧ (∀ c, (p.chan c).mover = .none)
        ∧ p.judgeDisarm = (p.modCtl fun m => { m with silenceDisarm := false }).changeMode .standby .silence) := by
  unfold Part.judgeDisarm
  split
  · next h =>
    simp only [Bool.and_eq_true, decide_eq_true_eq, Option.isNone_iff_eq_none, Part.firstMover_none] at h
    exact Or.inr ⟨h.1.1, h.1.2, h.2, rfl⟩
  · exact Or.inl rfl

theorem Part.judgeDisarm_clear {p : Part} (h : p.ctl.silenceDisarm = false) : p.judgeDisarm = p := by
  unfold Part.judgeDisarm; simp [h]

@[simp] theorem Part.judgeDisarm_chan (p : Part) (c : Chan) : p.judgeDisarm.chan c = p.chan c := by
  rcases p.judgeDisarm_eq with h | ⟨_, ha, _, h⟩
  · rw [h]
  · rw [h, Part.changeMode_eq]
    show (Part.changeBaselines _ _ _).chan c = _
    unfold Part.changeBaselines
    simp [Part.modCtl, ha]
    rfl

@[simp] theorem Part.judgeDisarm_group (p : Part) (g : Grp) : p.judgeDisarm.group g = p.group g := by
  rcases p.judgeDisarm_eq with h | ⟨_, _, _, h⟩
  · rw [h]
  · rw [h]; simp
@[simp] theorem Part.judgeDisarm_queue (p : Part) (g : Grp) : p.judgeDisarm.queue g = p.queue g := by
  rcases p.judgeDisarm_eq with h | ⟨_, _, _, h⟩
  · rw [h]
  · rw [h]; simp
@[simp] theorem Part.judgeDisarm_track (p : Part) (t : Trk) : p.judgeDisarm.track t = p.track t := by
  rcases p.judgeDisarm_eq with h | ⟨_, _, _, h⟩
  · rw [h]
  · rw [h]; simp
@[simp] theorem Part.judgeDisarm_port (p : Part) (c : Chan) : p.judgeDisarm.port c = p.port c := by
  rcases p.judgeDisarm_eq with h | ⟨_, _, _, h⟩
  · rw [h]
  · rw [h]; simp
@[simp] theorem Part.judgeDisarm_clock (p : Part) : p.judgeDisarm.clock = p.clock := by
  rcases p.judgeDisarm_eq with h | ⟨_, _, _, h⟩
  · rw [h]
  · rw [h]; simp

theorem Part.clearMover_chan (p : Part) (c d : Chan) :
    (p.clearMover c).chan d = if d = c then (p.chan d).dropMover else p.chan d := by
  simp [Part.clearMover, Part.modChan_chan]

@[simp] theorem Part.clearMover_group (p : Part) (c : Chan) (g : Grp) : (p.clearMover c).group g = p.group g := by
  simp [Part.clearMover]
@[simp] theorem Part.clearMover_queue (p : Part) (c : Chan) (g : Grp) : (p.clearMover c).queue g = p.queue g := by
  simp [Part.clearMover]
@[simp] theorem Part.clearMover_track (p : Part) (c : Chan) (t : Trk) : (p.clearMover c).track t = p.track t := by
  simp [Part.clearMover]
@[simp] theorem Part.clearMover_port (p : Part) (c d : Chan) : (p.clearMover c).port d = p.port d := by
  simp [Part.clearMover]
@[simp] theorem Part.clearMover_clock (p : Part) (c : Chan) : (p.clearMover c).clock = p.clock := by
  simp [Part.clearMover]

/-- With the silence-disarm flag clear, clearing a mover touches its channel alone. -/
theorem Part.clearMover_clear {p : Part} (h : p.ctl.silenceDisarm = false) (c : Chan) :
    p.clearMover c = p.modChan c Channel.dropMover := Part.judgeDisarm_clear (p := p.modChan c Channel.dropMover) h

theorem Part.endJog_chan (p : Part) (c d : Chan) :
    (p.endJog c).chan d = if d = c then (p.chan d).stop.dropMover else p.chan d := by
  unfold Part.endJog
  rw [Part.clearMover_chan, Part.modChan_chan]
  split <;> rfl

/-! ### Timers -/

theorem Timer.out_iff (t : Timer) : t.out = true ↔ t = some 0 := by simp [Timer.out]

/-! ### Free orders (log 5) -/

/-- A free order holds the same elements. -/
theorem mem_insertPlace {α : Type} (k : Nat) (x y : α) (l : List α) : y ∈ insertPlace k x l ↔ y = x ∨ y ∈ l := by
  induction l generalizing k with
  | nil => simp [insertPlace]
  | cons z l ih =>
    cases k with
    | zero => simp [insertPlace]
    | succ k => simp only [insertPlace, List.mem_cons, ih]; tauto

theorem mem_freeOrder {α : Type} (n : Nat) (x : α) (l : List α) : x ∈ freeOrder n l ↔ x ∈ l := by
  induction l with
  | nil => simp [freeOrder]
  | cons y l ih => simp only [freeOrder, mem_insertPlace, ih, List.mem_cons]

end Sys2Proof.Machine
end

