-- ==== Sys2Proof/Laws/Admission.lean ====
section
/-! SUPPORT. What the taking of a request does: the checks of a verdict, the effects of a frame at its link, the reply, and the two
ends of a request, refused and accepted. -/

namespace Sys2Proof.Machine

/-! ### Verdicts (R26) -/

@[simp] theorem check_none (code : Result) (v : Verdict) : check code none v = v := rfl
@[simp] theorem check_some (code : Result) (i : Byte) (v : Verdict) : check code (some i) v = .refused code i := rfl
@[simp] theorem refuseIf_true (code : Result) (i : Byte) (v : Verdict) : refuseIf true code i v = .refused code i := rfl
@[simp] theorem refuseIf_false (code : Result) (i : Byte) (v : Verdict) : refuseIf false code i v = v := rfl

/-- R26: what passes the checks of a list of steps is what the last of them says. -/
theorem check_accepted {code : Result} {bad : Option Byte} {v : Verdict} {data : List Byte} {p : Part}
    (h : check code bad v = .accepted data p) : bad = none ∧ v = .accepted data p := by
  cases bad with
  | none => exact ⟨rfl, h⟩
  | some i => cases h

theorem refuseIf_accepted {bad : Bool} {code : Result} {i : Byte} {v : Verdict} {data : List Byte} {p : Part}
    (h : refuseIf bad code i v = .accepted data p) : bad = false ∧ v = .accepted data p := by
  cases bad with
  | false => exact ⟨rfl, h⟩
  | true => cases h

/-! ### Fields -/

/-- R1: the existing channel a byte names is the one whose number it is. -/
theorem Part.chanOf_byteOf (p : Part) (c : Chan) (h : p.hasChan c = true) : p.chanOf (byteOf c.val) = some c := by
  have hc := c.isLt
  have e : (byteOf c.val).toNat = c.val := by simp only [byteOf, BitVec.toNat_ofNat]; omega
  unfold Part.chanOf
  simp only [e, dif_pos hc]
  exact if_pos h

theorem grpOf_byteOf (g : Grp) : grpOf (byteOf g.val) = some g := by revert g; decide
theorem trkOf_byteOf (t : Trk) : trkOf (byteOf t.val) = some t := by revert t; decide

@[simp] theorem Part.withChan_byteOf {p : Part} {c : Chan} (h : p.hasChan c = true) (rest : Chan → Verdict) :
    p.withChan (byteOf c.val) rest = rest c := by simp [Part.withChan, Part.chanOf_byteOf p c h]
@[simp] theorem withGrp_byteOf (g : Grp) (rest : Grp → Verdict) : withGrp (byteOf g.val) rest = rest g := by
  simp [withGrp, grpOf_byteOf]
@[simp] theorem withTrk_byteOf (t : Trk) (rest : Trk → Verdict) : withTrk (byteOf t.val) rest = rest t := by
  simp [withTrk, trkOf_byteOf]

/-- R30: a span of existing channels is judged on its members. -/
theorem Part.withSpan_byteOf {p : Part} {f e : Chan} (hf : p.hasChan f = true) (he : p.hasChan e = true)
    (rest : List Chan → Verdict) : p.withSpan (byteOf f.val) (byteOf e.val) rest = rest (spanMembers f e) := by
  simp [Part.withSpan, Part.span, Part.chanOf_byteOf p f hf, Part.chanOf_byteOf p e he]

theorem mem_spanMembers (f e c : Chan) : c ∈ spanMembers f e ↔ InSpan f e c := by
  simp [spanMembers, InSpan]

theorem spanMembers_nodup (f e : Chan) : (spanMembers f e).Nodup := allChans_nodup.filter _

/-- No member of a list meets a condition exactly when the search for the first finds none. -/
theorem Part.firstChan_none (p : Part) (l : List Chan) (bad : Channel → Bool) :
    p.firstChan l bad = none ↔ ∀ c ∈ l, bad (p.chan c) = false := by
  simp [Part.firstChan]

theorem Part.firstLane_none (p : Part) (g : Grp) (bad : Channel → Bool) :
    p.firstLane g bad = none ↔ ∀ ln ∈ (p.group g).lanes, bad (p.chan ln.channel) = false := by
  simp [Part.firstLane]

/-! ### A taken frame (R160, R164, R170) -/

@[simp] theorem Part.frameTaken_channels (p : Part) (l : Link) : (p.frameTaken l).channels = p.channels := by
  cases l <;> rfl
@[simp] theorem Part.frameTaken_ports (p : Part) (l : Link) : (p.frameTaken l).ports = p.ports := by cases l <;> rfl
@[simp] theorem Part.frameTaken_groups (p : Part) (l : Link) : (p.frameTaken l).groups = p.groups := by cases l <;> rfl
@[simp] theorem Part.frameTaken_queues (p : Part) (l : Link) : (p.frameTaken l).queues = p.queues := by cases l <;> rfl
@[simp] theorem Part.frameTaken_clock (p : Part) (l : Link) : (p.frameTaken l).clock = p.clock := by cases l <;> rfl
@[simp] theorem Part.frameTaken_tracks (p : Part) (l : Link) : (p.frameTaken l).tracks = p.tracks := by cases l <;> rfl
@[simp] theorem Part.frameTaken_codes (p : Part) (l : Link) : (p.frameTaken l).codes = p.codes := by cases l <;> rfl
@[simp] theorem Part.frameTaken_draws (p : Part) (l : Link) : (p.frameTaken l).draws = p.draws := by cases l <;> rfl
@[simp] theorem Part.frameTaken_chan (p : Part) (l : Link) (c : Chan) : (p.frameTaken l).chan c = p.chan c := by
  cases l <;> rfl
@[simp] theorem Part.frameTaken_port (p : Part) (l : Link) (c : Chan) : (p.frameTaken l).port c = p.port c := by
  cases l <;> rfl
@[simp] theorem Part.frameTaken_group (p : Part) (l : Link) (g : Grp) : (p.frameTaken l).group g = p.group g := by
  cases l <;> rfl
@[simp] theorem Part.frameTaken_queue (p : Part) (l : Link) (g : Grp) : (p.frameTaken l).queue g = p.queue g := by
  cases l <;> rfl
@[simp] theorem Part.frameTaken_track (p : Part) (l : Link) (t : Trk) : (p.frameTaken l).track t = p.track t := by
  cases l <;> rfl
@[simp] theorem Part.frameTaken_ctl (p : Part) (l : Link) :
    (p.frameTaken l).ctl = { p.ctl with silenceDisarm := false } := by cases l <;> rfl
@[simp] theorem Part.frameTaken_hasChan (p : Part) (l : Link) (c : Chan) : (p.frameTaken l).hasChan c = p.hasChan c := by
  cases l <;> rfl
@[simp] theorem Part.frameTaken_link_self (p : Part) (l : Link) :
    (p.frameTaken l).link l =
      { p.link l with assembler := .hunting, watchdog := (p.link l).watchdog.restart } := by cases l <;> rfl
@[simp] theorem Part.frameTaken_link_other (p : Part) (l : Link) : (p.frameTaken l).link l.other = p.link l.other := by
  cases l <;> rfl

/-! ### A reply (R171, R172) -/

@[simp] theorem Part.answer_channels (p : Part) (l : Link) (k : Byte) (r : Result) (i : Byte) (d : List Byte) :
    (p.answer l k r i d).channels = p.channels := by cases l <;> rfl
@[simp] theorem Part.answer_ports (p : Part) (l : Link) (k : Byte) (r : Result) (i : Byte) (d : List Byte) :
    (p.answer l k r i d).ports = p.ports := by cases l <;> rfl
@[simp] theorem Part.answer_groups (p : Part) (l : Link) (k : Byte) (r : Result) (i : Byte) (d : List Byte) :
    (p.answer l k r i d).groups = p.groups := by cases l <;> rfl
@[simp] theorem Part.answer_queues (p : Part) (l : Link) (k : Byte) (r : Result) (i : Byte) (d : List Byte) :
    (p.answer l k r i d).queues = p.queues := by cases l <;> rfl
@[simp] theorem Part.answer_clock (p : Part) (l : Link) (k : Byte) (r : Result) (i : Byte) (d : List Byte) :
    (p.answer l k r i d).clock = p.clock := by cases l <;> rfl
@[simp] theorem Part.answer_tracks (p : Part) (l : Link) (k : Byte) (r : Result) (i : Byte) (d : List Byte) :
    (p.answer l k r i d).tracks = p.tracks := by cases l <;> rfl
@[simp] theorem Part.answer_codes (p : Part) (l : Link) (k : Byte) (r : Result) (i : Byte) (d : List Byte) :
    (p.answer l k r i d).codes = p.codes := by cases l <;> rfl
@[simp] theorem Part.answer_ctl (p : Part) (l : Link) (k : Byte) (r : Result) (i : Byte) (d : List Byte) :
    (p.answer l k r i d).ctl = p.ctl := by cases l <;> rfl
@[simp] theorem Part.answer_draws (p : Part) (l : Link) (k : Byte) (r : Result) (i : Byte) (d : List Byte) :
    (p.answer l k r i d).draws = p.draws := by cases l <;> rfl
@[simp] theorem Part.answer_chan (p : Part) (l : Link) (k : Byte) (r : Result) (i : Byte) (d : List Byte) (c : Chan) :
    (p.answer l k r i d).chan c = p.chan c := by cases l <;> rfl
@[simp] theorem Part.answer_port (p : Part) (l : Link) (k : Byte) (r : Result) (i : Byte) (d : List Byte) (c : Chan) :
    (p.answer l k r i d).port c = p.port c := by cases l <;> rfl
@[simp] theorem Part.answer_group (p : Part) (l : Link) (k : Byte) (r : Result) (i : Byte) (d : List Byte) (g : Grp) :
    (p.answer l k r i d).group g = p.group g := by cases l <;> rfl
@[simp] theorem Part.answer_queue (p : Part) (l : Link) (k : Byte) (r : Result) (i : Byte) (d : List Byte) (g : Grp) :
    (p.answer l k r i d).queue g = p.queue g := by cases l <;> rfl
@[simp] theorem Part.answer_track (p : Part) (l : Link) (k : Byte) (r : Result) (i : Byte) (d : List Byte) (t : Trk) :
    (p.answer l k r i d).track t = p.track t := by cases l <;> rfl
@[simp] theorem Part.answer_link_other (p : Part) (l : Link) (k : Byte) (r : Result) (i : Byte) (d : List Byte) :
    (p.answer l k r i d).link l.other = p.link l.other := by cases l <;> rfl
@[simp] theorem Part.answer_link_self (p : Part) (l : Link) (k : Byte) (r : Result) (i : Byte) (d : List Byte) :
    (p.answer l k r i d).link l =
      { p.link l with
        answering := some { address := p.ctl.straps.rackId, kind := k ||| 0x80, result := r, status := p.status l, index := i
                            data := d }
        overrunSince := false } := by cases l <;> rfl

/-- R172: composing a reply does not change the status byte. -/
@[simp] theorem Part.answer_status (p : Part) (l : Link) (k : Byte) (r : Result) (i : Byte) (d : List Byte) :
    (p.answer l k r i d).status l = p.status l := by cases l <;> rfl

@[simp] theorem Part.drive_status (p : Part) (l : Link) : p.drive.status l = p.status l := by simp [Part.status]

/-! ### A request (R26, R170 to R172) -/

/-- R169: a frame of at most 240 body bytes is taken when no line reset holds the part. -/
theorem Part.frame_valid {p : Part} {l : Link} {body : List Byte} (h : p.ctl.held = false) (hb : body.length ≤ 240)
    (f : Part → Part) : p.frame l body f = f p := by
  unfold Part.frame
  rw [Part.awake_of_free h]
  exact if_neg (by simp [Config.maxBody, hb])

/-- R169: a longer frame is discarded. -/
theorem Part.frame_long {p : Part} {l : Link} {body : List Byte} (h : p.ctl.held = false) (hb : 240 < body.length)
    (f : Part → Part) : p.frame l body f = p.assembler l .hunting := by
  unfold Part.frame
  rw [Part.awake_of_free h]
  exact if_pos hb

theorem Part.assembler_discards (p : Part) (l : Link) : p.Discards (p.assembler l .hunting) l := rfl

/-- A ready link takes its request: it is judged, and its verdict answered. -/
theorem Part.request_ready {p : Part} {l : Link} (h : p.Ready l) (kind tier : Byte) {body : List Byte}
    (hb : body.length ≤ 240) (fits : List Byte → Bool) (judge : Judge) :
    p.request l kind tier body fits judge =
      match (p.frameTaken l).verdictOf l tier body fits judge with
      | .refused code index => (p.frameTaken l).answer l kind code index []
      | .accepted data p' => p'.answer l kind .ok noIndex data := by
  unfold Part.request
  rw [Part.frame_valid h.1 hb]
  exact if_neg (by simp [h.2])

/-- R7, R26: a driven judge accepts what the judge accepts, and the outputs follow. -/
theorem Judge.driven_accepted {judge : Judge} {l : Link} {tier : Nat} {body data : List Byte} {p q : Part}
    (h : judge l tier body p = .accepted data q) : judge.driven l tier body p = .accepted data q.drive := by
  unfold Judge.driven; rw [h]; rfl

/-- R26: a driven judge refuses what the judge refuses. -/
theorem Judge.driven_refused {judge : Judge} {l : Link} {tier : Nat} {body : List Byte} {p : Part} {code : Result}
    {index : Byte} (h : judge l tier body p = .refused code index) : judge.driven l tier body p = .refused code index := by
  unfold Judge.driven; rw [h]; rfl

/-- A request of a fitting body and a known tier is judged by its own conditions. -/
theorem Part.verdictOf_fits {p : Part} {l : Link} {tier : Byte} {body : List Byte} {fits : List Byte → Bool} (judge : Judge)
    (hf : fits body = true) (ht : tier.toNat ≤ 7) :
    p.verdictOf l tier body fits judge = judge l (p.effectiveTier l tier) body p := by
  have : ¬7 < tier.toNat := by omega
  simp [Part.verdictOf, hf, this]

/-- R32: a taken frame leaves the floor tiers as they are. -/
@[simp] theorem Part.frameTaken_effectiveTier (p : Part) (l m : Link) (tier : Byte) :
    (p.frameTaken l).effectiveTier m tier = p.effectiveTier m tier := by cases l <;> cases m <;> rfl

/-- R26: a refused request. -/
theorem Part.answered_refuses (p : Part) (l : Link) (kind : Byte) (code : Result) (index : Byte) :
    p.Refuses ((p.frameTaken l).answer l kind code index []) l kind code index := by
  refine ⟨⟨?_, by simp, by simp⟩, ?_⟩
  · simp [Part.replyLink]
  · intro b hb
    simp only [List.mem_cons, List.not_mem_nil, or_false] at hb
    rcases hb with rfl | rfl | rfl | rfl | rfl | rfl | rfl <;> simp [Block.Kept]

/-- A request that its judge refuses is refused. -/
theorem Part.request_refuses {p : Part} {l : Link} {kind tier : Byte} {body : List Byte} {fits : List Byte → Bool}
    {judge : Judge} {code : Result} {index : Byte} (h : p.Ready l) (hb : body.length ≤ 240)
    (hj : (p.frameTaken l).verdictOf l tier body fits judge = .refused code index) :
    p.Refuses (p.request l kind tier body fits judge) l kind code index := by
  rw [Part.request_ready h _ _ hb, hj]
  exact p.answered_refuses l kind code index

/-- A request that its judge accepts is answered with the part as the judge leaves it. -/
theorem Part.request_accepts {p q : Part} {l : Link} {kind tier : Byte} {body : List Byte} {fits : List Byte → Bool}
    {judge : Judge} {data : List Byte} (h : p.Ready l) (hb : body.length ≤ 240)
    (hj : (p.frameTaken l).verdictOf l tier body fits judge = .accepted data q) :
    p.request l kind tier body fits judge = q.answer l kind .ok 0xFF data := by
  rw [Part.request_ready h _ _ hb, hj]; rfl

/-- An accepted request whose judge leaves the links and the Mode Controller as the frame's taking does is served. -/
theorem Part.answered_served {p q : Part} {l : Link} (kind : Byte) (data : List Byte)
    (hl : q.link l = (p.frameTaken l).link l) (ho : q.link l.other = p.link l.other)
    (hc : q.ctl = { p.ctl with silenceDisarm := false }) :
    p.Served (q.answer l kind .ok 0xFF data) l kind .ok 0xFF data := by
  refine ⟨?_, by rw [Part.answer_link_other, ho], by rw [Part.answer_ctl, hc]⟩
  rw [Part.answer_link_self, hl]
  simp [Part.replyLink, hc]

theorem Part.Served.drive {p q : Part} {l : Link} {kind : Byte} {code : Result} {index : Byte} {data : List Byte}
    (h : p.Served q l kind code index data) : p.Served q.drive l kind code index data := by
  obtain ⟨h1, h2, h3⟩ := h
  refine ⟨?_, by rw [Part.drive_link, h2], by rw [Part.drive_ctl, h3]⟩
  rw [Part.drive_link, h1]
  simp [Part.replyLink]

end Sys2Proof.Machine
end

