-- ==== Sys2Proof/Laws/Fires.lean ====
section
/-! SUPPORT. What a fire and the start of a move do (R63 to R66), and how movers of a group's lanes are cleared (R77). -/

namespace Sys2Proof.Machine

/-! ### Starting a move (R66) -/

@[simp] theorem Part.startMove_ports (p : Part) (g : Grp) (tier : Nat) (o : Link) (src : MoveSource) (v : Option Nat)
    (plan : List (Int × Nat)) : (p.startMove g tier o src v plan).ports = p.ports :=
  Part.forEach_keeps (fun q => q.ports) _ _ fun _ _ _ => rfl
@[simp] theorem Part.startMove_queues (p : Part) (g : Grp) (tier : Nat) (o : Link) (src : MoveSource) (v : Option Nat)
    (plan : List (Int × Nat)) : (p.startMove g tier o src v plan).queues = p.queues :=
  Part.forEach_keeps (fun q => q.queues) _ _ fun _ _ _ => rfl
@[simp] theorem Part.startMove_clock (p : Part) (g : Grp) (tier : Nat) (o : Link) (src : MoveSource) (v : Option Nat)
    (plan : List (Int × Nat)) : (p.startMove g tier o src v plan).clock = p.clock :=
  Part.forEach_keeps (fun q => q.clock) _ _ fun _ _ _ => rfl
@[simp] theorem Part.startMove_tracks (p : Part) (g : Grp) (tier : Nat) (o : Link) (src : MoveSource) (v : Option Nat)
    (plan : List (Int × Nat)) : (p.startMove g tier o src v plan).tracks = p.tracks :=
  Part.forEach_keeps (fun q => q.tracks) _ _ fun _ _ _ => rfl
@[simp] theorem Part.startMove_codes (p : Part) (g : Grp) (tier : Nat) (o : Link) (src : MoveSource) (v : Option Nat)
    (plan : List (Int × Nat)) : (p.startMove g tier o src v plan).codes = p.codes :=
  Part.forEach_keeps (fun q => q.codes) _ _ fun _ _ _ => rfl
@[simp] theorem Part.startMove_ctl (p : Part) (g : Grp) (tier : Nat) (o : Link) (src : MoveSource) (v : Option Nat)
    (plan : List (Int × Nat)) : (p.startMove g tier o src v plan).ctl = p.ctl :=
  Part.forEach_keeps (fun q => q.ctl) _ _ fun _ _ _ => rfl
@[simp] theorem Part.startMove_link (p : Part) (g : Grp) (tier : Nat) (o : Link) (src : MoveSource) (v : Option Nat)
    (plan : List (Int × Nat)) (l : Link) : (p.startMove g tier o src v plan).link l = p.link l :=
  (Part.forEach_keeps (fun q => q.link l) _ _ fun q _ _ => Part.modChan_link q _ _ l).trans (Part.modGroup_link p g _ l)

/-- The group of a started move: PREPARING, with its record and its control period. -/
theorem Part.startMove_group (p : Part) (g h : Grp) (tier : Nat) (o : Link) (src : MoveSource) (v : Option Nat)
    (plan : List (Int × Nat)) :
    (p.startMove g tier o src v plan).group h =
      if h = g then
        { p.group g with
          state := .preparing, held := false, controlTimer := some 20
          move := some { origin := o, tier := tier, source := src, speed := v, reason := none
                         lanes := ((p.group g).lanes.zip plan).map fun lt =>
                           fireLane (p.chan lt.1.channel) lt.2.1 lt.2.2 } }
      else p.group h := by
  refine (Part.forEach_keeps (fun q => q.group h) _ _ fun q _ _ => Part.modChan_group q _ _ h).trans ?_
  rw [Part.modGroup_group]
  by_cases e : h = g
  · subst e; simp [Config.controlMs]
  · simp [e]

/-- A channel that is no lane's is left alone by the start of a move. -/
theorem Part.startMove_chan_out (p : Part) (g : Grp) (tier : Nat) (o : Link) (src : MoveSource) (v : Option Nat)
    (plan : List (Int × Nat)) (c : Chan) (hc : ∀ ln ∈ (p.group g).lanes, ln.channel ≠ c) :
    (p.startMove g tier o src v plan).chan c = p.chan c :=
  Part.forEach_modChan_out (key := fun lr : Lane × LaneRecord => lr.1.channel) (f := fun lr => reserveChannel g lr.2) _ _ c
    fun lr hlr => hc lr.1 (List.of_mem_zip hlr).1

/-! ### Clearing the movers of a group's lanes (R8, R77) -/

/-- With the silence-disarm flag clear, the movers of distinct lane channels are cleared, and nothing else is touched. -/
theorem Part.clearLanes_clear {p : Part} (h : p.ctl.silenceDisarm = false) (g : Grp) :
    p.clearLanes g = p.forEach (p.group g).lanes fun q ln => q.modChan ln.channel Channel.dropMover := by
  unfold Part.clearLanes
  generalize (p.group g).lanes = lanes
  induction lanes generalizing p with
  | nil => rfl
  | cons ln lanes ih =>
    rw [Part.forEach_cons, Part.forEach_cons, Part.clearMover_clear h]
    exact ih h

/-! ### The admission of a fire (R63 to R65) -/

/-- A fire that meets every condition is accepted, and starts the move. -/
theorem Part.fire_accepted {p : Part} {g : Grp} {tier : Nat} {l : Link} (src : MoveSource) (v : Option Nat)
    {plan : List (Int × Nat)} (ha : p.Admits g tier l (plan.map (·.1))) :
    p.fire g tier l false src v plan = .accepted [] (p.startMove g tier l src v plan) := by
  have h1 : p.firstLane g (aboveGuard tier) = none :=
    (p.firstLane_none g _).mpr fun ln hl => by
      have : tier ≤ (p.chan ln.channel).config.guardTier := (ha.allow ln hl).1
      simp [aboveGuard, this]
  have h2 : p.firstLane g (notOwnedBy l) = none :=
    (p.firstLane_none g _).mpr fun ln hl => by simp [notOwnedBy, (ha.allow ln hl).2.1]
  have h3 : p.firstLane g unreferenced = none :=
    (p.firstLane_none g _).mpr fun ln hl => by simp [unreferenced, (ha.allow ln hl).2.2]
  have h4 : p.firstLane g unreservable = none :=
    (p.firstLane_none g _).mpr fun ln hl => by simp [unreservable, (ha.free ln hl).1, (ha.free ln hl).2]
  have h5 : p.firstOut g plan = none := by
    unfold Part.firstOut
    rw [List.findIdx?_eq_none_iff]
    intro lt hlt
    have hb := ha.bounds (lt.1, lt.2.1) (by
      rw [List.zip_map_right]
      exact List.mem_map.mpr ⟨lt, hlt, rfl⟩)
    obtain ⟨b1, b2, b3, b4⟩ := hb
    have c1 : ¬lt.2.1 < 0 := not_lt.mpr b1
    have c2 : ¬((Config.maxPosition : Int) < lt.2.1) := not_lt.mpr b2
    have c3 : ¬lt.2.1 < ((p.chan lt.1.channel).config.softLower : Int) := not_lt.mpr b3
    have c4 : ¬(((p.chan lt.1.channel).config.softUpper : Int) < lt.2.1) := not_lt.mpr b4
    simp [outOfBounds, c1, c2, c3, c4]
  simp [Part.fire, ha.armed, h1, h2, h3, h4, h5]

/-- R113: the group travel of a cue. -/
theorem Part.cueTravel_eq (p : Part) (g : Grp) (x : Cue) : p.cueTravel g x.form = p.travelOf g x := by
  unfold Part.cueTravel Part.travelOf
  cases x.form <;> cases (p.group g).lanes <;> rfl

/-- R64: the targets of a cue's plan. -/
theorem Part.cuePlan_targets (p : Part) (g : Grp) (x : Cue) : (p.cuePlan g x).map (·.1) = p.cueTargets g x := by
  simp [Part.cuePlan, Part.cueTargets, Part.cueTravel_eq, List.map_map, Function.comp_def]

end Sys2Proof.Machine
end

