-- ==== Sys2Proof/Laws/Frames.lean ====
section
/-! SUPPORT. The command of a frame for this rack: it is well formed, and asks for what its frame carries. What a link makes of
one received byte. -/

namespace Sys2Proof.Machine

/-- R188: the command of a known kind, told apart by a byte of the body where the kind has several, asks for its frame's kind, tier
and body. -/
theorem requestCommand_request (l : Link) (tier : Byte) (body : List Byte) :
    ∀ kind ∈ requestKinds, (requestCommand l kind tier body).request = some ⟨l, kind, tier, body⟩ := by
  simp only [requestKinds, List.forall_mem_cons, List.not_mem_nil, false_implies, implies_true, and_true]
  repeat' apply And.intro
  all_goals first
    | rfl
    | show Instr.request (ite _ _ _) = _; split <;> rfl
    | show Instr.request (ite _ _ (ite _ _ _)) = _; split <;> [rfl; split <;> rfl]

/-- R169, R188: the command of a known kind is well formed. -/
theorem requestCommand_wf (l : Link) (tier : Byte) {body : List Byte} (h : body.length ≤ 240) :
    ∀ kind ∈ requestKinds, (requestCommand l kind tier body).wf = true := by
  have fits : bodyFits body = true := by simpa [bodyFits] using h
  simp only [requestKinds, List.forall_mem_cons, List.not_mem_nil, false_implies, implies_true, and_true]
  repeat' apply And.intro
  all_goals first
    | exact fits
    | show Instr.wf (ite _ _ (ite _ _ _)) = _; split <;> [skip; split] <;> simp_all [Instr.wf]
    | show Instr.wf (ite _ _ _) = _; split <;> simp_all [Instr.wf]

/-! ### One byte (R169) -/

theorem State.receive_nil (s : State) (l : Link) : s.receive l [] = .next s := rfl

theorem State.receive_cons {s t : State} {l : Link} {b : Byte} (h : s.receiveByte l b = .next t) (rest : List Byte) :
    s.receive l (b :: rest) = t.receive l rest := by
  simp only [State.receive, h]

theorem State.receiveByte_held {s : State} (h : s.part.ctl.held = true) (l : Link) (b : Byte) :
    s.receiveByte l b = .next s := by
  simp [State.receiveByte, h]

theorem State.receiveByte_discards {s : State} {l : Link} {b : Byte} (h : (s.part.link l).assembler = .hunting)
    (hb : b ≠ 0xA5) : s.receiveByte l b = .next s := by
  by_cases held : s.part.ctl.held = true
  · exact receiveByte_held held l b
  · rw [State.receiveByte, if_neg held, h]
    exact if_neg hb

theorem State.receiveByte_starts {s : State} {l : Link} (awake : s.part.ctl.held = false)
    (h : (s.part.link l).assembler = .hunting) : s.receiveByte l 0xA5 = exec (.frameStart l) s := by
  simp [State.receiveByte, awake, h]

theorem State.receiveByte_holds {s : State} {l : Link} {bytes : List Byte} {b : Byte} (awake : s.part.ctl.held = false)
    (h : (s.part.link l).assembler = .assembling bytes)
    (more : frameCommand s.part.ctl.straps.rackId l (bytes ++ [b]) = none) :
    s.receiveByte l b = .next { s with part := s.part.assembler l (.assembling (bytes ++ [b])) } := by
  simp [State.receiveByte, awake, h, more]

theorem State.receiveByte_takes {s : State} {l : Link} {bytes : List Byte} {b : Byte} {i : Instr}
    (awake : s.part.ctl.held = false) (h : (s.part.link l).assembler = .assembling bytes)
    (whole : frameCommand s.part.ctl.straps.rackId l (bytes ++ [b]) = some i) : s.receiveByte l b = exec i s := by
  simp [State.receiveByte, awake, h, whole]

end Sys2Proof.Machine
end

