-- ==== Sys2Proof/Laws/Stops.lean ====
section
/-! SUPPORT. What a stop of a group does (R81, R82, R83), when a fault reaches a channel and when a halt changes nothing (R102,
R155). -/

namespace Sys2Proof.Machine

/-- The group that enters STOPPING: its reason, and its control period stopped. The other groups are left alone. -/
theorem Part.enterStopping_group (p : Part) (g h : Grp) (reason : StopReason) :
    (p.enterStopping g reason).group h =
      if h = g then
        { p.group g with
          state := .stopping, controlTimer := none
          move := (p.group g).move.map fun m => { m with reason := some reason } }
      else p.group h := by
  refine (Part.forEach_keeps (fun q => q.group h) _ _ fun q _ _ => Part.modChan_group q _ _ h).trans ?_
  rw [Part.modGroup_group]
  by_cases e : h = g
  · subst e; simp
  · simp [e]

/-- A channel that is no lane's is left alone. -/
theorem Part.enterStopping_chan_out (p : Part) (g : Grp) (reason : StopReason) (c : Chan)
    (hc : ∀ ln ∈ (p.group g).lanes, ln.channel ≠ c) : (p.enterStopping g reason).chan c = p.chan c :=
  Part.forEach_modChan_out (key := fun ln : Lane => ln.channel) (f := fun _ => Channel.stop) _ _ c hc

/-- A stop of a channel that is STOPPING already, or at rest, changes nothing when repeated. -/
theorem Channel.stop_stop (x : Channel) : x.stop.stop = x.stop := by
  unfold Channel.stop
  cases h : x.state <;> simp [h, Channel.toStopping, Channel.syncWatch]

/-- Each lane's channel is given a stop, however often the lanes name it. -/
theorem Part.enterStopping_chan_in (p : Part) (g : Grp) (reason : StopReason) (ln : Lane)
    (hl : ln ∈ (p.group g).lanes) : (p.enterStopping g reason).chan ln.channel = (p.chan ln.channel).stop := by
  have go : ∀ (l : List Lane) (p : Part),
      (ln ∈ l → (p.forEach l fun q x => q.modChan x.channel Channel.stop).chan ln.channel = (p.chan ln.channel).stop)
      ∧ ((p.chan ln.channel).stop = p.chan ln.channel →
          (p.forEach l fun q x => q.modChan x.channel Channel.stop).chan ln.channel = p.chan ln.channel) := by
    intro l
    induction l with
    | nil => intro p; exact ⟨fun h => (nomatch h), fun _ => rfl⟩
    | cons x l ih =>
      intro p
      have step : (p.modChan x.channel Channel.stop).chan ln.channel =
          if ln.channel = x.channel then (p.chan ln.channel).stop else p.chan ln.channel := by
        rw [Part.modChan_chan]
      rw [Part.forEach_cons]
      by_cases e : ln.channel = x.channel
      · rw [if_pos e] at step
        have fixed := (ih (p.modChan x.channel Channel.stop)).2 (by rw [step, Channel.stop_stop])
        rw [step] at fixed
        exact ⟨fun _ => fixed, fun h => fixed.trans h⟩
      · rw [if_neg e] at step
        refine ⟨fun h => ?_, fun h => ?_⟩
        · have hm : ln ∈ l := (List.mem_cons.mp h).resolve_left fun he => e (he ▸ rfl)
          rw [(ih _).1 hm, step]
        · rw [(ih _).2 (by rw [step]; exact h), step]
  exact (go (p.group g).lanes _).1 hl

/-- R83: a stop reaches a PREPARING or RUNNING group alone. -/
theorem Part.stopGroup_inactive {p : Part} {g : Grp} (h : (p.group g).active = false) (reason : StopReason) :
    p.stopGroup g reason = p := by simp [Part.stopGroup, h]

/-- R82: a STOPPING group stays so while some lane channel is neither HOLDING nor FAULTED. -/
theorem Part.exitStopping_underway {p : Part} {g : Grp} (h : p.Underway g) : p.exitStopping g = p := by
  obtain ⟨ln, hl, h1, h2⟩ := h
  have : p.atRest g = false := by
    rw [Part.atRest, List.all_eq_false]
    exact ⟨ln, hl, by simp [h1, h2]⟩
  simp [Part.exitStopping, this]

/-- R81, R82: a stop of a PREPARING or RUNNING group with a lane still under way ends in STOPPING. -/
theorem Part.stopGroup_underway {p : Part} {g : Grp} (ha : (p.group g).active = true) (hu : p.Underway g)
    (reason : StopReason) : p.stopGroup g reason = p.enterStopping g reason := by
  rw [Part.stopGroup, if_pos ha]
  refine Part.exitStopping_underway ?_
  obtain ⟨ln, hl, h1, h2⟩ := hu
  refine ⟨ln, ?_, ?_⟩
  · rw [Part.enterStopping_group]; simpa using hl
  · rw [Part.enterStopping_chan_in p g reason ln hl]
    unfold Channel.stop
    cases h : (p.chan ln.channel).state <;>
      simp_all [Channel.toStopping, Channel.syncWatch]

/-- R145, R149: the last group to leave a play abandons it. -/
theorem Part.moveEnded_last {p : Part} {t : Trk} {g : Grp} (hg : g ∈ (p.track t).playing)
    (hl : dropGroup g (p.track t).playing = []) (hp : (p.track t).inPlay = true) :
    p.moveEnded t g = (p.modTrack t (Track.dropPlaying g)).abandonPlay t := by
  have hi : (Track.dropPlaying g (p.track t)).inPlay = true := hp
  simp [Part.moveEnded, hg, hi, show (Track.dropPlaying g (p.track t)).playing = [] from hl]

/-- R145: a group that is out of the play reports an end to no effect. -/
theorem Part.moveEnded_out {p : Part} {t : Trk} {g : Grp} (hg : g ∉ (p.track t).playing) : p.moveEnded t g = p := by
  simp [Part.moveEnded, hg]

/-- R102: a kind that the record already holds, or a fault of an ABSENT channel, is no new fault. -/
theorem Part.faultReaches_held {p : Part} {c : Chan} {k : FaultKind}
    (h : (p.chan c).configured = false ∨ (p.chan c).holdsFault k = true) : p.faultReaches c k = p := by
  unfold Part.faultReaches
  rcases h with h | h <;> simp [h]

/-- R155: a halt taken while HALTED changes nothing. -/
theorem Part.halt_halted {p : Part} (h : p.ctl.mode = .halted) (cause : ModeCause) : p.halt cause = p := by
  simp [Part.halt, h]

end Sys2Proof.Machine
end

