-- ==== Sys2Proof/Laws/Tracks.lean ====
section
/-! SUPPORT. What a new segment does to a group and to its channels (R85, R141, R144), and what a stop or a completion order does
to a group whose lane channels are at rest or under way (R81, R82, R84). -/

namespace Sys2Proof.Machine

/-! ### One channel -/

/-- R12: a stop, by the state of the channel. -/
theorem Channel.stop_eq (x : Channel) : x.stop = x.afterStop := by
  unfold Channel.stop Channel.afterStop
  cases h : x.state <;> simp [Channel.toStopping, Channel.stopped, Channel.syncWatch, Config.standstillMs]

/-- R8: the end of a mover. -/
theorem Channel.dropMover_eq (x : Channel) : x.dropMover = x.freed := by
  simp [Channel.dropMover, Channel.freed, Channel.syncWatch]

/-- R98: a mover arms the progress watch. -/
theorem Channel.armWatch_true (x : Channel) : x.armWatch true = x.watched := by
  unfold Channel.armWatch Channel.syncWatch Channel.watched
  by_cases h : x.state = .moving
  · cases x.progressTimer <;> simp [h, Config.progressMs]
  · simp [h]

/-- R85: the way to a target. -/
theorem dirOf_sub (target pos : Int) : dirOf (target - pos) = if target < pos then Dir.down else Dir.up := by
  unfold dirOf
  by_cases h : target < pos
  · simp [h, Int.sub_neg_of_lt h]
  · simp [h]

/-- R85, R10, R12, R98: a lane's channel after a new target. -/
theorem Channel.follow_eq (x : Channel) (r : LaneRecord) (target : Int) (speed : Nat) :
    Channel.follow (r.retarget x target (x.capDemand speed)) x
      = x.aimed target (if (target - x.pos).natAbs ≤ 5 then 0 else x.capDemand speed) := by
  have hway := dirOf_sub target x.pos
  have hcap : x.capDemand (x.capDemand speed) = x.capDemand speed := by
    unfold Channel.capDemand
    by_cases h : x.kind = .variableSpeed <;> simp [h]
  unfold Channel.aimed
  by_cases h : (target - x.pos).natAbs ≤ 5
  · simp [Channel.follow, LaneRecord.retarget, Config.arrivalMm, h, Channel.armWatch, Channel.syncWatch, Channel.stop_eq]
  · simp only [Channel.follow, LaneRecord.retarget, Config.arrivalMm, h, hway, if_false, reduceCtorEq, Channel.armWatch_true]
    generalize (if target < x.pos then Dir.down else Dir.up) = way
    unfold Channel.release
    cases hs : x.state
    case idle | holding =>
      simp [Channel.start, Channel.watched, Channel.syncWatch, hcap, Config.confirmMs]
    case starting | moving =>
      by_cases hd : x.direction = some way
      · simp [hd, hcap]
      · simp [hd, Channel.toStopping, Channel.stopped, Channel.watched, Channel.syncWatch, Config.standstillMs]
    case stopping => by_cases hf : x.fault = none <;> by_cases hm : x.mover = .none <;> simp [hf, hm]
    case absent | faulted => rfl

/-! ### A retarget of a group (R85, R141) -/

/-- R141: the demand of a lane for a segment: the one that a fire would give it, where it has more than 5 mm to travel. -/
theorem Part.firedLane_demand (p : Part) (duration : Nat) (ln : Lane) (target : Int) :
    (p.firedLane (p.segmentSpeed duration) ln target).demand =
      if (target - (p.chan ln.channel).pos).natAbs ≤ 5 then 0
      else (p.chan ln.channel).capDemand (p.segmentSpeed duration ln target) := by
  unfold Part.firedLane Channel.capDemand
  by_cases h : (target - (p.chan ln.channel).pos).natAbs ≤ 5 <;>
    by_cases k : (p.chan ln.channel).kind = .variableSpeed <;> simp [h, k]

/-- R85: a lane's entry after a new target. -/
theorem Part.retargetedLane_eq (p : Part) (duration : Nat) (ln : Lane) (r : LaneRecord) (target : Int) :
    r.retarget (p.chan ln.channel) target ((p.chan ln.channel).capDemand (p.segmentSpeed duration ln target))
      = p.retargetedLane duration ln r target := by
  have hd := p.firedLane_demand duration ln target
  have hf : (p.firedLane (p.segmentSpeed duration) ln target).full = (p.firedLane (p.segmentSpeed duration) ln target).demand :=
    rfl
  simp only [Part.retargetedLane, LaneRecord.retarget, hf, hd, dirOf_sub, Channel.movesToward, Config.arrivalMm]
  by_cases h : (target - (p.chan ln.channel).pos).natAbs ≤ 5 <;> simp [h, Part.firedLane, Bool.and_assoc]

/-- R141: the plan of a segment gives each lane its target, with the demand that covers it in the duration. -/
theorem Part.segmentPlan_eq (p : Part) (t : Trk) (g : Grp) (w : Waypoint) :
    p.segmentPlan t g w = ((p.group g).lanes.zip (p.segmentTargets t g w)).map fun lt =>
      (lt.2, (p.chan lt.1.channel).capDemand (p.segmentSpeed w.duration lt.1 lt.2)) := by
  have ho : p.originsOf t g = p.originList t g := by
    unfold Part.originsOf Part.originList Part.positions
    cases (p.track t).origins[g] <;> rfl
  unfold Part.segmentPlan Part.segmentTargets
  rw [ho]
  generalize p.originList t g = origins
  induction (p.group g).lanes generalizing origins with
  | nil => rfl
  | cons ln lanes ih =>
    cases origins with
    | nil => rfl
    | cons o origins =>
      simp only [List.zip_cons_cons, List.map_cons, ih]
      rfl

/-- R64: a target that a channel does not admit. -/
theorem outOfBounds_iff (x : Channel) (target : Int) : outOfBounds x target = true ↔ x.Bars target := by
  simp only [outOfBounds, Bool.or_eq_true, decide_eq_true_eq, or_assoc]
  rfl

/-- R64: a plan of a segment is out of bounds where a target is. -/
theorem Part.firstOut_segmentPlan (p : Part) (t : Trk) (g : Grp) (w : Waypoint) :
    (p.firstOut g (p.segmentPlan t g w)).isSome = true ↔
      ∃ lt ∈ (p.group g).lanes.zip (p.segmentTargets t g w), (p.chan lt.1.channel).Bars lt.2 := by
  rw [Part.segmentPlan_eq]
  unfold Part.firstOut
  rw [List.findIdx?_isSome, List.any_eq_true]
  generalize p.segmentTargets t g w = targets
  induction (p.group g).lanes generalizing targets with
  | nil => simp
  | cons ln lanes ih =>
    cases targets with
    | nil => simp
    | cons a targets =>
      simp only [List.zip_cons_cons, List.map_cons, List.mem_cons, exists_eq_or_imp, ih targets]
      exact or_congr (outOfBounds_iff _ _) Iff.rfl

/-- R85: the lane entries of a move after new targets. -/
theorem Part.retargetLanes_eq (p : Part) (t : Trk) (g : Grp) (w : Waypoint) (m : MoveRecord) :
    p.retargetLanes g (p.segmentPlan t g w) m =
      (((p.group g).lanes.zip (p.segmentTargets t g w)).zip m.lanes).map fun x =>
        p.retargetedLane w.duration x.1.1 x.2 x.1.2 := by
  rw [Part.segmentPlan_eq]
  unfold Part.retargetLanes
  generalize p.segmentTargets t g w = targets
  generalize m.lanes = records
  induction (p.group g).lanes generalizing targets records with
  | nil => rfl
  | cons ln lanes ih =>
    cases targets with
    | nil => cases records <;> rfl
    | cons a targets =>
      cases records with
      | nil => rfl
      | cons r records =>
        have := ih targets records
        simp only [List.zip_cons_cons, List.map_cons, Part.retargetedLane_eq] at this ⊢
        rw [this]

/-- A retarget leaves the other groups alone. -/
theorem Part.retarget_group_out (p : Part) (g h : Grp) (plan : List (Int × Nat)) (e : h ≠ g) :
    (p.retarget g plan).group h = p.group h := by
  unfold Part.retarget
  cases (p.group g).move with
  | none => rfl
  | some m =>
    dsimp only
    split
    · rfl
    · exact (Part.forEach_keeps (fun q => q.group h) _ _ fun q _ _ => Part.modChan_group q _ _ h).trans
        (Part.modGroup_group_ne p g h _ e)

/-- A retarget changes no lane list. -/
@[simp] theorem Part.retarget_lanes (p : Part) (g h : Grp) (plan : List (Int × Nat)) :
    ((p.retarget g plan).group h).lanes = (p.group h).lanes := by
  by_cases e : h = g
  · subst e
    unfold Part.retarget
    cases (p.group h).move with
    | none => rfl
    | some m =>
      dsimp only
      split
      · rfl
      · refine (Part.forEach_keeps (fun q => (q.group h).lanes) _ _ fun q _ _ => ?_).trans ?_
        · rw [Part.modChan_group]
        · rw [Part.modGroup_group_self]
  · rw [Part.retarget_group_out p g h plan e]

/-- A channel that is no lane's is left alone by a retarget. -/
theorem Part.retarget_chan_out (p : Part) (g : Grp) (plan : List (Int × Nat)) (c : Chan)
    (hc : ∀ ln ∈ (p.group g).lanes, ln.channel ≠ c) : (p.retarget g plan).chan c = p.chan c := by
  unfold Part.retarget
  cases (p.group g).move with
  | none => rfl
  | some m =>
    dsimp only
    split
    · rfl
    · exact Part.forEach_modChan_out (key := fun lr : Lane × LaneRecord => lr.1.channel) (f := fun lr => Channel.follow lr.2)
        _ _ c fun lr hlr => hc lr.1 (List.of_mem_zip hlr).1

/-- A retarget touches no track. -/
@[simp] theorem Part.retarget_track (p : Part) (g : Grp) (plan : List (Int × Nat)) (u : Trk) :
    (p.retarget g plan).track u = p.track u := by
  unfold Part.retarget
  cases (p.group g).move with
  | none => rfl
  | some m =>
    dsimp only
    split
    · rfl
    · exact (Part.forEach_keeps (fun q => q.track u) _ _ fun q _ _ => Part.modChan_track q _ _ u).trans
        (Part.modGroup_track p g _ u)

/-- R64, R85: a target out of bounds leaves everything as it was. -/
theorem Part.retarget_barred {p : Part} {t : Trk} {g : Grp} {w : Waypoint}
    (h : ∃ lt ∈ (p.group g).lanes.zip (p.segmentTargets t g w), (p.chan lt.1.channel).Bars lt.2) :
    p.retarget g (p.segmentPlan t g w) = p := by
  unfold Part.retarget
  cases (p.group g).move with
  | none => rfl
  | some m => exact if_pos ((p.firstOut_segmentPlan t g w).mpr h)

/-- Lanes that name distinct channels do so beside any list of entries. -/
theorem Lane.zip_channels_nodup {α : Type} {lanes : List Lane} (h : (lanes.map (·.channel)).Nodup) (entries : List α) :
    ((lanes.zip entries).map fun x => x.1.channel).Nodup := by
  induction lanes generalizing entries with
  | nil => simp
  | cons ln lanes ih =>
    cases entries with
    | nil => simp
    | cons e entries =>
      rw [List.map_cons, List.nodup_cons] at h
      refine List.nodup_cons.mpr ⟨fun hin => h.1 ?_, ih h.2 entries⟩
      obtain ⟨x, hx, e⟩ := List.mem_map.mp hin
      exact List.mem_map.mpr ⟨x.1, (List.of_mem_zip hx).1, e⟩

/-- R85, R144: a retarget of a group whose lanes name distinct channels, and have an entry and an origin each. -/
theorem Part.retarget_retargeted (p : Part) (t : Trk) (g : Grp) (w : Waypoint)
    (distinct : ((p.group g).lanes.map (·.channel)).Nodup)
    (entries : ∀ m, (p.group g).move = some m → m.lanes.length = (p.group g).lanes.length) :
    p.Retargeted (p.retarget g (p.segmentPlan t g w)) t g w := by
  refine ⟨fun h => ?_, fun h m hm => ?_⟩
  · rw [Part.retarget_barred h]
    exact ⟨rfl, fun _ _ => rfl⟩
  · have hout : ¬(p.firstOut g (p.segmentPlan t g w)).isSome = true := fun k => h ((p.firstOut_segmentPlan t g w).mp k)
    have hq : p.retarget g (p.segmentPlan t g w) =
        (p.modGroup g fun x =>
          { x with move := some { m with lanes := p.retargetLanes g (p.segmentPlan t g w) m }
                   state := if (p.retargetLanes g (p.segmentPlan t g w) m).all (·.confirmed) then x.state else .preparing }
        ).forEach ((p.group g).lanes.zip (p.retargetLanes g (p.segmentPlan t g w) m)) fun q lr =>
          q.modChan lr.1.channel (Channel.follow lr.2) := by
      unfold Part.retarget
      rw [hm]
      exact if_neg hout
    rw [hq, Part.retargetLanes_eq]
    refine ⟨?_, fun lt hlt => ?_⟩
    · refine (Part.forEach_keeps (fun q => q.group g) _ _ fun q _ _ => Part.modChan_group q _ _ g).trans ?_
      rw [Part.modGroup_group_self]
    · obtain ⟨n, hn⟩ := List.mem_iff_getElem?.mp hlt
      obtain ⟨h1, h2⟩ := List.getElem?_zip_eq_some.mp hn
      have hlen : n < m.lanes.length := by
        rw [entries m hm]; exact (List.getElem?_eq_some_iff.mp h1).1
      have hin : (lt.1, p.retargetedLane w.duration lt.1 m.lanes[n] lt.2) ∈
          (p.group g).lanes.zip ((((p.group g).lanes.zip (p.segmentTargets t g w)).zip m.lanes).map fun x =>
            p.retargetedLane w.duration x.1.1 x.2 x.1.2) := by
        refine List.mem_iff_getElem?.mpr ⟨n, List.getElem?_zip_eq_some.mpr ⟨h1, ?_⟩⟩
        rw [List.getElem?_map, List.getElem?_zip_eq_some (z := (lt, m.lanes[n])).mpr ⟨hn, List.getElem?_eq_getElem hlen⟩]
        rfl
      refine (Part.forEach_modChan_in (key := fun lr : Lane × LaneRecord => lr.1.channel)
        (f := fun lr => Channel.follow lr.2) _ _ ?_ hin).trans ?_
      · exact Lane.zip_channels_nodup distinct _
      · dsimp only
        rw [Part.modGroup_chan, ← Part.retargetedLane_eq, Channel.follow_eq, Part.firedLane_demand]

/-! ### The start of a segment (R144) -/

/-- What a new segment makes of a group is read from the group, its lane channels and its origins. -/
theorem Part.Retargeted.of_same {p p' q q' : Part} {t : Trk} {g : Grp} {w : Waypoint} (h : p'.Retargeted q' t g w)
    (group : p'.group g = p.group g) (origins : (p'.track t).origins = (p.track t).origins)
    (chans : ∀ ln ∈ (p.group g).lanes, p'.chan ln.channel = p.chan ln.channel) (group' : q.group g = q'.group g)
    (chans' : ∀ ln ∈ (p.group g).lanes, q.chan ln.channel = q'.chan ln.channel) : p.Retargeted q t g w := by
  have ho : p'.originList t g = p.originList t g := by
    unfold Part.originList
    rw [origins, group]
    cases (p.track t).origins[g] with
    | none => exact List.map_congr_left fun ln hl => by rw [chans ln hl]
    | some o => rfl
  have ht : p'.segmentTargets t g w = p.segmentTargets t g w := by
    unfold Part.segmentTargets
    rw [group, ho]
  have hin : ∀ lt ∈ (p.group g).lanes.zip (p.segmentTargets t g w), p'.chan lt.1.channel = p.chan lt.1.channel :=
    fun lt hlt => chans lt.1 (List.of_mem_zip hlt).1
  have hb : (∃ lt ∈ (p.group g).lanes.zip (p.segmentTargets t g w), (p'.chan lt.1.channel).Bars lt.2) ↔
      ∃ lt ∈ (p.group g).lanes.zip (p.segmentTargets t g w), (p.chan lt.1.channel).Bars lt.2 :=
    exists_congr fun lt => and_congr_right fun hlt => by rw [hin lt hlt]
  have hf : ∀ lt ∈ (p.group g).lanes.zip (p.segmentTargets t g w),
      p'.firedLane (p'.segmentSpeed w.duration) lt.1 lt.2 = p.firedLane (p.segmentSpeed w.duration) lt.1 lt.2 :=
    fun lt hlt => by simp only [Part.firedLane, Part.segmentSpeed, hin lt hlt]
  have hr : ∀ records : List LaneRecord,
      ((((p.group g).lanes.zip (p.segmentTargets t g w)).zip records).map fun x =>
        p'.retargetedLane w.duration x.1.1 x.2 x.1.2)
      = (((p.group g).lanes.zip (p.segmentTargets t g w)).zip records).map fun x =>
        p.retargetedLane w.duration x.1.1 x.2 x.1.2 :=
    fun records => List.map_congr_left fun x hx => by
      have hx := (List.of_mem_zip hx).1
      simp only [Part.retargetedLane, hin x.1 hx, hf x.1 hx]
  unfold Part.Retargeted at h ⊢
  rw [group, ht] at h
  refine ⟨fun hbar => ?_, fun hbar m hm => ?_⟩
  · have := h.1 (hb.mpr hbar)
    exact ⟨group'.trans this.1, fun ln hl => ((chans' ln hl).trans (this.2 ln hl)).trans (chans ln hl)⟩
  · have := h.2 (fun k => hbar (hb.mp k)) m hm
    rw [hr] at this
    refine ⟨group'.trans this.1, fun lt hlt => ?_⟩
    rw [chans' lt.1 (List.of_mem_zip hlt).1, this.2 lt hlt, hin lt hlt, hf lt hlt]

/-- R144: the loop of retargets over groups that share no channel. -/
theorem Part.forEach_retarget (t : Trk) (w : Waypoint) (l : List Grp) (p : Part) :
    let q := p.forEach l fun p g => if (p.group g).active then p.retarget g (p.segmentPlan t g w) else p
    (∀ g, ¬(g ∈ l ∧ (p.group g).active = true) → q.group g = p.group g)
    ∧ (∀ c, (∀ g, g ∈ l ∧ (p.group g).active = true → ∀ ln ∈ (p.group g).lanes, ln.channel ≠ c) → q.chan c = p.chan c)
    ∧ (l.Nodup → ((l.flatMap fun g => (p.group g).lanes).map (·.channel)).Nodup →
        (∀ g ∈ l, ∀ m, (p.group g).move = some m → m.lanes.length = (p.group g).lanes.length) →
        ∀ g, g ∈ l ∧ (p.group g).active = true → p.Retargeted q t g w) := by
  induction l generalizing p with
  | nil => exact ⟨fun _ _ => rfl, fun _ _ => rfl, fun _ _ _ g h => nomatch h.1⟩
  | cons g l ih =>
    dsimp only
    rw [Part.forEach_cons]
    by_cases ha : (p.group g).active = true
    · rw [if_pos ha]
      obtain ⟨i1, i2, i3⟩ := ih (p.retarget g (p.segmentPlan t g w))
      refine ⟨fun h hn => ?_, fun c hc => ?_, fun hl hd he h hh => ?_⟩
      · have hne : h ≠ g := fun e => hn ⟨e ▸ List.mem_cons_self .., e ▸ ha⟩
        rw [i1 h, Part.retarget_group_out p g h _ hne]
        rw [Part.retarget_group_out p g h _ hne]
        exact fun k => hn ⟨List.mem_cons_of_mem _ k.1, k.2⟩
      · rw [i2 c, Part.retarget_chan_out p g _ c (hc g ⟨List.mem_cons_self .., ha⟩)]
        intro h k
        rw [Part.retarget_lanes]
        by_cases e : h = g
        · exact e ▸ hc g ⟨List.mem_cons_self .., ha⟩
        · rw [Part.retarget_group_out p g h _ e] at k
          exact hc h ⟨List.mem_cons_of_mem _ k.1, k.2⟩
      · obtain ⟨hg, hl⟩ := List.nodup_cons.mp hl
        rw [List.flatMap_cons, List.map_append, List.nodup_append] at hd
        obtain ⟨d1, d2, d3⟩ := hd
        have apart : ∀ k ∈ l, ∀ ln ∈ (p.group g).lanes, ∀ ln' ∈ (p.group k).lanes, ln.channel ≠ ln'.channel :=
          fun k hk ln hln ln' hln' =>
            d3 _ (List.mem_map_of_mem hln) _ (List.mem_map_of_mem (List.mem_flatMap.mpr ⟨k, hk, hln'⟩))
        rcases List.mem_cons.mp hh.1 with e | hk
        · subst e
          refine (p.retarget_retargeted t h w d1 (he h (List.mem_cons_self ..))).of_same rfl rfl (fun _ _ => rfl) ?_ ?_
          · exact i1 h fun k => hg k.1
          · refine fun ln hln => i2 _ fun k hk ln' hln' => ?_
            rw [Part.retarget_lanes] at hln'
            exact fun e => apart k hk.1 ln hln ln' hln' e.symm
        · have hne : h ≠ g := fun e => hg (e ▸ hk)
          have same := Part.retarget_group_out p g h (p.segmentPlan t g w) hne
          refine (i3 hl ?_ ?_ h ⟨hk, same ▸ hh.2⟩).of_same same (by rw [Part.retarget_track]) ?_ rfl fun _ _ => rfl
          · simpa using d2
          · intro k hk m
            rw [Part.retarget_group_out p g k _ fun e => hg (e ▸ hk)]
            exact he k (List.mem_cons_of_mem _ hk) m
          · exact fun ln hln => Part.retarget_chan_out p g _ _ fun ln' hln' e => apart h hk ln' hln' ln hln e
    · rw [if_neg ha]
      obtain ⟨i1, i2, i3⟩ := ih p
      refine ⟨fun h hn => i1 h fun k => hn ⟨List.mem_cons_of_mem _ k.1, k.2⟩,
        fun c hc => i2 c fun h k => hc h ⟨List.mem_cons_of_mem _ k.1, k.2⟩, fun hl hd he h hh => ?_⟩
      rw [List.flatMap_cons, List.map_append] at hd
      refine i3 (List.nodup_cons.mp hl).2 hd.of_append_right (fun k hk => he k (List.mem_cons_of_mem _ hk)) h ⟨?_, hh.2⟩
      exact (List.mem_cons.mp hh.1).resolve_left fun e => ha (e ▸ hh.2)

/-- R144: the start of a segment gives it to the playing groups. -/
theorem Part.startSegment_given {p : Part} {t : Trk} {w : Waypoint} {rest : List Waypoint}
    (h : (p.track t).waypoints = w :: rest) : p.SegmentGiven (p.startSegment t) t w := by
  have loop := Part.forEach_retarget t w (p.track t).playing (p.modTrack t Track.takeHead)
  have hq : p.startSegment t = (p.modTrack t Track.takeHead).forEach (p.track t).playing fun p g =>
      if (p.group g).active then p.retarget g (p.segmentPlan t g w) else p := by
    unfold Part.startSegment
    rw [h]
  rw [hq]
  refine ⟨loop.1, loop.2.1, fun hp g hg => ?_⟩
  refine (loop.2.2 hp.1 hp.2.1 (fun k hk => (hp.2.2 k hk).2) g hg).of_same rfl ?_ (fun _ _ => rfl) rfl fun _ _ => rfl
  rw [Part.modTrack_track_self]
  unfold Track.takeHead
  cases (p.track t).waypoints <;> rfl

/-! ### The end of a group's move by a stop or a completion order (R81, R82, R84) -/

@[simp] theorem Part.judgeDisarm_groupCodes (p : Part) : p.judgeDisarm.codes.groups = p.codes.groups := by
  rcases p.judgeDisarm_eq with h | ⟨_, _, _, h⟩
  · rw [h]
  · rw [h, Part.changeMode_eq]; rfl

@[simp] theorem Part.clearLanes_group (p : Part) (g h : Grp) : (p.clearLanes g).group h = p.group h :=
  Part.forEach_keeps (fun q => q.group h) _ _ fun q ln _ => q.clearMover_group ln.channel h
@[simp] theorem Part.clearLanes_track (p : Part) (g : Grp) (t : Trk) : (p.clearLanes g).track t = p.track t :=
  Part.forEach_keeps (fun q => q.track t) _ _ fun q ln _ => q.clearMover_track ln.channel t
@[simp] theorem Part.clearLanes_groupCodes (p : Part) (g : Grp) : (p.clearLanes g).codes.groups = p.codes.groups :=
  Part.forEach_keeps (fun q => q.codes.groups) _ _ fun q ln _ => (q.modChan ln.channel Channel.dropMover).judgeDisarm_groupCodes

/-- A channel that is no lane's keeps its mover. -/
theorem Part.clearLanes_chan_out (p : Part) (g : Grp) (c : Chan) (hc : ∀ ln ∈ (p.group g).lanes, ln.channel ≠ c) :
    (p.clearLanes g).chan c = p.chan c :=
  Part.forEach_keeps (fun q => q.chan c) _ _ fun q ln hl => by
    rw [Part.clearMover_chan, if_neg fun e => hc ln hl e.symm]

/-- Each of the lane channels, which are distinct, loses its mover. -/
theorem Part.clearLanes_chan_in (p : Part) (g : Grp) (distinct : ((p.group g).lanes.map (·.channel)).Nodup) (ln : Lane)
    (hl : ln ∈ (p.group g).lanes) : (p.clearLanes g).chan ln.channel = (p.chan ln.channel).dropMover := by
  unfold Part.clearLanes
  generalize (p.group g).lanes = lanes at distinct hl
  induction lanes generalizing p with
  | nil => cases hl
  | cons x lanes ih =>
    rw [List.map_cons, List.nodup_cons] at distinct
    rw [Part.forEach_cons]
    rcases List.mem_cons.mp hl with e | hin
    · subst e
      refine (Part.forEach_keeps (fun q => q.chan ln.channel) _ _ fun q y hy => ?_).trans ?_
      · rw [Part.clearMover_chan, if_neg fun e => distinct.1 (List.mem_map.mpr ⟨y, hy, e.symm⟩)]
      · rw [Part.clearMover_chan, if_pos rfl]
    · rw [ih _ distinct.2 hin, Part.clearMover_chan,
        if_neg fun e => distinct.1 (List.mem_map.mpr ⟨ln, hin, e⟩)]

/-- R82: the lane channels are at rest after the stop exactly where none was under way before it. -/
theorem Part.enterStopping_atRest (p : Part) (g : Grp) (reason : StopReason) :
    (p.enterStopping g reason).atRest g = true ↔ ¬p.Underway g := by
  have hs : ∀ x : Channel, (x.stop.state = .holding ∨ x.stop.state = .faulted) ↔ (x.state = .holding ∨ x.state = .faulted) := by
    intro x
    rw [Channel.stop_eq]
    unfold Channel.afterStop
    cases h : x.state <;> simp [Channel.stopped, h]
  have hg : ((p.enterStopping g reason).group g).lanes = (p.group g).lanes := by
    rw [Part.enterStopping_group, if_pos rfl]
  unfold Part.atRest Part.Underway
  rw [hg, List.all_eq_true]
  simp only [Bool.or_eq_true, beq_iff_eq, not_exists, not_and, not_not]
  refine forall_congr' fun ln => forall_congr' fun hl => ?_
  rw [Part.enterStopping_chan_in p g reason ln hl, hs]
  exact or_iff_not_imp_left

/-- What a stop with a reason leaves of a track move, once it has left STOPPING where it is at rest. -/
theorem Part.endOfMove {p : Part} {g : Grp} {m : MoveRecord} {t : Trk} (hm : (p.group g).move = some m)
    (hs : m.source = .track t) {reason : StopReason} (hr : reason ≠ .fault) :
    let q := if (p.enterStopping g reason).atRest g then (p.enterStopping g reason).exitCore g else p.enterStopping g reason
    (∀ h, h ≠ g → q.group h = p.group h) ∧ (∀ c, (∀ ln ∈ (p.group g).lanes, ln.channel ≠ c) → q.chan c = p.chan c)
    ∧ q.codes.groups = p.codes.groups ∧ (∀ u, q.track u = p.track u)
    ∧ (p.Underway g →
        q.group g = { p.group g with state := .stopping, controlTimer := none, move := some { m with reason := some reason } }
        ∧ ∀ ln ∈ (p.group g).lanes, q.chan ln.channel = (p.chan ln.channel).afterStop)
    ∧ (¬p.Underway g →
        q.group g = { p.group g with state := .idle, controlTimer := none, move := none }
        ∧ (((p.group g).lanes.map (·.channel)).Nodup →
            ∀ ln ∈ (p.group g).lanes, q.chan ln.channel = (p.chan ln.channel).freed)) := by
  have hg : (p.enterStopping g reason).group g =
      { p.group g with state := .stopping, controlTimer := none, move := some { m with reason := some reason } } := by
    rw [Part.enterStopping_group, if_pos rfl, hm]
    rfl
  have codes : (p.enterStopping g reason).codes = p.codes := Part.forEach_keeps (fun q => q.codes) _ _ fun _ _ _ => rfl
  have tracks : ∀ u, (p.enterStopping g reason).track u = p.track u := fun u =>
    Part.forEach_keeps (fun q => q.track u) _ _ fun _ _ _ => rfl
  by_cases hu : p.Underway g
  · rw [if_neg fun k => (p.enterStopping_atRest g reason).mp k hu]
    refine ⟨fun h e => by rw [Part.enterStopping_group, if_neg e], fun c hc => p.enterStopping_chan_out g reason c hc,
      congrArg _ codes, tracks, fun _ => ⟨hg, fun ln hl => ?_⟩, fun k => absurd hu k⟩
    rw [Part.enterStopping_chan_in p g reason ln hl, Channel.stop_eq]
  · rw [if_pos ((p.enterStopping_atRest g reason).mpr hu)]
    have hq : (p.enterStopping g reason).exitCore g =
        ((p.enterStopping g reason).clearLanes g).modGroup g fun x => { x with state := .idle, move := none } := by
      unfold Part.exitCore
      rw [hg]
      cases reason <;> simp_all
    rw [hq]
    refine ⟨fun h e => ?_, fun c hc => ?_, ?_, fun u => ?_, fun k => absurd k hu, fun _ => ⟨?_, fun distinct ln hl => ?_⟩⟩
    · rw [Part.modGroup_group_ne _ _ _ _ e, Part.clearLanes_group, Part.enterStopping_group, if_neg e]
    · rw [Part.modGroup_chan, Part.clearLanes_chan_out _ _ _ (by rw [hg]; exact hc), p.enterStopping_chan_out g reason c hc]
    · rw [Part.modGroup_codes, Part.clearLanes_groupCodes, codes]
    · rw [Part.modGroup_track, Part.clearLanes_track, tracks]
    · rw [Part.modGroup_group_self, Part.clearLanes_group, hg]
    · rw [Part.modGroup_chan, Part.clearLanes_chan_in _ _ (by rw [hg]; exact distinct) ln (by rw [hg]; exact hl),
        Part.enterStopping_chan_in p g reason ln hl, ← Channel.dropMover_eq]
      have : (p.chan ln.channel).state = .holding ∨ (p.chan ln.channel).state = .faulted := by
        by_contra k
        rw [not_or] at k
        exact hu ⟨ln, hl, k⟩
      rcases this with k | k <;> simp [Channel.stop, k]

/-- R84: a completion order ends a track move with reason COMPLETE. -/
theorem Part.completionOrder_eq (p : Part) (g : Grp) :
    p.completionOrder g =
      if (p.group g).active then
        if (p.enterStopping g .complete).atRest g then (p.enterStopping g .complete).exitCore g
        else p.enterStopping g .complete
      else p := rfl

/-- R148, R82: a stop ends a track move of a group that is out of the playing set as a completion order does, but for the reason. -/
theorem Part.stopGroup_out {p : Part} {g : Grp} {m : MoveRecord} {t : Trk} (hm : (p.group g).move = some m)
    (hs : m.source = .track t) (out : g ∉ (p.track t).playing) {reason : StopReason} (hr : reason ≠ .fault) :
    p.stopGroup g reason =
      if (p.group g).active then
        if (p.enterStopping g reason).atRest g then (p.enterStopping g reason).exitCore g else p.enterStopping g reason
      else p := by
  have ends := Part.endOfMove hm hs hr
  unfold Part.stopGroup
  split
  · have hg : (p.enterStopping g reason).group g =
        { p.group g with state := .stopping, controlTimer := none, move := some { m with reason := some reason } } := by
      rw [Part.enterStopping_group, if_pos rfl, hm]
      rfl
    unfold Part.exitStopping
    rw [hg]
    by_cases hr : (p.enterStopping g reason).atRest g = true
    · rw [if_pos hr] at ends ⊢
      simp only [hr, decide_true, Bool.and_self, if_true, Part.tellEnd, hs]
      exact Part.moveEnded_out (by rw [ends.2.2.2.1 t]; exact out)
    · rw [if_neg hr]
      simp [hr]
  · rfl

/-- What the end of a play does to groups whose moves are the track's and that share no channel, in whichever order. -/
theorem Part.forEach_endOfMove (t : Trk) {reason : StopReason} (hr : reason ≠ .fault) (l : List Grp) (p : Part)
    (moves : ∀ g ∈ l, (p.group g).active = true → ∃ m, (p.group g).move = some m ∧ m.source = .track t)
    (distinct : ((l.flatMap fun g => (p.group g).lanes).map (·.channel)).Nodup) :
    let q := p.forEach l fun p g =>
      if (p.group g).active then
        if (p.enterStopping g reason).atRest g then (p.enterStopping g reason).exitCore g else p.enterStopping g reason
      else p
    (∀ g, ¬(g ∈ l ∧ (p.group g).active = true) → q.group g = p.group g)
    ∧ (∀ c, (∀ g, g ∈ l ∧ (p.group g).active = true → ∀ ln ∈ (p.group g).lanes, ln.channel ≠ c) → q.chan c = p.chan c)
    ∧ q.codes.groups = p.codes.groups ∧ (∀ u, q.track u = p.track u)
    ∧ ∀ g m, g ∈ l ∧ (p.group g).active = true → (p.group g).move = some m →
      (p.Underway g →
        q.group g = { p.group g with state := .stopping, controlTimer := none, move := some { m with reason := some reason } }
        ∧ ∀ ln ∈ (p.group g).lanes, q.chan ln.channel = (p.chan ln.channel).afterStop)
      ∧ (¬p.Underway g →
        q.group g = { p.group g with state := .idle, controlTimer := none, move := none }
        ∧ ∀ ln ∈ (p.group g).lanes, q.chan ln.channel = (p.chan ln.channel).freed) := by
  induction l generalizing p with
  | nil => exact ⟨fun _ _ => rfl, fun _ _ => rfl, rfl, fun _ => rfl, fun g m h => nomatch h.1⟩
  | cons g l ih =>
    dsimp only
    rw [Part.forEach_cons]
    rw [List.flatMap_cons, List.map_append, List.nodup_append] at distinct
    obtain ⟨d1, d2, d3⟩ := distinct
    by_cases ha : (p.group g).active = true
    · rw [if_pos ha]
      obtain ⟨m, hm, hs⟩ := moves g (List.mem_cons_self ..) ha
      obtain ⟨e1, e2, e3, e4, e5, e6⟩ := Part.endOfMove hm hs hr
      have e6 := fun k => (⟨(e6 k).1, (e6 k).2 d1⟩ : _ ∧ _)
      generalize (if (p.enterStopping g reason).atRest g = true then (p.enterStopping g reason).exitCore g
        else p.enterStopping g reason) = r at e1 e2 e3 e4 e5 e6 ⊢
      have idle : (r.group g).active = false := by
        by_cases hu : p.Underway g
        · rw [(e5 hu).1]; rfl
        · rw [(e6 hu).1]; rfl
      have lanes : ∀ h, (r.group h).lanes = (p.group h).lanes := by
        intro h
        by_cases e : h = g
        · subst e
          by_cases hu : p.Underway h
          · rw [(e5 hu).1]
          · rw [(e6 hu).1]
        · rw [e1 h e]
      have apart : ∀ k ∈ l, ∀ ln ∈ (p.group g).lanes, ∀ ln' ∈ (p.group k).lanes, ln.channel ≠ ln'.channel :=
        fun k hk ln hln ln' hln' =>
          d3 _ (List.mem_map_of_mem hln) _ (List.mem_map_of_mem (List.mem_flatMap.mpr ⟨k, hk, hln'⟩))
      have other : ∀ h, (r.group h).active = true → h ≠ g := fun h k e => by rw [e, idle] at k; cases k
      obtain ⟨i1, i2, i3, i4, i5⟩ := ih r
        (fun k hk ka => by
          have hne := other k ka
          rw [e1 k hne] at ka ⊢
          exact moves k (List.mem_cons_of_mem _ hk) ka)
        (by simpa [lanes] using d2)
      refine ⟨fun h hn => ?_, fun c hc => ?_, i3.trans e3, fun u => (i4 u).trans (e4 u), fun h k hh hk => ?_⟩
      · have hne : h ≠ g := fun e => hn ⟨e ▸ List.mem_cons_self .., e ▸ ha⟩
        rw [i1 h, e1 h hne]
        rw [e1 h hne]
        exact fun k => hn ⟨List.mem_cons_of_mem _ k.1, k.2⟩
      · rw [i2 c, e2 c (hc g ⟨List.mem_cons_self .., ha⟩)]
        intro h k
        have hne := other h k.2
        rw [e1 h hne] at k ⊢
        exact hc h ⟨List.mem_cons_of_mem _ k.1, k.2⟩
      · by_cases e : h = g
        · subst e
          obtain rfl : m = k := Option.some.inj (hm.symm.trans hk)
          have keep : ∀ ln ∈ (p.group h).lanes, _ := fun ln hln => i2 ln.channel fun k hk ln' hln' e => by
            rw [lanes] at hln'
            exact apart k hk.1 ln hln ln' hln' e.symm
          have same := i1 h fun k => by rw [idle] at k; cases k.2
          exact ⟨fun hu => ⟨same.trans (e5 hu).1, fun ln hln => (keep ln hln).trans ((e5 hu).2 ln hln)⟩,
            fun hu => ⟨same.trans (e6 hu).1, fun ln hln => (keep ln hln).trans ((e6 hu).2 ln hln)⟩⟩
        · have hin := (List.mem_cons.mp hh.1).resolve_left e
          have chans : ∀ ln ∈ (p.group h).lanes, r.chan ln.channel = p.chan ln.channel := fun ln hln =>
            e2 _ fun ln' hln' e => apart h hin ln' hln' ln hln e
          have hu : r.Underway h ↔ p.Underway h := by
            unfold Part.Underway
            rw [e1 h e]
            exact exists_congr fun ln => and_congr_right fun hln => by rw [chans ln hln]
          have := i5 h k ⟨hin, (e1 h e).symm ▸ hh.2⟩ ((e1 h e).symm ▸ hk)
          rw [hu, e1 h e] at this
          refine ⟨fun k => ⟨(this.1 k).1, fun ln hln => ?_⟩, fun k => ⟨(this.2 k).1, fun ln hln => ?_⟩⟩
          · rw [(this.1 k).2 ln hln, chans ln hln]
          · rw [(this.2 k).2 ln hln, chans ln hln]
    · rw [if_neg ha]
      obtain ⟨i1, i2, i3, i4, i5⟩ := ih p (fun k hk => moves k (List.mem_cons_of_mem _ hk)) d2
      refine ⟨fun h hn => i1 h fun k => hn ⟨List.mem_cons_of_mem _ k.1, k.2⟩,
        fun c hc => i2 c fun h k => hc h ⟨List.mem_cons_of_mem _ k.1, k.2⟩, i3, i4, fun h m hh => i5 h m ⟨?_, hh.2⟩⟩
      exact (List.mem_cons.mp hh.1).resolve_left fun e => ha (e ▸ hh.2)

/-- R148: with the playing set emptied, the stops of a track's groups are the ends of their moves with the reason. -/
theorem Part.forEach_stopGroup (t : Trk) {reason : StopReason} (hr : reason ≠ .fault) (l : List Grp) (p : Part)
    (empty : (p.track t).playing = [])
    (moves : ∀ g ∈ l, (p.group g).active = true → ∃ m, (p.group g).move = some m ∧ m.source = .track t) :
    (p.forEach l fun p g => p.stopGroup g reason) = p.forEach l fun p g =>
      if (p.group g).active then
        if (p.enterStopping g reason).atRest g then (p.enterStopping g reason).exitCore g else p.enterStopping g reason
      else p := by
  induction l generalizing p with
  | nil => rfl
  | cons g l ih =>
    rw [Part.forEach_cons, Part.forEach_cons]
    by_cases ha : (p.group g).active = true
    · obtain ⟨m, hm, hs⟩ := moves g (List.mem_cons_self ..) ha
      rw [Part.stopGroup_out hm hs (by rw [empty]; exact List.not_mem_nil) hr, if_pos ha]
      obtain ⟨e1, -, -, e4, e5, e6⟩ := Part.endOfMove hm hs hr
      refine ih _ ((congrArg _ (e4 t)).trans empty) fun k hk ka => ?_
      by_cases e : k = g
      · subst e
        by_cases hu : p.Underway k
        · rw [(e5 hu).1] at ka; cases ka
        · rw [(e6 hu).1] at ka; cases ka
      · rw [e1 k e] at ka ⊢
        exact moves k (List.mem_cons_of_mem _ hk) ka
    · rw [Part.stopGroup_inactive (by simpa using ha), if_neg ha]
      exact ih p empty fun k hk => moves k (List.mem_cons_of_mem _ hk)

/-- R147, R84: what the completion orders at the end of a play make of the groups. -/
theorem Part.completionOrders_end {p : Part} {t : Trk}
    (moves : ∀ g ∈ (p.track t).playing, (p.group g).active = true → ∃ m, (p.group g).move = some m ∧ m.source = .track t)
    (distinct : (((p.track t).playing.flatMap fun g => (p.group g).lanes).map (·.channel)).Nodup) :
    p.PlayersEnd ((p.modTrack t Track.clearPlay).forEach (p.track t).playing Part.completionOrder) t .complete := by
  obtain ⟨h1, h2, h3, -, h5⟩ :=
    Part.forEach_endOfMove t (reason := .complete) (by decide) (p.track t).playing (p.modTrack t Track.clearPlay) moves distinct
  refine ⟨fun g hg => ⟨h1 g hg, ?_⟩, h2, fun g m hg hm _ => ⟨?_, h5 g m hg hm⟩⟩
  · exact congrArg (·[g]) h3
  · exact congrArg (·[g]) h3

/-- R148, R81, R82: what the stops of a track make of its groups. -/
theorem Part.trackStops_end {p : Part} {t : Trk}
    (moves : ∀ g ∈ (p.track t).playing, (p.group g).active = true → ∃ m, (p.group g).move = some m ∧ m.source = .track t)
    (distinct : (((p.track t).playing.flatMap fun g => (p.group g).lanes).map (·.channel)).Nodup) :
    p.PlayersEnd ((p.modTrack t Track.clearPlay).forEach (p.track t).playing fun q g => q.stopGroup g .request) t .request := by
  rw [Part.forEach_stopGroup t (by decide) _ (p.modTrack t Track.clearPlay) (by rw [Part.modTrack_track_self]; rfl) moves]
  obtain ⟨h1, h2, h3, -, h5⟩ :=
    Part.forEach_endOfMove t (reason := .request) (by decide) (p.track t).playing (p.modTrack t Track.clearPlay) moves distinct
  refine ⟨fun g hg => ⟨h1 g hg, ?_⟩, h2, fun g m hg hm _ => ⟨?_, h5 g m hg hm⟩⟩
  · exact congrArg (·[g]) h3
  · exact congrArg (·[g]) h3

end Sys2Proof.Machine
end

