-- ==== Sys2Proof/Tests/Slice0.lean ====
section
/-! SUPPORT. Tests: the checks of WellFormed, the reset state, the layouts the manual spells out, and for every claim with
premises a state and operands that meet them, clause by clause (test_met_<claim>). -/

set_option maxRecDepth 100000

namespace Sys2Proof.Tests

open Sys2Proof Sys2Proof.Machine

/-! ### A small rig -/

/-- A channel at rest at 5000 mm, referenced and owned by Link A. -/
def rigChannel : Channel :=
  { Channel.powerOn with
    kind := .variableSpeed, raw := 5000, rest := 5000, load := 500, referenced := true, state := .idle, owner := some .a
    history := [5000, 5000, 5000] }

/-- Lane 0 follows on channel 0, lane 1 opposes at half speed on channel 1. -/
def rigLanes : List Lane := [⟨0, .follow, 0⟩, ⟨1, .oppose, 1⟩]

/-- Group G0 on channels 0 and 1, and G1 on channel 2. -/
def rig (mode : DeviceMode) : Part :=
  { Part.reset with
    channels := Vector.replicate 16 rigChannel
    groups := #v[{ Group.powerOn with state := .idle, lanes := rigLanes },
      { Group.powerOn with state := .idle, lanes := [⟨2, .follow, 0⟩] }, Group.powerOn, Group.powerOn, Group.powerOn,
      Group.powerOn, Group.powerOn, Group.powerOn]
    ctl := { Part.reset.ctl with mode := mode, mainPower := mode.powered } }

/-- A machine with nothing waiting. -/
def on (p : Part) : State := { part := p, pending := [] }

/-- A cue of 50 mm up. -/
def rigCue (trigger : Trigger) : Cue :=
  { number := 1, form := .relative 50, speed := 40, trigger := trigger, tier := 0, origin := .a }

/-- A lane entry that is on its way from 5000 mm. -/
def rigLane (target : Int) : LaneRecord :=
  { start := 5000, target := target, travel := target - 5000, baseline := 500, state := .driving, confirmed := true
    demand := 40, full := 40 }

/-- A lane entry that has arrived at 5000 mm. -/
def rigArrived : LaneRecord :=
  { start := 4950, target := 5000, travel := 50, baseline := 500, state := .arrived, confirmed := true, demand := 0
    full := 40 }

/-- A move of cue 1 with some lane entries. -/
def rigMove (lanes : List LaneRecord) : MoveRecord :=
  { origin := .a, tier := 0, source := .cue 1, speed := some 40, reason := none, lanes := lanes }

/-- G1's channel 2 as a move holds it. -/
def rigMoving (state : ChannelState) : Channel :=
  { rigChannel with
    state := state, mover := .group 1
    direction := if state = .starting ∨ state = .moving then some .up else none }

/-- The armed rig with G1 in a state, with a move of its one lane. -/
def moving (state : GroupState) (chan : ChannelState) (move : MoveRecord) : Part :=
  ((rig .armed).setChan 2 (rigMoving chan)).modGroup 1 fun x =>
    { x with state := state, move := some move
             controlTimer := if state = .preparing ∨ state = .running then some 0 else none }

/-- The armed rig with track 0 bound to G0, owned by Link A, in a state. -/
def tracked (state : TrackState) (list : List Waypoint) : Part :=
  ((rig .armed).modGroup 0 fun x => { x with boundTrack := some 0 }).modTrack 0 fun x =>
    { x with state := state, waypoints := list, owner := some .a, bound := [0] }

/-- A waypoint of 20 mm in a second. -/
def rigPoint (last : Bool) : Waypoint := { offset := 20, duration := 1000, last := last }

/-- The armed rig with track 0 playing G0. -/
def playing (current : Waypoint) (list : List Waypoint) (arrived : List Grp) : Part :=
  (((tracked .playing list).modTrack 0 fun x =>
      { x with playing := [0], arrived := arrived, current := some current, segmentTimer := some 0, tier := some 0
               origins := x.origins.set 0 (some [5000, 5000]) }).modGroup 0 fun x =>
      { x with state := .running, controlTimer := some 0
               move := some { rigMove [rigArrived, rigArrived] with source := .track 0, speed := none } })
    |>.setChan 0 { rigMoving .holding with mover := .group 0 } |>.setChan 1 { rigMoving .holding with mover := .group 0 }

/-- The armed rig with track 0 playing G0 and G1, with G1 in a state and its channel in another. -/
def bothPlaying (current : Waypoint) (list : List Waypoint) (state : GroupState) (chan : ChannelState) : Part :=
  ((playing current list []).modTrack 0 fun x =>
      { x with bound := [0, 1], playing := [0, 1], origins := x.origins.set 1 (some [5000]) }).modGroup 1 (fun x =>
      { x with boundTrack := some 0, state := state, controlTimer := if state = .running then some 20 else none
               move := some { rigMove [rigArrived] with source := .track 0, speed := none
                                                        reason := if state = .running then none else some .fault } })
    |>.setChan 2 (rigMoving chan)

/-- The armed rig with track 0 STARVED, its starvation timer run out, and G0 and G1 in the play. -/
def starving (state : GroupState) (chan : ChannelState) : Part :=
  (bothPlaying (rigPoint false) [] state chan).modTrack 0 fun x =>
    { x with state := .starved, current := none, segmentTimer := none, starvationTimer := some 0 }

/-- Track 0 playing G0 with a third lane, which HOLDs, on channel 2 that stands 100 mm above its origin; channel 0 as given. -/
def threeLanes (x : Channel) : Part :=
  (((playing (rigPoint false) [] []).modTrack 0 fun y => { y with origins := y.origins.set 0 (some [5000, 5000, 4900]) }).modGroup
      0 fun y =>
      { y with lanes := rigLanes ++ [⟨2, .hold, 0⟩]
               move := y.move.map fun m => { m with lanes := [rigArrived, rigArrived, rigArrived] } })
    |>.setChan 0 x |>.setChan 2 { rigMoving .holding with mover := .group 0 }

/-- A jog upward on channel 3, in a state. -/
def jogging (state : ChannelState) : Part :=
  (rig .armed).setChan 3 { rigChannel with
    state := state, mover := .jog .a, jog := some { direction := .up, lease := 300 }, direction := some .up
    confirmMark := if state = .starting then some 5000 else none
    confirmTimer := if state = .starting then some 600 else none, reversalExtreme := some 5000, watchArmed := true }

/-- A sample at a raw count with nothing to report. -/
def quiet (raw : Int) : Sample := { raw := raw, load := 500, upperOpen := false, lowerOpen := false, driveFault := false }

/-- A fault record. -/
def rigFault (k : FaultKind) : FaultRecord := { first := k, position := some 5000, load := 500, further := [] }

/-- A link that is answering. -/
def answering (p : Part) (l : Link) : Part :=
  p.modLink l fun x =>
    { x with answering := some { address := 0, kind := 0x81, result := .ok, status := 1, index := 0xFF, data := [] } }

/-- The part after a command. -/
def after (i : Instr) (p : Part) : Part :=
  match exec i (on p) with
  | .next t => t.part
  | .fault _ | .refused _ => p

/-! ### WellFormed refuses each ill-formed term -/

theorem test_wf_body_too_long : (Instr.halt .a 0 (List.replicate 241 0)).wf = false := by decide
theorem test_wf_body_of_240 : (Instr.halt .a 0 (List.replicate 240 0)).wf = true := by decide
theorem test_wf_release_with_force : (Instr.release .a 0 [0, 0, 1]).wf = false := by decide
theorem test_wf_releaseForce_without_force : (Instr.releaseForce .a 0 [0, 0, 0]).wf = false := by decide
theorem test_wf_clearFaultSpan_with_group_form : (Instr.clearFaultSpan .a 0 [1, 0, 0]).wf = false := by decide
theorem test_wf_clearFaultGroup_with_span_form : (Instr.clearFaultGroup .a 0 [0, 0, 0]).wf = false := by decide
theorem test_wf_setClockSet_with_start : (Instr.setClockSet .a 0 [1, 0, 0, 0, 0]).wf = false := by decide
theorem test_wf_setClockSet_with_hold : (Instr.setClockSet .a 0 [2, 0, 0, 0, 0]).wf = false := by decide
theorem test_wf_setClockStart_with_set : (Instr.setClockStart .a 0 [0, 0, 0, 0, 0]).wf = false := by decide
theorem test_wf_setClockHold_with_start : (Instr.setClockHold .a 0 [1, 0, 0, 0, 0]).wf = false := by decide
theorem test_wf_unknownKind_with_known_code : (Instr.unknownKind .a 0x10 0 []).wf = false := by decide
theorem test_wf_unknownKind_with_unknown_code : (Instr.unknownKind .a 0x09 0 []).wf = true := by decide
theorem test_wf_raw_count_too_high : (Instr.feedbackArrival 0 (quiet 8388608)).wf = false := by decide
theorem test_wf_raw_count_too_low : (Instr.feedbackArrival 0 (quiet (-8388609))).wf = false := by decide
theorem test_wf_raw_count_lowest : (Instr.feedbackArrival 0 (quiet (-8388608))).wf = true := by decide

/-! ### What the manual spells out -/

/-- POWER_ON_RESET with the straps and levels of log 1, as the first draw of free values, leaves State.reset. -/
theorem test_powerOnReset_gives_reset :
    exec (.powerOnReset Straps.chosen false true) (on { Part.reset with draws := 0 }) = .next State.reset := rfl

/-- R186: the nine characters "123456789" give 29B1h. -/
theorem test_crc_of_nine_characters : crc [0x31, 0x32, 0x33, 0x34, 0x35, 0x36, 0x37, 0x38, 0x39] = 0x29B1 := by decide

/-- R28: the codes the model knows are those of the request headings. -/
theorem test_knownKind_is_requestKinds : ∀ kind : Byte, knownKind kind = requestKinds.contains kind := by decide

/-- R172, R186: the frame of an accepted HEARTBEAT with nothing pending, ARMED, on rack 0; the request's frame, judged from its
bytes, asks for it, and with a wrong CRC byte is broken. -/
theorem test_reply_frame :
    Reply.frame { address := 0, kind := 0x82, result := .ok, status := 0x02, index := 0xFF, data := [2, 0] }
        = 0xA5 :: withCrc [0x00, 0x03, 0x82, 0x00, 0x02, 0xFF, 0x02, 0x00]
      ∧ frameCommand 0 .a (withCrc [0x00, 0x00, 0x02, 0x01]) = some (.heartbeat .a 0x01 [])
      ∧ frameCommand 0 .a [0x00, 0x00, 0x02, 0x01, 0x00, 0x00] = some (.frameCrcError .a) := by decide

/-- R186: the status byte: STANDBY, overrun and a pending notice. -/
theorem test_status_byte : statusByte .standby true true = 0x0D := by decide

/-- R187: an absent position, the most negative 24-bit count, and a signed waypoint offset. -/
theorem test_wire_numbers :
    wrPos none = [0x80, 0x00, 0x00] ∧ wrS24 (-1) = [0xFF, 0xFF, 0xFF] ∧ wrS16 (-30000) = [0x8A, 0xD0]
      ∧ rdS24 0xFF 0x15 0xA0 = -60000 ∧ rd24 0x00 0xEA 0x60 = 60000 := by decide

/-- R49: a travel of 7 mm at ratio 1 is 3 mm, and -3 mm downward: the magnitude is shifted. -/
theorem test_travel_rounds_toward_zero :
    Lane.travel ⟨0, .follow, 1⟩ 7 = 3 ∧ Lane.travel ⟨0, .follow, 1⟩ (-7) = -3 ∧ Lane.travel ⟨0, .oppose, 0⟩ 7 = -7 := by
  decide

/-- R141: 20 mm in a second is 20 mm/s; 1 mm in 60 s still is 10 mm/s; a demand is rounded up and capped. -/
theorem test_segment_demand :
    segmentDemand rigChannel 20 1000 = 20 ∧ segmentDemand rigChannel 1 60000 = 10 ∧ segmentDemand rigChannel (-21) 1999 = 11
      ∧ segmentDemand rigChannel 5000 1000 = 40 := by decide

/-! ### One step of a family -/

theorem test_setMode_arms : (after (.setMode .a 0 [2]) (rig .standby)).ctl.mode = .armed := by decide

theorem test_broadcastHalt_halts_without_reply :
    (after (.broadcastHalt .b 0 []) (rig .armed)).ctl.mode = .halted
      ∧ ((after (.broadcastHalt .b 0 []) (rig .armed)).link .b).answering = none := by decide

/-- R22: an unreferenced jog runs at a quarter of the nominal speed at most. -/
theorem test_jog_releases_the_brake :
    let p := after (.jog .a 0 [3, 2]) ((rig .armed).setChan 3 { rigChannel with referenced := false })
    (p.chan 3).state = .starting ∧ (p.port 3).output = { brakeReleased := true, run := true, direction := .down, demand := 10 }
      := by decide

theorem test_claim_takes_unowned_members :
    let p := after (.claim .b 1 [4, 5]) (((rig .armed).modChan 4 fun x => { x with owner := none }).modChan 5 fun x =>
      { x with owner := some .b })
    (p.chan 4).owner = some .b ∧ (p.link .b).answering.map (·.data) = some [1] := by decide

theorem test_feedback_overload_faults_the_channel :
    let p := after (.feedbackArrival 3 { quiet 5000 with load := 1251 }) (rig .armed)
    (p.chan 3).state = .faulted ∧ (p.chan 3).holdsFault .overload = true ∧ p.ctl.mode = .armed := by decide

theorem test_feedback_final_limit_halts_the_device :
    (after (.feedbackArrival 3 { quiet 5000 with upperOpen := true }) (rig .armed)).ctl.mode = .halted := by decide

theorem test_go_starts_the_move :
    let p := after (.go .a 0 [1]) ((rig .armed).modQueue 1 fun x => { x with cues := [rigCue .onGo] })
    (p.group 1).state = .preparing ∧ (p.chan 2).state = .starting ∧ (p.chan 2).demand = 40 ∧ (p.queue 1).cues = []
      ∧ (p.port 2).output.brakeReleased = true := by decide

/-- R48, R49: with 50 mm the opposing lane at ratio 1 goes 25 mm down at half the speed. -/
theorem test_go_moves_opposing_lane_down :
    let p := after (.go .a 0 [0]) ((rig .armed).modQueue 0 fun x => { x with cues := [rigCue .onGo] })
    (p.chan 1).direction = some .down ∧ (p.chan 1).demand = 20
      ∧ (p.group 0).move.map (fun m => m.lanes.map (·.target)) = some [5050, 4975] := by decide

theorem test_stop_stops_the_move :
    ((after (.stop .a 0 [0]) (moving .running .moving (rigMove [rigLane 5100]))).chan 2).state = .stopping := by decide

theorem test_controlPeriod_completes_the_cue :
    let p := after (.controlPeriod 1) (moving .running .holding (rigMove [rigArrived]))
    (p.group 1).state = .idle ∧ p.codes.groups[(1 : Grp)] = some (.cueDone 1) := by decide

theorem test_playTrack_takes_the_head :
    let p := after (.playTrack .a 0 [0]) (tracked .loaded [rigPoint false, rigPoint true])
    (p.track 0).state = .playing ∧ (p.track 0).current = some (rigPoint false) ∧ (p.group 0).state = .preparing := by decide

theorem test_segment_end_starves_the_track :
    ((after (.segmentTimerExpiry 0) (playing ⟨0, 500, false⟩ [] [])).track 0).state = .starved := by decide

theorem test_markReached_fires_the_head :
    ((after (.markReached 1) { (rig .armed).modQueue 1 fun q => { q with
      cues := [rigCue (.atMark 5)], arming := .awaitingMark } with clock := { value := 5, running := true } }).group 1).state
      = .preparing := by decide

theorem test_latch_captures_once :
    let p := after (.latch .a 0 [0, 3, 3, 3]) (rig .armed)
    (p.link .a).answering.map (·.data) = some [2] ∧ (p.chan 3).statusSlot.isSome = true
      ∧ (p.chan 3).positionSlot.map (·.raw) = some 5000 := by decide

theorem test_lineReset_holds_and_releases :
    (after .lineResetAssert (rig .armed)).ctl.mainPower = false
      ∧ (after .lineResetRelease (after .lineResetAssert (rig .armed))).ctl.mode = .standby := by decide

/-! ### Takings: premises met -/

/-- A part at work, and one in line reset; the lease of a jog runs out with the tick. -/
theorem test_met_IdleStepCountsOneMillisecond :
    (on (rig .armed)).pending = [] ∧ (rig .armed).ctl.held = false
      ∧ ((rig .armed).modCtl fun m => { m with held := true }).ctl.held = true
      ∧ ∃ t, step (on ((rig .armed).modChan 3 fun x => { x with jog := some { direction := .up, lease := 1 } })) = .next t
          ∧ t.part.RunOut (.jogLeaseExpiry 3) :=
  ⟨by decide, by decide, by decide, _, rfl, rfl⟩

theorem test_met_EveryTakenRequestIsAnswered :
    (Instr.identify .a 0 []).request = some ⟨.a, 0x01, 0, []⟩ ∧ (rig .standby).Ready .a
      ∧ ([] : List Byte).length ≤ 240 ∧ (List.replicate 240 (0 : Byte)).length ≤ 240 := by decide

/-- A tier field of 8 is answered RANGE, and no output of a drive port changes. -/
theorem test_met_RefusedRequestChangesNothing :
    (Instr.identify .a 8 []).request = some ⟨.a, 0x01, 8, []⟩ ∧ (rig .standby).Ready .a
      ∧ ((rig .standby).request .a 0x01 8 [] (lengthIs 0) judgeIdentify).link .a
        = (rig .standby).replyLink (rig .standby) .a 0x01 .range 0xFF []
      ∧ (after (.jog .a 8 [3, 2]) (rig .armed)).ports = (rig .armed).ports :=
  ⟨by decide, by decide, by decide, rfl⟩

theorem test_met_FormatAndTierFieldComeFirst :
    knownKind 0x01 = true ∧ ¬FitsKind 0x01 [0] ∧ FitsKind 0x01 [] ∧ knownKind 0x24 = true ∧ ¬FitsKind 0x24 []
      ∧ ¬FitsKind 0x24 [1] ∧ FitsKind 0x24 [1, 0] ∧ 7 < (8 : Byte).toNat := by simp [FitsKind, knownKind]

theorem test_met_UnknownKindIsRefused :
    (rig .armed).Ready .b ∧ (0x00 : Byte) ∉ requestKinds ∧ (0x45 : Byte) ∉ requestKinds ∧ (0x44 : Byte) ∈ requestKinds := by
  decide

theorem test_met_AnsweringLinkDiscardsFrame :
    (answering (rig .armed) .b).ctl.held = false ∧ ((answering (rig .armed) .b).link .b).answering.isSome = true
      ∧ (Instr.halt .b 0 []).request = some ⟨.b, 0x05, 0, []⟩ := by decide

theorem test_met_LineResetHoldsOffCommands :
    ((rig .armed).modCtl fun m => { m with held := true }).ctl.held = true ∧ (Instr.frameStart .a).heldOff = true := by
  decide

theorem test_met_FrameEventsMoveTheAssemblerAlone : (rig .armed).ctl.held = false := by decide

/-- A broadcast, and a request whose link is answering. -/
theorem test_met_LongFrameIsDiscarded :
    (answering (rig .armed) .a).ctl.held = false ∧ 240 < (List.replicate 241 (0 : Byte)).length
      ∧ ∃ r, (Instr.halt .a 0 (List.replicate 241 0)).request = some r ∧ r.link = .a ∧ r.body = List.replicate 241 0 :=
  ⟨by decide, by decide, _, rfl, rfl, rfl⟩

/-- A length byte of 241, wrong CRC bytes, and the three addresses. -/
theorem test_met_FrameBytesAreJudged :
    240 < (241 : Byte).toNat ∧ [0, 0, 0x05, 0] ++ [1, 1] ≠ withCrc [(0 : Byte), 0, 0x05, 0]
      ∧ (3 : Byte) = byteOf (3 : Fin 16).val ∧ (31 : Byte) ≠ byteOf (3 : Fin 16).val ∧ (4 : Byte) ≠ byteOf (3 : Fin 16).val
      ∧ (4 : Byte) ≠ 31 := by decide

/-- A line reset; a link that hunts; bytes without A5h, a length byte of 241, wrong CRC bytes, and a frame's command. -/
theorem test_met_BytesAfterADiscardAreHunted :
    ((rig .armed).modCtl fun m => { m with held := true }).ctl.held = true ∧ (rig .armed).ctl.held = false
      ∧ ((rig .armed).link .a).assembler = .hunting ∧ (0xA5 : Byte) ∉ [(1 : Byte), 2] ∧ 240 < (241 : Byte).toNat
      ∧ [0, 0, 0x02, 1] ++ [1, 1] ≠ withCrc [(0 : Byte), 0, 0x02, 1] ∧ ([] : List Byte).length ≤ 240 := by decide

/-- R169: after a stray byte and a frame broken by its length byte, the A5h that follows starts a HEARTBEAT, which is answered. -/
theorem test_heartbeat_behind_a_broken_frame :
    ∃ t, (on (rig .armed)).receive .a ([0x01, 0xA5, 0x00, 0xF1, 0xA5] ++ withCrc [0x00, 0x00, 0x02, 0x01]) = .next t
      ∧ (t.part.link .a).answering.isSome = true ∧ (t.part.link .a).assembler = .hunting :=
  ⟨_, rfl, by decide, by decide⟩

/-! ### Laws: states that have them, and a step -/

theorem test_met_StepKeepsOutputLaw :
    (rig .standby).OutputLaw ∧ ∃ t, step { on (rig .standby) with pending := [.powerGoodAbsent] } = .next t :=
  ⟨fun c => ⟨fun h => absurd h.1 (by decide), fun _ => by revert c; decide⟩, _, rfl⟩

theorem test_met_StepKeepsPowerLaw :
    (rig .armed).PowerLaw ∧ ∃ t, step { on (rig .armed) with pending := [.powerGoodAbsent] } = .next t :=
  ⟨by decide, _, rfl⟩

theorem test_met_StepKeepsAttentionLaw :
    (rig .armed).AttentionLaw ∧ ∃ t, step { on (rig .armed) with pending := [.watchdogExpiry .a] } = .next t :=
  ⟨fun l => by cases l <;> decide, _, rfl⟩

theorem test_met_StepKeepsQueueLaw :
    ((rig .armed).modQueue 0 fun x => { x with cues := [rigCue .onGo] }).QueueLaw
      ∧ ∃ t, step (on ((rig .armed).modQueue 0 fun x => { x with cues := [rigCue .onGo] })) = .next t :=
  ⟨by decide, _, rfl⟩

theorem test_met_StepKeepsTrackLaw :
    (tracked .loaded [rigPoint false, rigPoint true]).TrackLaw
      ∧ ∃ t, step (on (tracked .loaded [rigPoint false, rigPoint true])) = .next t :=
  ⟨by simp only [Part.TrackLaw]; decide, _, rfl⟩

theorem test_met_StepKeepsRecordLaw :
    ((rig .armed).setChan 3 { rigChannel with state := .faulted, fault := some (rigFault .stall) }).RecordLaw
      ∧ ∃ t, step (on ((rig .armed).setChan 3 { rigChannel with state := .faulted, fault := some (rigFault .stall) }))
          = .next t := by
  refine ⟨fun c => ?_, _, rfl⟩
  have h : ((rig .armed).setChan 3 { rigChannel with state := .faulted, fault := some (rigFault .stall) }).chan c
      = if c = 3 then { rigChannel with state := .faulted, fault := some (rigFault .stall) } else rigChannel := by
    revert c; decide
  rw [h]
  split
  · exact ⟨by decide, by decide, by decide, fun r hr => by cases hr; decide⟩
  · exact ⟨by decide, by decide, by decide, fun r hr => nomatch hr⟩

/-- The lane lists of the rig are lawful. -/
theorem rig_laneListLaw : (rig .armed).LaneListLaw := by
  intro g h
  have : g = 0 ∨ g = 1 := by revert g; decide
  rcases this with rfl | rfl <;>
    exact ⟨by decide, by decide, by decide, fun ln h => by cases Option.some.inj h; decide, by decide⟩

/-- Nothing moves on the rig, and nothing is bound. -/
theorem rig_ownershipLaw : (rig .armed).OwnershipLaw := by
  have hc : ∀ c, (rig .armed).chan c = rigChannel := by decide
  have hg : ∀ g, ((rig .armed).group g).move = none ∧ ((rig .armed).group g).boundTrack = none
      ∧ ((rig .armed).group g).controlTimer = none
      ∧ (((rig .armed).group g).state = .empty ∧ ((rig .armed).group g).lanes = [] ∨ ((rig .armed).group g).state = .idle) := by
    decide
  have ht : ∀ t, (rig .armed).track t = Track.clear := by decide
  refine ⟨fun c => ?_, fun g => ?_, fun t => ?_⟩
  · simp [Part.MoverLaw, hc, rigChannel, Channel.powerOn]
  · obtain ⟨h1, -, h2, h | h⟩ := hg g <;> simp [Part.MoveLaw, hc, rigChannel, Channel.powerOn, h, h1, h2]
  · simp [Part.BindingLaw, ht, Track.clear, fun g => (hg g).2.1]

/-- G1 at rest on its target, with its cue move not yet complete. -/
abbrev arrivedMove : Part := moving .running .holding (rigMove [rigArrived])

/-- G1 holds channel 2 at its target, and nothing else moves. -/
theorem moving_ownershipLaw : arrivedMove.OwnershipLaw := by
  have hc : ∀ c, arrivedMove.chan c = if c = 2 then rigMoving .holding else rigChannel := by
    decide
  have hg : ∀ g, g ≠ 1 → arrivedMove.group g = (rig .armed).group g := by decide
  have h1 : arrivedMove.group 1 = { Group.powerOn with
      state := .running, lanes := [⟨2, .follow, 0⟩], move := some (rigMove [rigArrived]), controlTimer := some 0 } := by decide
  have ht : ∀ t, arrivedMove.track t = Track.clear := by decide
  have hb : ∀ g, (arrivedMove.group g).boundTrack = none := by decide
  refine ⟨fun c => ?_, fun g => ?_, fun t => ?_⟩
  · have hx : arrivedMove.hasChan 2 = true := by decide
    by_cases h : c = 2 <;> simp [Part.MoverLaw, hc, h, hx, rigMoving, rigChannel, Channel.powerOn]
  · by_cases h : g = 1
    · subst h
      refine ⟨by rw [h1]; decide, by rw [h1]; decide, fun m hm => ?_, by decide, fun _ m hm => ?_, by rw [h1]; decide⟩ <;>
        (rw [h1] at hm; cases Option.some.inj hm; decide)
    · have hr := rig_ownershipLaw.2.1 g
      have hq : ∀ g, ((rig .armed).group g).state ≠ .preparing ∧ ((rig .armed).group g).state ≠ .running
          ∧ ((rig .armed).group g).state ≠ .stopping := by decide
      refine ⟨by rw [hg g h]; exact hr.1, by rw [hg g h]; exact hr.2.1, by rw [hg g h]; exact hr.2.2.1, fun c hcg => ?_,
        fun hs => ?_, by rw [hg g h]; exact hr.2.2.2.2.2⟩
      · rw [hc c] at hcg
        split at hcg <;> simp [rigMoving, rigChannel, Channel.powerOn] at hcg
        exact absurd hcg.symm h
      · rw [hg g h] at hs
        simp [hq] at hs
  · simp [Part.BindingLaw, ht, Track.clear, hb]

/-- Track 0 plays an END segment with G0, at rest on its target, and waits for nothing but its report. -/
abbrev closingPlay : Part := (playing (rigPoint true) [] []).modTrack 0 fun x => { x with closing := true, segmentTimer := none }

/-- G0 holds channels 0 and 1 for the track that binds it, and nothing else moves. -/
theorem playing_ownershipLaw : closingPlay.OwnershipLaw := by
  have hc : ∀ c, closingPlay.chan c = if c = 0 ∨ c = 1 then { rigMoving .holding with mover := .group 0 } else rigChannel := by
    decide
  have hg : ∀ g, g ≠ 0 → closingPlay.group g = (rig .armed).group g := by decide
  have h0 : closingPlay.group 0 = { Group.powerOn with
      state := .running, lanes := rigLanes, boundTrack := some 0, controlTimer := some 0
      move := some { rigMove [rigArrived, rigArrived] with source := .track 0, speed := none } } := by decide
  refine ⟨fun c => ?_, fun g => ?_, fun t => ?_⟩
  · have hx : closingPlay.hasChan 0 = true ∧ closingPlay.hasChan 1 = true := by decide
    by_cases h : c = 0 ∨ c = 1
    · rcases h with h | h <;> subst h <;> simp [Part.MoverLaw, hc, hx, rigMoving, rigChannel, Channel.powerOn]
    · simp [Part.MoverLaw, hc, h, rigChannel, Channel.powerOn]
  · by_cases h : g = 0
    · subst h
      refine ⟨by rw [h0]; decide, by rw [h0]; decide, fun m hm => ?_, by decide, fun _ m hm => ?_, by rw [h0]; decide⟩ <;>
        (rw [h0] at hm; cases Option.some.inj hm; decide)
    · have hr := rig_ownershipLaw.2.1 g
      have hq : ∀ g, ((rig .armed).group g).state ≠ .preparing ∧ ((rig .armed).group g).state ≠ .running
          ∧ ((rig .armed).group g).state ≠ .stopping := by decide
      refine ⟨by rw [hg g h]; exact hr.1, by rw [hg g h]; exact hr.2.1, by rw [hg g h]; exact hr.2.2.1, fun c hcg => ?_,
        fun hs => ?_, by rw [hg g h]; exact hr.2.2.2.2.2⟩
      · rw [hc c] at hcg
        split at hcg <;> simp [rigChannel, Channel.powerOn] at hcg
        exact absurd hcg.symm h
      · rw [hg g h] at hs
        simp [hq] at hs
  · have ho : ∀ (t : Trk) (g : Grp), (closingPlay.track t).origins[g] = none
        ∨ t = 0 ∧ g = 0 ∧ (closingPlay.track t).origins[g] = some [5000, 5000] := by
      decide
    refine ⟨by revert t; decide, by revert t; decide, by revert t; decide, by revert t; decide, by revert t; decide, fun g o h => ?_⟩
    rcases ho t g with e | ⟨rfl, rfl, e⟩
    · rw [e] at h; exact nomatch h
    · rw [e] at h; cases Option.some.inj h; decide

theorem test_met_StepKeepsLaneListLaw :
    (rig .armed).LaneListLaw ∧ (rig .armed).OwnershipLaw
      ∧ ∃ t, step { on (rig .armed) with pending := [.deleteGroup .a 0 [1]] } = .next t :=
  ⟨rig_laneListLaw, rig_ownershipLaw, _, rfl⟩

theorem test_met_StepKeepsOwnershipLaw :
    (rig .armed).LaneListLaw ∧ (rig .armed).OwnershipLaw
      ∧ ∃ t, step { on (rig .armed) with pending := [.bindTrack .a 0 [0, 1]] } = .next t :=
  ⟨rig_laneListLaw, rig_ownershipLaw, _, rfl⟩

/-! ### Resets: premises met -/

theorem test_met_TakesReset :
    TakesReset (.powerOnReset Straps.chosen false true) State.reset .powerOn
      ∧ TakesReset .lineResetAssert (on (rig .armed)) .line
      ∧ TakesReset .commandReset (on ((rig .armed).modCtl fun m => { m with resetDue := true })) .command
      ∧ TakesReset (.replySent .a) (on (answering ((rig .armed).modCtl fun m => { m with resetDue := true }) .a)) .command :=
  ⟨.inl ⟨_, _, _, rfl, rfl⟩, .inr (.inl ⟨rfl, rfl, rfl⟩), .inr (.inr (.inl ⟨rfl, rfl, rfl⟩)),
    .inr (.inr (.inr ⟨rfl, rfl, rfl, rfl⟩))⟩

theorem test_met_EveryResetEmptiesTheQueues : TakesReset .lineResetAssert (on (rig .armed)) .line :=
  .inr (.inl ⟨rfl, rfl, rfl⟩)

theorem test_met_EveryResetEmptiesTheTracks :
    TakesReset .commandReset (on ((rig .armed).modCtl fun m => { m with resetDue := true })) .command :=
  .inr (.inr (.inl ⟨rfl, rfl, rfl⟩))

theorem test_met_LineResetHoldsPowerOffAndTimersStopped :
    (rig .armed).ctl.held = false ∧ (rig .armed).hasChan 0 = true := by decide

/-- The causes that are not power-on, on channels that exist and on one that does not. -/
theorem test_met_LineAndCommandResetKeepWhatTheyKeep :
    TakesReset .lineResetAssert (on (rig .armed)) .line ∧ ResetCause.line ≠ .powerOn ∧ (rig .armed).hasChan 15 = true
      ∧ ((rig .armed).modCtl fun m => { m with straps := { m.straps with sixteen := false } }).hasChan 8 = false :=
  ⟨.inr (.inl ⟨rfl, rfl, rfl⟩), by decide⟩

theorem test_met_ResetEstablishesTheMode :
    (let s := (rig .armed).takeReset.modCtl fun m => { m with held := true }
     s.ctl.held = true ∧ s.ctl.estop = false ∧ s.ctl.powerGood = true ∧ s.deviceFault.isSome = false
       ∧ s.ctl.mainPower = false ∧ s.ctl.powerGoodTimer = none)
    ∧ (let s := (rig .parked).modCtl fun m => { m with resetDue := true, powerGood := false }
       s.ctl.resetDue = true ∧ s.ctl.mode = .parked ∧ s.takeReset.deviceFault.isSome = false) := by decide

theorem test_met_ReplySentEndsAnswering :
    (let p := answering (rig .armed) .a
     (p.link .a).answering.isSome = true ∧ p.ctl.resetDue = false)
    ∧ (let p := answering ((rig .armed).modCtl fun m => { m with resetDue := true }) .a
       (p.link .a).answering.isSome = true ∧ p.ctl.resetDue = true) := by decide

theorem test_met_ResetRequestSchedulesTheReset :
    (rig .armed).Ready .a ∧ (rig .armed).effectiveTier .a 0 = 0 ∧ (rig .armed).Ready .b
      ∧ (rig .armed).effectiveTier .b 0 ≠ 0 := by decide

/-! ### Links: premises met -/

theorem test_met_IdentifyAnswersWithTheRecord :
    (rig .armed).Ready .a ∧ (7 : Byte).toNat ≤ 7 ∧ 7 < (8 : Byte).toNat := by decide

theorem test_met_HeartbeatDeliversTheFirstPair :
    (let p := (rig .armed).modLink .a (LinkIf.setPending [])
     p.Ready .a ∧ (p.link .a).pending = [])
    ∧ (let p := (rig .armed).modLink .a (LinkIf.setPending [.mode, .group 0])
       p.Ready .a ∧ NoticePair.mode ∈ (p.link .a).pending
         ∧ ∀ r ∈ (p.link .a).pending, NoticePair.mode.rank ≤ r.rank) := by decide

/-- Periods 99, 5001, 0, 100 and 5000. -/
theorem test_met_SetWatchdogSetsThePeriod :
    (rig .armed).Ready .a ∧ (rig .armed).ctl.mode = .armed ∧ (rig .standby).Ready .a ∧ (rig .standby).ctl.mode ≠ .armed
      ∧ (0 : Byte).toNat * 256 + (99 : Byte).toNat = 99 ∧ (0x13 : Byte).toNat * 256 + (0x89 : Byte).toNat = 5001
      ∧ (0 : Byte).toNat * 256 + (0 : Byte).toNat = 0 ∧ (0 : Byte).toNat * 256 + (100 : Byte).toNat = 100
      ∧ (0x13 : Byte).toNat * 256 + (0x88 : Byte).toNat = 5000 := by decide

theorem test_met_SetNoticesReplacesTheEnables :
    (rig .standby).Ready .a ∧ (1 : Byte).getLsbD 0 = true
      ∧ (0x04 : Byte).getLsbD 0 = false ∧ enablesOf 0x04 ≠ (rig .standby).ctl.wakes
      ∧ 1 < (rig .standby).effectiveTier .a 2 ∧ (rig .standby).effectiveTier .a 1 ≤ 1
      ∧ (0x24 : Byte).getLsbD 0 = false ∧ enablesOf 0x24 = (rig .standby).ctl.wakes := by decide

theorem test_met_RaisedEventReachesBothLinks :
    NoticePair.channelFault 3 ≠ .link ∧ (rig .parked).ctl.mode = .parked
      ∧ (rig .parked).ctl.wakes.has (.channelFault 3) = true
      ∧ ((rig .parked).raise (.channelFault 3) (.fault .stall)).ctl.mode ≠ (rig .parked).ctl.mode
      ∧ NoticePair.mode ∈ ((rig .parked).link .a).pending ∧ ((rig .parked).link .a).reports.mode = true
      ∧ ((rig .armed).link .a).reports.has (.group 0) = true ∧ ((rig .armed).link .b).reports.has (.group 0) = false := by
  decide

/-- Link A runs out while Link B does not watch. -/
theorem test_met_WatchdogExpiryStopsAndReleases :
    let p := (rig .armed).modLink .a fun x => { x with watchdog := { period := 100, state := .running, timer := some 0 } }
    p.ctl.held = false ∧ (p.link .a).watchdog.timer = some 0 ∧ p.ctl.mode = .armed
      ∧ (p.link .b).watchdog.state ≠ .running ∧ (∀ c, (p.chan c).mover = .none) ∧ (p.chan 0).owner = some .a := by decide

/-- Link A runs out with its cue move under way and at rest, with a group at rest beside it, and while Link A does not watch. -/
theorem test_met_SilenceStopsTheMovesOfTheLink :
    (let p := (moving .running .moving (rigMove [rigLane 5100])).modLink .a fun x =>
       { x with watchdog := { period := 100, state := .running, timer := some 0 } }
     p.ctl.held = false ∧ (p.link .a).watchdog.timer = some 0 ∧ (p.group 1).active = true ∧ (p.group 0).active = false
       ∧ (p.group 1).move = some (rigMove [rigLane 5100]) ∧ (rigMove [rigLane 5100]).origin = .a ∧ p.Underway 1
       ∧ ∀ t, (p.track t).closing = false)
    ∧ arrivedMove.OwnershipLaw
    ∧ ¬arrivedMove.Underway 1 :=
  ⟨by decide, moving_ownershipLaw, by decide⟩

/-- A closing track whose one group is at rest, when its owner link runs out. -/
theorem test_met_SilenceAbandonsThePlay :
    let p := closingPlay.modLink .a fun x => { x with watchdog := { period := 100, state := .running, timer := some 0 } }
    p.ctl.held = false ∧ (p.link .a).watchdog.timer = some 0 ∧ p.OwnershipLaw ∧ (p.track 0).state = .playing
      ∧ (p.track 0).playing = [0] ∧ (p.track 0).arrived = [] ∧ (p.group 0).active = true ∧ ¬p.Underway 0
      ∧ (p.group 0).move.map (fun m => (m.source, m.origin)) = some (.track 0, .a) :=
  ⟨by decide, by decide, playing_ownershipLaw, by decide, by decide, by decide, by decide, by decide, by decide⟩

/-- The last group to leave a closing track abandons its play: TRACK_STOPPED, and the origins stay. -/
theorem test_closing_play_is_abandoned :
    let p := after (.watchdogExpiry .a) (closingPlay.modLink .a fun x =>
      { x with watchdog := { period := 100, state := .running, timer := some 0 } })
    (p.track 0).state = .empty ∧ (p.track 0).closing = false ∧ (p.track 0).playing = []
      ∧ (p.track 0).origins[(0 : Grp)] = some [5000, 5000] ∧ p.codes.tracks[(0 : Trk)] = some .trackStopped := by decide

/-! ### Modes: premises met -/

theorem test_met_SetModeChangesTheMode :
    (rig .standby).Ready .a ∧ (rig .standby).PowerLaw ∧ (rig .standby).MayTakeMode .standby
      ∧ (rig .standby).MayTakeMode .armed ∧ (rig .standby).MayTakeMode .parked ∧ (rig .parked).PowerLaw
      ∧ (rig .parked).MayTakeMode .standby ∧ (rig .armed).PowerLaw ∧ (rig .armed).MayTakeMode .standby :=
  ⟨by decide, by decide, trivial, (by decide : _ ∧ _), trivial, by decide, trivial, by decide, (by decide : ∀ _, _)⟩

theorem test_met_SetModeRefusals :
    (rig .standby).Ready .a ∧ 2 < (3 : Byte).toNat ∧ (rig .halted).ctl.mode = .halted ∧ (rig .parked).ctl.mode = .parked
      ∧ (rig .armed).ctl.mode = .armed
      ∧ ((rig .standby).modCtl fun m => { m with straps := { m.straps with lockout := true } }).ctl.straps.lockout = true
      ∧ (rig .standby).ctl.straps.lockout = false
      ∧ ((rig .standby).modCtl fun m => { m with powerGood := false }).ctl.powerGood = false
      ∧ (let p := (rig .standby).setChan 3 { rigChannel with state := .faulted, fault := some (rigFault .runaway) }
         p.ctl.estop = false ∧ p.ctl.powerGood = true ∧ (p.chan 3).holdsFault .runaway = true
           ∧ ∀ d, d < 3 → (p.chan d).holdsFault .runaway = false ∧ (p.chan d).holdsFault .finalLimit = false)
      ∧ (let p := jogging .moving
         p.ctl.mode = .armed ∧ (p.chan 3).mover ≠ .none ∧ ∀ d, d < 3 → (p.chan d).mover = .none) := by decide

/-- Each way to a halt. -/
theorem test_met_HaltStopsEveryBlock :
    (rig .armed).ctl.held = false ∧ (rig .armed).ctl.mode ≠ .halted
      ∧ TakesHalt (.halt .a 0 []) (on (rig .armed)) .haltRequest
      ∧ TakesHalt (.broadcastHalt .b 7 []) (on (rig .armed)) .haltRequest
      ∧ TakesHalt .emergencyStopAssert (on (rig .armed)) .emergencyStop
      ∧ TakesHalt .powerGoodTimerExpiry
          (on ((rig .armed).modCtl fun m => { m with powerGood := false, powerGoodTimer := some 0 })) .powerLoss :=
  ⟨by decide, by decide, .inl ⟨.a, 0, rfl, by decide, by decide, rfl⟩, .inr (.inl ⟨.b, 7, rfl, by decide, by decide, rfl⟩),
    .inr (.inr (.inl ⟨rfl, rfl⟩)), .inr (.inr (.inr ⟨rfl, rfl, rfl⟩))⟩

/-- A cue move under way, one at rest, a group at rest, and a track move that plays. -/
theorem test_met_HaltStopsTheMoves :
    (let p := moving .running .moving (rigMove [rigLane 5100])
     p.ctl.held = false ∧ p.ctl.mode ≠ .halted ∧ TakesHalt .emergencyStopAssert (on p) .emergencyStop
       ∧ (p.group 1).active = true ∧ (p.group 0).active = false ∧ (p.group 1).move = some (rigMove [rigLane 5100])
       ∧ p.Underway 1 ∧ ∀ t, (p.track t).playing = [])
    ∧ arrivedMove.OwnershipLaw
    ∧ ¬arrivedMove.Underway 1
    ∧ (let p := playing (rigPoint false) [] []
       0 ∈ (p.track 0).playing ∧ (p.track 0).closing = false ∧ (p.group 0).active = true ∧ ¬p.Underway 0) := by
  refine ⟨⟨by decide, by decide, .inr (.inr (.inl ⟨rfl, rfl⟩)), by decide, by decide, by decide, by decide, by decide⟩,
    moving_ownershipLaw, by decide, by decide⟩

/-- A track that plays a group under way, and one that plays nothing. -/
theorem test_met_HaltEndsThePlays :
    let p := (playing (rigPoint false) [] []).modChan 0 fun x => { x with state := .moving, direction := some .up }
    p.ctl.held = false ∧ p.ctl.mode ≠ .halted ∧ (p.track 0).state = .playing ∧ (p.track 0).arrived = []
      ∧ (p.track 0).playing = [0] ∧ p.Underway 0 ∧ (p.track 0).closing = false ∧ (p.track 1).state = .empty
      ∧ (p.track 1).playing = [] := by decide

theorem test_met_RefusedBroadcastHaltsNothing :
    (rig .armed).Ready .b ∧ [(1 : Byte)].length ≤ 240 ∧ [(1 : Byte)] ≠ [] ∧ 7 < (8 : Byte).toNat := by decide

theorem test_met_HaltInHaltedChangesNothing : (rig .halted).Ready .a ∧ (rig .halted).ctl.mode = .halted := by decide

theorem test_met_InputLevelsAreRecorded :
    (rig .armed).ctl.powerGood = true ∧ (rig .armed).ctl.mainPower = true ∧ (rig .halted).ctl.mainPower = false := by decide

theorem test_met_ResumeReturnsToStandby :
    let moving := fun (p : Part) c => (p.chan c).kind ≠ .absent ∧
      ((p.chan c).state ∈ [ChannelState.starting, .moving, .stopping]
        ∨ ¬∃ x y z, (p.chan c).history = [x, y, z] ∧ max x (max y z) - min x (min y z) ≤ 2)
    (rig .halted).Ready .a ∧ (rig .halted).PowerLaw ∧ (rig .standby).PowerLaw ∧ (rig .standby).ctl.mode ≠ .halted
      ∧ (rig .halted).ctl.mode = .halted ∧ (rig .halted).ctl.estop = false ∧ (rig .halted).Sound
      ∧ (∀ c, ¬moving (rig .halted) c)
      ∧ (let p := (rig .halted).setChan 3 { rigChannel with state := .stopping }
         p.Sound ∧ moving p 3 ∧ ∀ d, d < 3 → ¬moving p d) := by
  have rest : ∀ c, ((rig .halted).chan c).history = [5000, 5000, 5000]
      ∧ ((rig .halted).chan c).state = .idle := by decide
  have rest' : ∀ d : Chan, d < 3 → (((rig .halted).setChan 3 { rigChannel with state := .stopping }).chan d).history
      = [5000, 5000, 5000] ∧ (((rig .halted).setChan 3 { rigChannel with state := .stopping }).chan d).state = .idle := by
    decide
  refine ⟨by decide, by decide, by decide, by decide, by decide, by decide, by decide, fun c hc => ?_, by decide,
    ⟨by decide, .inl (by decide)⟩, fun d hd hc => ?_⟩
  · rcases hc.2 with h | h
    · rw [(rest c).2] at h; exact absurd h (by decide)
    · exact h ⟨_, _, _, (rest c).1, by decide⟩
  · rcases hc.2 with h | h
    · rw [(rest' d hd).2] at h; exact absurd h (by decide)
    · exact h ⟨_, _, _, (rest' d hd).1, by decide⟩

/-! ### Channels: premises met -/

/-- An absent channel that leaves ABSENT, and a configured one that goes to it and to FIXED. -/
theorem test_met_ConfigureChannelWritesTheRecord :
    ChannelConfig.powerOn.Legal ∧ (rig .standby).Ready .a ∧ (rig .standby).SetUp ∧ (rig .parked).SetUp
      ∧ Part.reset.hasChan 15 = true ∧ Part.reset.SetUp ∧ (Part.reset.chan 15).state ∈ [ChannelState.idle, .faulted, .absent]
      ∧ (Part.reset.chan 15).mover = .none ∧ (Part.reset.chan 15).owner ≠ some Link.a.other
      ∧ (rig .standby).effectiveTier .a 1 ≤ 1 ∧ ((rig .standby).chan 5).Lets ((rig .standby).effectiveTier .a 1)
      ∧ ((rig .standby).chan 5).fault = none
      ∧ (∀ g, ((rig .standby).group g).state ≠ .empty → ∀ ln ∈ ((rig .standby).group g).lanes, ln.channel ≠ 5)
      ∧ (∀ g, ((rig .standby).group g).state ≠ .empty → ∀ ln ∈ ((rig .standby).group g).lanes, ln.channel = 0 →
          ln.ratio = 0 ∨ 8 ≤ ln.ratio) := by decide

/-- Position 60000, the largest. -/
theorem test_met_SetPositionReferencesTheChannel :
    (rig .parked).Ready .a ∧ (rig .parked).hasChan 0 = true ∧ (0xEA : Byte).toNat * 256 + (0x60 : Byte).toNat ≤ 60000
      ∧ (rig .parked).SetUp ∧ (rig .parked).effectiveTier .a 1 ≤ 1 ∧ ((rig .parked).chan 0).Lets 1
      ∧ ((rig .parked).chan 0).owner ≠ some Link.a.other ∧ ((rig .parked).chan 0).state = .idle
      ∧ ((rig .parked).chan 0).mover = .none := by decide

/-- A span of Link A's and unowned channels, a span with one of Link B's, and an empty one. -/
theorem test_met_ClaimTakesTheSpan :
    let p := ((rig .armed).modChan 4 fun x => { x with owner := none }).modChan 9 fun x => { x with owner := some .b }
    p.Ready .a ∧ p.hasChan 0 = true ∧ p.hasChan 15 = true ∧ (∀ c, InSpan 0 15 c → (p.chan c).Lets (p.effectiveTier .a 7))
      ∧ (∀ c, InSpan 0 8 c → (p.chan c).owner ≠ some Link.a.other) ∧ (∀ c, ¬InSpan 15 0 c)
      ∧ InSpan 0 15 9 ∧ (p.chan 9).owner = some Link.a.other
      ∧ ∀ d, (0 : Chan) ≤ d → d < 9 → (p.chan d).owner ≠ some Link.a.other := by decide

theorem test_met_ReleaseGivesUpClaims :
    (rig .armed).Ready .a ∧ (rig .armed).effectiveTier .a 1 ≠ 0 ∧ (rig .armed).effectiveTier .a 0 = 0
      ∧ (∀ c, InSpan 0 15 c → ((rig .armed).chan c).Lets 0)
      ∧ (∀ c, (rig .armed).Gone .a false 0 15 c → ((rig .armed).chan c).mover = .none)
      ∧ (∀ c, (rig .armed).Gone .b true 0 15 c → ((rig .armed).chan c).mover = .none)
      ∧ (jogging .moving).Gone .a false 0 15 3 ∧ ((jogging .moving).chan 3).mover ≠ .none
      ∧ ∀ d, d < 3 → (jogging .moving).Gone .a false 0 15 d → ((jogging .moving).chan d).mover = .none := by decide

/-- UP from below the upper soft limit, and DOWN on an unreferenced channel. -/
theorem test_met_JogStartsTheChannel :
    (rig .armed).Ready .a ∧ (rig .armed).hasChan 3 = true ∧ (rig .armed).ctl.mode = .armed
      ∧ ((rig .armed).chan 3).Lets ((rig .armed).effectiveTier .a 7) ∧ ((rig .armed).chan 3).owner = some .a
      ∧ ((rig .armed).chan 3).state = .idle ∧ ((rig .armed).chan 3).mover = .none
      ∧ ((rig .armed).chan 3).pos < ((rig .armed).chan 3).config.softUpper
      ∧ (((rig .armed).setChan 3 { rigChannel with referenced := false }).chan 3).referenced = false := by decide

/-- Each check in turn, on the rig: a channel and a direction that do not exist, STANDBY, a guarded channel, one of no owner,
one that a group moves, one that holds, and one at each soft limit. -/
theorem test_met_JogRefusals :
    let low := (rig .armed).setChan 3 { rigChannel with config.softLower := 5000 }
    let high := (rig .armed).setChan 3 { rigChannel with config.softUpper := 5000 }
    (rig .armed).Ready .a ∧ (rig .armed).hasChan 3 = true ∧ (rig .armed).chanCount ≤ (16 : Byte).toNat
      ∧ 2 < (3 : Byte).toNat ∧ (rig .standby).ctl.mode ≠ .armed
      ∧ ¬(((rig .armed).setChan 3 { rigChannel with config.guardTier := 0 }).chan 3).Lets 1
      ∧ (((rig .armed).setChan 3 { rigChannel with owner := none }).chan 3).owner ≠ some .a
      ∧ ((moving .running .moving (rigMove [rigLane 5100])).chan 2).mover = .group 1
      ∧ (((rig .armed).setChan 3 { rigChannel with state := .stopping }).chan 3).state ≠ .idle
      ∧ ((high.chan 3).config.softUpper : Int) ≤ (high.chan 3).pos ∧ (low.chan 3).pos ≤ (low.chan 3).config.softLower := by
  decide

theorem test_met_JogRenewsOrEnds :
    (jogging .moving).Ready .a ∧ (jogging .moving).hasChan 3 = true ∧ (jogging .moving).ctl.mode = .armed
      ∧ ((jogging .moving).chan 3).Lets 7 ∧ ((jogging .moving).chan 3).owner = some .a
      ∧ ((jogging .moving).chan 3).mover = .jog .a
      ∧ ((jogging .moving).chan 3).jog = some { direction := .up, lease := 300 }
      ∧ ((jogging .moving).chan 3).state = .moving ∧ ((jogging .moving).chan 4).mover = .none
      ∧ ((moving .running .moving (rigMove [rigLane 5100])).chan 2).mover = .group 1
      ∧ ((moving .running .moving (rigMove [rigLane 5100])).chan 2).owner = some .a := by decide

/-- The only jog, with and without the silence-disarm flag, and a second mover beside it. -/
theorem test_met_JogLeaseExpiryEndsTheJog :
    (let p := ((jogging .starting).modCtl fun m => { m with silenceDisarm := true }).modChan 3 fun x =>
       { x with jog := some { direction := .up, lease := 0 } }
     p.ctl.held = false ∧ (p.chan 3).jog.map (·.lease) = some 0 ∧ (p.chan 3).state = .starting ∧ p.ctl.silenceDisarm = true
       ∧ p.ctl.mode = .armed ∧ ∀ e, e ≠ 3 → (p.chan e).mover = .none)
    ∧ (jogging .moving).ctl.silenceDisarm = false ∧ ((jogging .moving).chan 3).state = .moving
    ∧ (((jogging .moving).setChan 4 { rigChannel with mover := .jog .a }).chan 4).mover ≠ .none := by decide

/-- A sample at the upper soft limit of a jog UP. -/
theorem test_met_SoftLimitEndsTheJog :
    let p := (jogging .moving).modChan 3 fun x => { x with config.softUpper := 5010 }
    p.ctl.held = false ∧ p.hasChan 3 = true ∧ (p.chan 3).kind ≠ .absent ∧ (p.chan 3).state = .moving
      ∧ (p.chan 3).mover = .jog .a ∧ (p.chan 3).jog = some { direction := .up, lease := 300 } ∧ (p.chan 3).referenced = true
      ∧ (p.chan 3).config.softUpper ≤ (quiet 5010).raw + (p.chan 3).offset
      ∧ 100 * min (quiet 5010).load 9999 ≤ (p.chan 3).config.wll * (p.chan 3).config.overloadPct
      ∧ (p.chan 3).watchBaseline = none := by decide

/-- A record of STALL that can be cleared, and one of DRIVE_FAULT that cannot. -/
theorem test_met_ClearFaultClearsTheSpan :
    let p := (rig .armed).setChan 3 { rigChannel with state := .faulted, fault := some (rigFault .stall) }
    let q := (rig .armed).setChan 3 { rigChannel with
      state := .faulted, fault := some (rigFault .driveFault), driveFault := true }
    p.Ready .a ∧ p.hasChan 0 = true ∧ p.hasChan 15 = true
      ∧ (∀ c, InSpan 0 15 c → (p.chan c).Lets (p.effectiveTier .a 0) ∧ (p.chan c).owner ≠ some Link.a.other)
      ∧ (p.chan 3).fault = some (rigFault .stall) ∧ (p.chan 3).state ≠ .stopping ∧ p.CanClear 3 .stall
      ∧ (∀ c, c ≠ 3 → (p.chan c).fault = none)
      ∧ (q.chan 3).fault = some (rigFault .driveFault) ∧ ¬q.CanClear 3 .driveFault
      ∧ ∀ d, (0 : Chan) ≤ d → d < 3 → (q.chan d).fault = none :=
  ⟨by decide, by decide, by decide, by decide, by decide, by decide, trivial, by decide, by decide,
    fun h => absurd (show (true = false) from h) (by decide), by decide⟩

/-- A channel that does not exist, an existing one, and an ABSENT one. -/
theorem test_met_FeedbackArrivalIsTaken :
    ((rig .armed).modCtl fun m => { m with straps := { m.straps with sixteen := false } }).hasChan 8 = false
      ∧ (rig .armed).ctl.held = false ∧ (rig .armed).hasChan 8 = true ∧ (Part.reset.chan 8).kind = .absent := by decide

/-- A raw count 20 mm off rest is calm. -/
theorem test_met_CalmSampleAtRestChangesNoState :
    (rig .armed).ctl.held = false ∧ (rig .armed).hasChan 3 = true ∧ ((rig .armed).chan 3).kind ≠ .absent
      ∧ ((rig .armed).chan 3).state ∈ [ChannelState.idle, .holding, .faulted] ∧ ((rig .armed).chan 3).Calm (quiet 5020)
      ∧ ((rig .armed).chan 3).direction = none ∧ ((rig .armed).chan 3).mover = .none ∧ ((rig .armed).chan 3).jog = none
      ∧ ((rig .armed).chan 3).watchBaseline = none :=
  ⟨by decide, by decide, by decide, by decide,
    ⟨rfl, rfl, rfl, by decide, by decide, fun d e h => absurd (h.symm.trans rfl) (Option.some_ne_none d), by decide, by decide⟩,
    by decide, by decide, by decide, by decide⟩

/-- 3 mm from the mark on a jog, and on a lane of a PREPARING group. -/
theorem test_met_MotionConfirmPutsInMoving :
    (let p := jogging .starting
     p.ctl.held = false ∧ p.hasChan 3 = true ∧ (p.chan 3).kind ≠ .absent ∧ (p.chan 3).state = .starting
       ∧ (p.chan 3).direction = some .up ∧ (p.chan 3).confirmMark = some 5000 ∧ 3 ≤ (quiet 5003).raw - 5000
       ∧ (p.chan 3).Calm (quiet 5003) ∧ (p.chan 3).settling = false ∧ (p.chan 3).watchBaseline = none
       ∧ (p.chan 3).progressTimer = .stopped
       ∧ ∀ j, (p.chan 3).jog = some j → (p.chan 3).referenced = false ∨
          if j.direction = .up then (quiet 5003).raw + (p.chan 3).offset < (p.chan 3).config.softUpper
          else ((p.chan 3).config.softLower : Int) < (quiet 5003).raw + (p.chan 3).offset)
    ∧ (let p := moving .preparing .starting (rigMove [rigLane 5100])
       (p.chan 2).mover = .group 1 ∧ (p.group 1).state ≠ .stopping ∧ (p.group 1).move = some (rigMove [rigLane 5100])) := by
  refine ⟨⟨by decide, by decide, by decide, by decide, by decide, by decide, by decide,
    ⟨rfl, rfl, rfl, by decide, by decide, fun d e hd he => ?_, by decide, by decide⟩, by decide, by decide, by decide,
    fun j hj => ?_⟩, by decide⟩
  · cases Option.some.inj (hd.symm.trans (rfl : _ = some Dir.up))
    cases Option.some.inj (he.symm.trans (rfl : _ = some (5000 : Int)))
    decide
  · cases Option.some.inj (hj.symm.trans (rfl : _ = some ({ direction := .up, lease := 300 } : JogRecord)))
    decide

/-- A spread of exactly 2 mm, with a record, with a pending release, with a mover, and with nothing. -/
theorem test_met_StandstillEndsStopping :
    let x := { rigChannel with state := .stopping, history := [5001, 5002, 9] }
    let lane := { x with mover := .group 0 }
    let p := (((((rig .armed).setChan 3 x).setChan 4 { x with fault := some (rigFault .stall) }).setChan 5 { x with
      pendingRelease := some { direction := .up, demand := 40 }, mover := .jog .a }).setChan 0 lane).setChan 1 lane
    let p := p.modGroup 0 fun g => { g with state := .stopping }
    ∀ c ∈ ([3, 4, 5, 0] : List Chan),
      p.ctl.held = false ∧ p.hasChan c = true ∧ (p.chan c).kind ≠ .absent ∧ (p.chan c).state = .stopping
      ∧ (p.chan c).history.take 2 = [5001, 5002]
      ∧ max (quiet 5000).raw (max 5001 5002) - min (quiet 5000).raw (min 5001 5002) ≤ 2
      ∧ 100 * min (quiet 5000).load 9999 ≤ (p.chan c).config.wll * (p.chan c).config.overloadPct
      ∧ (p.chan c).config.underload ≤ min (quiet 5000).load 9999 ∧ (p.chan c).direction = none
      ∧ (p.chan c).confirmMark = none ∧ (p.chan c).jog = none ∧ (p.chan c).watchBaseline = none
      ∧ (p.chan c).progressTimer = .stopped ∧ p.Awaited c := by decide

/-- A load at a record's distance and beyond the band, in PARKED, with the wake enable of the source on and off. -/
theorem test_met_LoadWatchJudgesTheBaseline :
    let p := (rig .parked).setChan 3 { rigChannel with watchBaseline := some 400 }
    let q := (rig .parked).setChan 3 { rigChannel with watchBaseline := some 450 }
    p.ctl.held = false ∧ p.hasChan 3 = true ∧ (p.chan 3).kind ≠ .absent ∧ (p.chan 3).watchBaseline = some 400
      ∧ (p.chan 3).config.watchBand < ((min (quiet 5000).load 9999 : Nat) - (400 : Int)).natAbs
      ∧ ¬(q.chan 3).config.watchBand < ((min (quiet 5000).load 9999 : Nat) - (450 : Int)).natAbs
      ∧ (p.chan 3).state = .idle ∧ (p.chan 3).direction = none ∧ (p.chan 3).mover = .none ∧ (p.chan 3).jog = none
      ∧ p.ctl.mode = .parked ∧ p.ctl.wakes.loadWatch = true ∧ (p.link .a).reports.loadWatch = true
      ∧ (p.modCtl fun m => { m with wakes := enablesOf 0 }).ctl.wakes.loadWatch = false := by decide

theorem test_met_SampleFaultAtRestIsRecorded :
    (rig .armed).ctl.held = false ∧ (rig .armed).hasChan 3 = true ∧ ((rig .armed).chan 3).kind ≠ .absent
      ∧ ((rig .armed).chan 3).mover = .none ∧ ((rig .armed).chan 3).jog = none ∧ ((rig .armed).chan 3).state = .idle
      ∧ ((rig .armed).chan 3).fault = none ∧ ((rig .armed).chan 3).holdsFault .finalLimit = false
      ∧ ((rig .armed).chan 3).config.wll * ((rig .armed).chan 3).config.overloadPct < 100 * min 1251 9999 := by decide

/-- 21 mm from rest, without a mover and on a lane of a RUNNING group. -/
theorem test_met_RunawayAtRestHalts :
    (rig .armed).ctl.held = false ∧ (rig .armed).hasChan 3 = true ∧ ((rig .armed).chan 3).kind ≠ .absent
      ∧ ((rig .armed).chan 3).state = .idle ∧ ((rig .armed).chan 3).settling = false ∧ ((rig .armed).chan 3).jog = none
      ∧ 20 < ((quiet 5021).raw - ((rig .armed).chan 3).rest).natAbs ∧ ((rig .armed).chan 3).holdsFault .runaway = false
      ∧ (rig .armed).ctl.mode = .armed ∧ (rig .armed).ctl.silenceDisarm = false
      ∧ (let p := moving .running .holding (rigMove [rigArrived])
         (p.chan 2).mover = .group 1 ∧ (p.chan 2).state = .holding ∧ p.Awaited 2) := by decide

/-- A jog and a lane of a group: slack, 10 mm against the direction, and without progress. -/
theorem test_met_RunningChannelFaultsAreDetected :
    (let p := (jogging .moving).modChan 3 fun x =>
       { x with reversalExtreme := some 5010, progressMark := some 5000, progressTimer := .expired }
     p.ctl.held = false ∧ p.hasChan 3 = true ∧ (p.chan 3).kind ≠ .absent ∧ (p.chan 3).state = .moving
       ∧ (p.chan 3).direction = some .up ∧ min 19 9999 < (p.chan 3).config.underload ∧ gain .up 5010 5000 ≤ -10
       ∧ gain .up 5000 5002 < 3 ∧ (p.chan 3).fault = none ∧ (p.chan 3).mover = .jog .a)
    ∧ ((jogging .moving).chan 3).JogsOn (quiet 5000)
    ∧ (let p := moving .running .moving (rigMove [rigLane 5100])
       (p.chan 2).mover = .group 1 ∧ (p.group 1).state ≠ .stopping ∧ (p.group 1).active = true ∧ (p.chan 2).jog = none
         ∧ (p.chan 2).direction = some .up) := by
  refine ⟨by decide, fun j hj => ?_, by decide⟩
  cases Option.some.inj (hj.symm.trans (rfl : _ = some ({ direction := .up, lease := 300 } : JogRecord)))
  decide

/-- A jog in each state that moves, and one that comes to rest with 3 mm between its last counts; a lane of a running group that
holds, and one of a group that is STOPPING for a request; 1250 kg and 1251 kg on a channel for 1000 kg. -/
theorem test_met_MovedChannelFaultsAreDetected :
    (∀ state ∈ [ChannelState.starting, .moving, .stopping],
      let p := jogging state
      p.ctl.held = false ∧ p.hasChan 3 = true ∧ (p.chan 3).kind ≠ .absent ∧ (p.chan 3).state = state
        ∧ (p.chan 3).mover = .jog .a ∧ state ≠ .holding ∧ (p.chan 3).fault = none
        ∧ (p.chan 3).holdsFault .finalLimit = false ∧ p.ctl.mode ≠ .halted
        ∧ (p.chan 3).history.take 2 = [5000, 5000] ∧ ¬max (5003 : Int) (max 5000 5000) - min 5003 (min 5000 5000) ≤ 2)
    ∧ (let p := moving .running .holding (rigMove [rigArrived])
       p.hasChan 2 = true ∧ (p.chan 2).state = .holding ∧ (p.chan 2).mover = .group 1 ∧ (p.chan 2).jog = none
         ∧ (∃ ln ∈ (p.group 1).lanes, ln.channel = 2) ∧ (p.group 1).move = some (rigMove [rigArrived])
         ∧ (p.group 1).active = true ∧ (p.group 1).state ≠ .stopping)
    ∧ (let m := { rigMove [rigLane 5100] with reason := some .request }
       let p := moving .stopping .stopping m
       (p.chan 2).state = .stopping ∧ (p.group 1).state = .stopping ∧ p.Underway 1 ∧ (p.group 1).move = some m
         ∧ m.reason ≠ some .fault)
    ∧ (let x := (jogging .moving).chan 3
       ¬x.config.wll * x.config.overloadPct < 100 * min 1250 9999 ∧ x.config.wll * x.config.overloadPct < 100 * min 1251 9999) := by
  decide

/-- A jog that meets its final limit stops and halts the device; a holding lane that is overloaded stops its group. -/
theorem test_faults_of_moved_channels :
    (let q := after (.feedbackArrival 3 { quiet 5000 with upperOpen := true }) (jogging .moving)
     (q.chan 3).state = .stopping ∧ (q.chan 3).mover = .none ∧ q.ctl.mode = .halted ∧ (q.chan 3).holdsFault .finalLimit = true)
    ∧ (let q := after (.feedbackArrival 2 { quiet 5000 with load := 1251 }) (moving .running .holding (rigMove [rigArrived]))
       (q.chan 2).state = .stopping ∧ (q.group 1).state = .stopping
         ∧ (q.group 1).fault = some (.memberFault 2 .overload)) := by decide

/-- 3 mm and 2 mm of progress, on a lane of a group. -/
theorem test_met_ProgressMovesTheMark :
    let p := (moving .running .moving (rigMove [rigLane 5100])).modChan 2 fun x =>
      { x with progressMark := some 5000, progressTimer := .running 7 }
    p.ctl.held = false ∧ p.hasChan 2 = true ∧ (p.chan 2).kind ≠ .absent ∧ (p.chan 2).state = .moving
      ∧ (p.chan 2).direction = some .up ∧ (p.chan 2).progressMark = some 5000 ∧ (p.chan 2).progressTimer = .running 7
      ∧ (p.chan 2).Calm (quiet 5003) ∧ (p.chan 2).JogsOn (quiet 5003) ∧ 3 ≤ gain .up 5000 5003 ∧ gain .up 5000 5002 < 3
      ∧ (p.chan 2).mover = .group 1 ∧ (p.group 1).state ≠ .stopping :=
  ⟨by decide, by decide, by decide, by decide, by decide, by decide, by decide,
    ⟨rfl, rfl, rfl, by decide, by decide, fun _ e _ he => absurd (he.symm.trans rfl) (Option.some_ne_none e), by decide,
      by decide⟩,
    fun j hj => absurd (hj.symm.trans rfl) (Option.some_ne_none j), by decide, by decide, by decide, by decide⟩

/-- The four expiries, on channels at rest, on a jog, and on a lane of a group. -/
theorem test_met_TimerExpiriesDetectFaults :
    let out := fun (c : Chan) (x : Channel) => ((rig .armed).setChan c x).chan c
    let lane := (moving .running .moving (rigMove [rigLane 5100])).modPort 2 fun x => { x with feedbackTimer := some 0 }
    (((rig .armed).modPort 3 fun x => { x with feedbackTimer := some 0 }).port 3).feedbackTimer = some 0
      ∧ ((rig .armed).chan 3).kind ≠ .absent
      ∧ (out 3 { (jogging .starting).chan 3 with confirmTimer := some 0 }).confirmTimer = some 0
      ∧ ((jogging .starting).chan 3).mover = .jog .a
      ∧ (out 3 { rigChannel with state := .stopping, standstillTimer := some 0 }).standstillTimer = some 0
      ∧ (out 3 { rigChannel with settling := true, settleTimer := some 0 }).settleTimer = some 0
      ∧ (lane.chan 2).mover = .group 1 ∧ (lane.group 1).active = true ∧ (lane.port 2).feedbackTimer = some 0 := by decide

theorem test_met_HarmlessExpiries :
    (let p := Part.reset.modPort 3 fun x => { x with feedbackTimer := some 0 }
     p.ctl.held = false ∧ (p.chan 3).kind = .absent ∧ (p.port 3).feedbackTimer = some 0)
      ∧ (((rig .armed).modChan 3 fun x => { x with progressTimer := .running 0 }).chan 3).progressTimer = .running 0 := by
  decide

/-- A watchdog that a frame has restarted, a lease that has 300 ms left, and a power-good timer that does not run. -/
theorem test_met_ExpiryOutOfTimeChangesNothing :
    (Instr.watchdogExpiry .a).isExpiry = true ∧ (Instr.jogLeaseExpiry 3).isExpiry = true
      ∧ Instr.powerGoodTimerExpiry.isExpiry = true
      ∧ (((rig .armed).modLink .a fun x => { x with watchdog := { period := 100, state := .running, timer := some 100 } }).link
          .a).watchdog.timer ≠ some 0
      ∧ ((jogging .moving).chan 3).jog.map (·.lease) ≠ some 0 ∧ (rig .armed).ctl.powerGoodTimer ≠ some 0 := by decide

/-! ### Groups: premises met -/

/-- Ratios 7 and 8, each sign. -/
theorem test_met_LaneTravelFollowsSignAndRatio :
    (⟨0, .follow, 8⟩ : Lane).travel 60000 = 0 ∧ (⟨0, .hold, 0⟩ : Lane).travel 60000 = 0
      ∧ (⟨0, .follow, 7⟩ : Lane).travel (-60000) = -468 ∧ (⟨0, .oppose, 7⟩ : Lane).travel (-60000) = 468 := by decide

/-- The least and the largest parameters, for an EMPTY and an IDLE group. -/
theorem test_met_DefineAndDeleteGroupWriteTheDefinition :
    (rig .standby).Ready .a ∧ (rig .standby).Prepared ∧ ((rig .standby).queue 0).cues = []
      ∧ ((rig .standby).group 0).boundTrack = none ∧ ((rig .standby).group 0).state = .idle
      ∧ ((rig .standby).group 7).state = .empty ∧ ((rig .standby).queue 7).cues = []
      ∧ ((rig .standby).group 7).boundTrack = none ∧ (rig .standby).LegalLanes rigLanes
      ∧ (10 ≤ 10 ∧ 2 * 10 ≤ 20 ∧ 2 * 250 ≤ 1000) :=
  ⟨by decide, by decide, by decide, by decide, by decide, by decide, by decide, by decide,
    ⟨by decide, by decide, by decide, fun ln h => by cases Option.some.inj h; decide, by decide⟩, by decide⟩

theorem test_met_GoFiresTheHeadCue :
    let p := (rig .armed).modQueue 1 fun x => { x with cues := [rigCue .onGo, { rigCue .onGo with number := 2 }] }
    p.Ready .a ∧ (p.group 1).state = .idle ∧ (p.queue 1).cues = rigCue .onGo :: [{ rigCue .onGo with number := 2 }]
      ∧ p.Admits 1 (p.effectiveTier .a 0) .a (p.cueTargets 1 (rigCue .onGo))
      ∧ p.Travels 1 (p.cueTargets 1 (rigCue .onGo)) :=
  ⟨by decide, by decide, by decide, ⟨rfl, rfl, rfl, rfl, by decide, by decide, by decide, by decide⟩, by decide⟩

theorem test_met_GoRefiresTheHeldMove :
    let p := (rig .armed).modGroup 1 fun x => { x with state := .held, held := true, move := some (rigMove [rigLane 5050]) }
    p.Ready .a ∧ (p.group 1).state = .held ∧ (p.group 1).move = some (rigMove [rigLane 5050])
      ∧ (rigMove [rigLane 5050]).speed = some 40
      ∧ p.Admits 1 (p.effectiveTier .a 0) .a ((rigMove [rigLane 5050]).lanes.map (·.target))
      ∧ p.Travels 1 ((rigMove [rigLane 5050]).lanes.map (·.target)) :=
  ⟨by decide, by decide, by decide, by decide, ⟨rfl, rfl, rfl, rfl, by decide, by decide, by decide, by decide⟩, by decide⟩

/-- A cue of 3 mm travels nowhere, and so does a held move whose lane has come within 5 mm of its target; the head behind it
dwells. -/
theorem test_met_GoWithNothingToTravelCompletes :
    let x := { rigCue .onGo with form := .relative 3 }
    let y := { rigCue (.afterPrevious 500) with number := 2 }
    (let p := (rig .armed).modQueue 1 fun q => { q with cues := [x, y] }
     p.Ready .a ∧ (p.group 1).state = .idle ∧ (p.queue 1).cues = [x, y]
      ∧ p.Admits 1 (p.effectiveTier .a 0) .a (p.cueTargets 1 x) ∧ ¬p.Travels 1 (p.cueTargets 1 x)
      ∧ (p.setQueue 1 ((p.queue 1).rest false)).HeadWaits 1
      ∧ (p.setQueue 1 ((p.queue 1).rest false)).queueOnCompletion 1
          = { cues := [y], blocked := false, arming := .dwelling, dwellTimer := some 500 })
    ∧ (let p := ((rig .armed).modGroup 1 fun z =>
         { z with state := .held, held := true, move := some (rigMove [rigLane 5005]) }).modQueue 1 fun q =>
         { q with cues := [y], blocked := true }
       p.Ready .a ∧ (p.group 1).state = .held ∧ (p.group 1).move = some (rigMove [rigLane 5005])
        ∧ (rigMove [rigLane 5005]).source = .cue 1
        ∧ p.Admits 1 (p.effectiveTier .a 0) .a ((rigMove [rigLane 5005]).lanes.map (·.target))
        ∧ ¬p.Travels 1 ((rigMove [rigLane 5005]).lanes.map (·.target))
        ∧ (p.setQueue 1 { p.queue 1 with blocked := false }).HeadWaits 1
        ∧ (p.setQueue 1 { p.queue 1 with blocked := false }).queueOnCompletion 1
            = { cues := [y], blocked := false, arming := .dwelling, dwellTimer := some 500 }) :=
  ⟨⟨by decide, by decide, by decide, ⟨rfl, rfl, rfl, rfl, by decide, by decide, by decide, by decide⟩, by decide,
    fun _ x h => by cases Option.some.inj h; exact ⟨by decide, fun _ h => nomatch h⟩, by decide⟩,
    ⟨by decide, by decide, by decide, by decide, ⟨rfl, rfl, rfl, rfl, by decide, by decide, by decide, by decide⟩, by decide,
      fun _ x h => by cases Option.some.inj h; exact ⟨by decide, fun _ h => nomatch h⟩, by decide⟩⟩

/-- Each check in turn: STANDBY; a guarded, a foreign and an unreferenced second lane; a group that moves, one without a cue, a
bound one; a second lane whose channel holds; and a second lane that a target takes beyond the soft limit. -/
theorem test_met_GoRefusals :
    let cued := fun p : Part => p.modQueue 0 fun x => { x with cues := [rigCue .onGo] }
    let second := fun x : Channel => cued ((rig .armed).setChan 1 x)
    (rig .armed).Ready .a ∧ (rig .standby).ctl.mode ≠ .armed
      ∧ (second { rigChannel with config.guardTier := 0 }).FirstLane 0 1 (fun x => ¬x.Lets 1)
      ∧ (second { rigChannel with owner := none }).FirstLane 0 1 (fun x => x.owner ≠ some .a)
      ∧ (second { rigChannel with referenced := false }).FirstLane 0 1 (fun x => x.referenced = false)
      ∧ (rig .armed).LanesAllow 0 7 .a ∧ ((moving .running .moving (rigMove [rigLane 5100])).group 1).state ≠ .idle
      ∧ ((rig .armed).group 0).state = .idle ∧ ((rig .armed).queue 0).cues = []
      ∧ ((tracked .loaded []).group 0).boundTrack.isSome = true
      ∧ (second { rigChannel with state := .holding }).FirstLane 0 1 (fun x => x.state ≠ .idle ∨ x.mover ≠ .none)
      ∧ (let p := second { rigChannel with config.softLower := 4976 }
         (p.queue 0).cues.head? = some (rigCue .onGo)
           ∧ ((p.group 0).lanes.zip (p.cueTargets 0 (rigCue .onGo)))[1]? = some (⟨1, .oppose, 1⟩, 4975)
           ∧ (p.chan 1).Bars 4975 ∧ ¬(p.chan 0).Bars 5050) := by
  have first : ∀ (p : Part) (bad : Channel → Prop), (p.group 0).lanes = rigLanes → bad (p.chan 1) → ¬bad (p.chan 0) →
      p.FirstLane 0 1 bad := fun p bad hl h1 h0 =>
    ⟨⟨⟨1, .oppose, 1⟩, by rw [hl]; rfl, h1⟩, fun k ln hk hln => by
      obtain rfl : k = 0 := by omega
      rw [hl] at hln
      cases Option.some.inj hln
      exact h0⟩
  exact ⟨by decide, by decide, first _ _ (by decide) (by decide) (by decide), first _ _ (by decide) (by decide) (by decide),
    first _ _ (by decide) (by decide) (by decide), by decide, by decide, by decide, by decide, by decide,
    first _ _ (by decide) (by decide) (by decide), by decide⟩

theorem test_met_StopStopsAMovingGroup :
    let p := moving .preparing .starting (rigMove [rigLane 5100])
    p.Ready .a ∧ (p.group 1).state = .preparing ∧ (p.group 1).move = some (rigMove [rigLane 5100]) ∧ p.Underway 1
      ∧ ((moving .running .moving (rigMove [rigLane 5100])).group 1).state = .running := by decide

/-- All groups, none by name, and an IDLE one with an armed head. -/
theorem test_met_StopReachesEveryNamedGroup :
    (rig .armed).Ready .a ∧ allGroups.Nodup ∧ allGroups.length = 8 ∧ ([] : List Grp).Nodup ∧ ((rig .armed).group 1).state = .idle
      ∧ (((rig .armed).modQueue 1 fun q => { q with cues := [rigCue (.atMark 5)], arming := .awaitingMark }).queue 1).arming
        ≠ .none := by decide

/-- A group that does not exist, PARKED, a guarded lane, one of the other link's, and a group that moves. -/
theorem test_met_CancelAndFlushRefusals :
    (rig .armed).Ready .a ∧ 7 < (8 : Byte).toNat ∧ ¬(rig .parked).Prepared
      ∧ ((rig .armed).setChan 2 { rigChannel with config.guardTier := 0 }).FirstLane 1 0 (fun x => ¬x.Lets 1)
      ∧ ((rig .armed).setChan 2 { rigChannel with owner := some .b }).FirstLane 1 0 (fun x => x.owner = some Link.a.other)
      ∧ (let p := moving .running .moving (rigMove [rigLane 5100])
         (∀ ln ∈ (p.group 1).lanes, (p.chan ln.channel).Lets 0 ∧ (p.chan ln.channel).owner ≠ some Link.a.other)
           ∧ (p.group 1).state = .running) := by
  have first : ∀ (p : Part) (bad : Channel → Prop), (p.group 1).lanes = [⟨2, .follow, 0⟩] → bad (p.chan 2) →
      p.FirstLane 1 0 bad := fun p bad hl h => ⟨⟨⟨2, .follow, 0⟩, by rw [hl]; rfl, h⟩, fun k ln hk => absurd hk (by omega)⟩
  exact ⟨by decide, by decide, by decide, first _ _ (by decide) (by decide), first _ _ (by decide) (by decide), by decide⟩

theorem test_met_CancelAndFlushTakeTheirMatter :
    let p := (rig .armed).modGroup 1 fun x => { x with state := .held, held := true, move := some (rigMove [rigLane 5050]) }
    p.Ready .a ∧ (p.group 1).state = .held ∧ p.Prepared ∧ (p.group 7).state = .empty ∧ (p.group 0).state = .idle
      ∧ ∀ ln ∈ (p.group 1).lanes,
        (p.chan ln.channel).Lets (p.effectiveTier .a 0) ∧ (p.chan ln.channel).owner ≠ some Link.a.other := by decide

theorem test_met_ClearFaultClearsTheGroup :
    (let m := { rigMove [rigLane 5050] with reason := some .fault }
     let p := (rig .armed).modGroup 1 fun x => { x with state := .faulted, fault := some (.syncLost 0), move := some m }
     p.Ready .a ∧ (p.group 1).state = .faulted ∧ (p.group 1).move = some m ∧ m.source = .cue 1
       ∧ ∀ ln ∈ (p.group 1).lanes, (p.chan ln.channel).Lets (p.effectiveTier .a 0)
          ∧ (p.chan ln.channel).owner ≠ some Link.a.other ∧ (p.chan ln.channel).fault = none)
    ∧ (let m := { rigMove [rigLane 5050] with source := .track 1 }
       let p := (rig .armed).modGroup 1 fun x => { x with state := .faulted, move := some m }
       (p.group 1).move = some m ∧ m.source = .track 1 ∧ (p.queue 1).cues = []) := by decide

/-- A lane of no travel, the laggard itself, and two lanes of which one leads by 25 mm. -/
theorem test_met_LeadIsTheTravelBeyondTheLaggard :
    let a : Progress := { index := 0, record := rigLane 5100, done := 50 }
    let b : Progress := { index := 1, record := rigLane 4800, done := 50 }
    a.record.travel ≠ 0 ∧ a.index ≠ b.index ∧ a.lead (some b) = 25 ∧ a.lead (some { b with done := -30 }) = 50
      ∧ a.lead (some { b with done := 230 }) = -50 ∧ a.lead none = -50 ∧ (rigLane 5000).travel = 0 := by decide

/-- Two lanes at a half and a quarter of their travel, of which the second is the laggard, and a list without one. -/
theorem test_met_LaggardHasTheSmallestFraction :
    let a : Progress := { index := 0, record := rigLane 5100, done := 50 }
    let b : Progress := { index := 1, record := rigLane 4800, done := 50 }
    laggard [a, b] = some b ∧ laggard [{ a with done := 25 }, b] = some { a with done := 25 }
      ∧ laggard [{ a with record := rigArrived }] = none ∧ b.done * 100 < a.done * 200 := by decide

theorem test_met_ControlPeriodStartsRunning :
    let p := moving .preparing .starting (rigMove [rigLane 5100])
    p.ctl.held = false ∧ (p.group 1).controlTimer = some 0 ∧ (p.group 1).state = .preparing
      ∧ (p.group 1).move = some (rigMove [rigLane 5100]) ∧ p.Level 1 (rigMove [rigLane 5100]) (·.start)
      ∧ (∀ r ∈ (rigMove [rigLane 5100]).lanes, r.state = .driving ∧ r.confirmed = true
          ∧ r.travel = r.target - r.start ∧ 5 < r.travel.natAbs) ∧ (rigMove [rigLane 5100]).lanes ≠ [] := by decide

/-- A lane 5 mm from its target. -/
theorem test_met_ControlPeriodTakesArrivals :
    let r := { rigLane 5005 with start := 4900, travel := 105 }
    let p := moving .running .moving (rigMove [r])
    p.ctl.held = false ∧ (p.group 1).controlTimer = some 0 ∧ (p.group 1).state = .running
      ∧ (p.group 1).lanes = [⟨2, .follow, 0⟩] ∧ (p.group 1).move = some (rigMove [r]) ∧ r.state = .driving ∧ r.travel ≠ 0
      ∧ (p.chan 2).load = r.baseline ∧ ¬r.travel < 0 ∧ r.target - (p.chan 2).pos ≤ 5 ∧ (p.chan 2).state = .moving := by
  decide

/-- G0 with lane 0 at its start, the laggard, and lane 1 a number of millimetres on its way down, in a lane state, on a channel
of a kind in a state. -/
def leading (done : Int) (lane : LaneState) (kind : ChannelKind) (state : ChannelState) : Part :=
  let trailing := { rigMoving state with
    mover := .group 0, kind := kind, direction := if state = .moving then some .down else none }
  let lanes := [rigLane 5100, { rigLane 4900 with
    start := 5000 + done, target := 4900 + done, state := lane, demand := 20, full := 20 }]
  (((rig .armed).setChan 0 { rigMoving .moving with mover := .group 0 }).setChan 1 trailing).modGroup 0 fun x =>
    { x with state := .running, controlTimer := some 0, move := some (rigMove lanes) }

/-- A lane that leads by 51 mm is held, on either kind of channel; one that leads by 25 mm resumes, from HOLDING, MOVING and
STOPPING; and in between nothing changes. -/
theorem test_met_ControlPeriodTrims :
    let p := leading 51 .driving .variableSpeed .moving
    let leads := fun p : Part => (p.group 0).move.bind fun m => (p.leads 0 m)[1]?
    let m := rigMove [rigLane 5100, { rigLane 4900 with start := 5051, target := 4951, demand := 20, full := 20 }]
    p.ctl.held = false ∧ (p.group 0).controlTimer = some 0 ∧ (p.group 0).active = true ∧ (p.group 0).move = some m
      ∧ m.lanes.length = (p.group 0).lanes.length ∧ ((p.group 0).lanes.map (·.channel)).Nodup
      ∧ (p.group 0).lanes[1]? = some ⟨1, .oppose, 1⟩ ∧ p.Steady 0 m ∧ 5 < (p.chan 1).pos - 4951
      ∧ (p.chan 1).state = .moving ∧ (p.chan 1).direction = some .down ∧ (p.chan 1).mover = .group 0
      ∧ (p.chan 1).fault = none ∧ (p.group 0).syncWindow = 50
      ∧ leads p = some 51 ∧ leads (leading 51 .driving .fixedSpeed .moving) = some 51
      ∧ leads (leading 25 .trimmed .variableSpeed .holding) = some 25
      ∧ leads (leading 25 .trimmed .fixedSpeed .stopping) = some 25
      ∧ leads (leading 50 .driving .variableSpeed .moving) = some 50
      ∧ leads (leading 26 .trimmed .variableSpeed .moving) = some 26 := by decide

theorem test_met_LeadsAreOfTheTravelledDistances :
    let p := leading 51 .driving .variableSpeed .moving
    (p.group 0).lanes[1]? = some ⟨1, .oppose, 1⟩
      ∧ ((p.group 0).move.bind fun m => m.lanes[1]?).map (·.travel) = some (-100) := by decide

/-- Lane 0 short of its target, lane 1 4 mm from its own and 96 mm ahead, of which lane 0 is confirmed or not. -/
theorem test_met_SteadyPeriodConfirmsAndArrives :
    ∀ confirmed ∈ [true, false],
      let r := { rigLane 4900 with start := 5096, target := 4996, demand := 20, full := 20 }
      let m := rigMove [{ rigLane 5100 with confirmed := confirmed }, r]
      let p := (leading 96 .driving .variableSpeed .moving).modGroup 0 fun x =>
        { x with state := .preparing, move := some m }
      p.ctl.held = false ∧ (p.group 0).controlTimer = some 0 ∧ (p.group 0).active = true ∧ (p.group 0).move = some m
        ∧ m.lanes.length = (p.group 0).lanes.length ∧ ((p.group 0).lanes.map (·.channel)).Nodup ∧ p.Steady 0 m
        ∧ p.Unfinished 0 m ∧ (p.group 0).lanes[1]? = some ⟨1, .oppose, 1⟩ ∧ (p.leads 0 m)[1]? = some 96
        ∧ r.state = .driving ∧ r.remaining (p.chan 1).pos = 4 ∧ (p.chan 1).state = .moving := by decide

/-- An entry that arrived 3 mm short of its target. -/
def rigShort : LaneRecord := { rigArrived with target := 5003, travel := 53 }

/-- A cue move at rest on its target and 3 mm short of it, RUNNING and PREPARING; a track move of a track that goes on, of one that
closes and awaits another group, and of one that awaits no other. -/
theorem test_met_ControlPeriodEndsTheMove :
    (∀ r ∈ [rigArrived, rigShort], ∀ state ∈ [GroupState.running, .preparing],
      let p := moving state .holding (rigMove [r])
      p.ctl.held = false ∧ (p.group 1).controlTimer = some 0 ∧ (p.group 1).active = true ∧ p.Landed 1 (rigMove [r])
        ∧ p.ctl.mode ≠ .parked ∧ p.ctl.silenceDisarm = false ∧ (rigMove [r]).source = .cue 1)
    ∧ ∀ closing ∈ [true, false], ∀ play ∈ [[1], [1, 2]],
      let m := { rigMove [rigShort] with source := .track 1 }
      let p := (moving .running .holding m).modTrack 1 fun x => { x with playing := play, closing := closing }
      p.Landed 1 m ∧ m.source = .track 1 ∧ 1 ∈ (p.track 1).playing ∧ (p.track 1).closing = closing
        ∧ ((∃ h ∈ (p.track 1).playing, h ≠ 1 ∧ h ∉ (p.track 1).arrived) ↔ play = [1, 2])
        ∧ (((p.track 1).playing.flatMap fun h => (p.group h).lanes).map (·.channel)).Nodup := by
  refine ⟨fun r hr state hs => ?_, fun closing hc play hp => ?_⟩
  · fin_cases hr <;> fin_cases hs <;>
      exact ⟨by decide, by decide, by decide, ⟨rfl, rfl, by decide, by decide, by decide, by decide⟩, by decide, by decide, rfl⟩
  · fin_cases hc <;> fin_cases hp <;>
      exact ⟨⟨rfl, rfl, by decide, by decide, by decide, by decide⟩, rfl, by decide, by decide, by decide, by decide⟩

/-- The last group that a closing track awaits ends its play by its report. -/
theorem test_last_report_ends_the_play :
    let p := after (.controlPeriod 0) closingPlay
    (p.track 0).state = .empty ∧ (p.track 0).origins[(0 : Grp)] = none ∧ (p.group 0).state = .idle
      ∧ p.codes.tracks[(0 : Trk)] = some .trackEnded := by decide

/-- An AT_MARK head before a STOPPED clock waits. -/
theorem test_met_HeadWaits :
    let p := arrivedMove.modQueue 1 fun q => { q with cues := [rigCue (.atMark 0)] }
    p.HeadWaits 1 ∧ (p.queueOnCompletion 1).arming = .awaitingMark :=
  ⟨fun _ x h => by cases Option.some.inj h; exact ⟨by decide, fun _ _ h => nomatch h⟩, by decide⟩

/-- A head with a dwell of 0, and one met within and after the late grace of 0 ms. -/
theorem test_met_CompletionJudgesTheHeadBehind :
    let x := rigCue (.afterPrevious 0)
    let p := (moving .running .holding (rigMove [rigShort])).modQueue 1 fun q => { q with cues := [x] }
    let r := p.completeCue 1 1
    p.Landed 1 (rigMove [rigShort]) ∧ p.Armable 1 ∧ (p.queue 1).cues = [x]
      ∧ r.Admits 1 x.tier x.origin (r.cueTargets 1 x) ∧ r.Travels 1 (r.cueTargets 1 x)
      ∧ (let q := { p with clock := { value := 7, running := true } }
         7 ≤ q.clock.value ∧ q.clock.value ≤ 7 + (q.group 1).lateGrace ∧ 6 + (q.group 1).lateGrace < q.clock.value)
      ∧ ((p.modCtl fun m => { m with mode := .standby }).completeCue 1 1).ctl.mode ≠ .armed :=
  ⟨⟨rfl, rfl, by decide, by decide, by decide, by decide⟩, by decide, by decide,
    ⟨rfl, rfl, rfl, rfl, by decide, by decide, by decide, by decide⟩, by decide, by decide, by decide⟩

theorem test_met_GroupFaultNamesTheLane :
    (GroupFault.trackLag 0, FaultKind.trackLag)
        ∈ [(GroupFault.syncLost 0, FaultKind.syncLost), (.loadShift 0, .loadShift), (.trackLag 0, .trackLag)] ∧
    let p := moving .running .moving (rigMove [rigLane 5100])
    (p.group 1).lanes[0]? = some ⟨2, .follow, 0⟩ ∧ (p.group 1).move = some (rigMove [rigLane 5100])
      ∧ (p.chan 2).kind ≠ .absent ∧ (p.chan 2).mover = .group 1 ∧ (p.chan 2).state = .moving ∧ (p.chan 2).fault = none := by
  decide

/-- A lane that leads by 201 mm, and one whose load is 146 kg below its baseline, in RUNNING. -/
theorem test_met_ControlPeriodRaisesGroupFaults :
    (let p := leading 201 .driving .variableSpeed .moving
     p.ctl.held = false ∧ (p.group 0).controlTimer = some 0 ∧ (p.group 0).active = true
       ∧ (p.group 0).lanes[1]? = some ⟨1, .oppose, 1⟩ ∧ (p.chan 1).kind ≠ .absent ∧ (p.chan 1).mover = .group 0
       ∧ (p.chan 1).state = .moving ∧ (p.chan 1).fault = none
       ∧ ((p.group 0).move.map fun m => p.leads 0 m) = some [0, 201] ∧ (p.group 0).levelLimit = 200)
    ∧ (let p := (leading 0 .driving .variableSpeed .moving).modChan 1 fun x => { x with load := 354 }
       (∀ m, (p.group 0).move = some m → ∀ x ∈ p.leads 0 m, x ≤ 200) ∧ (p.group 0).state = .running
         ∧ loadShifted (p.group 0).loadTolerance 500 (p.chan 1).load = true
         ∧ loadShifted (p.group 0).loadTolerance 500 (p.chan 0).load = false) := by
  refine ⟨by decide, fun m hm => ?_, by decide⟩
  cases Option.some.inj hm
  decide

/-- A group leaves a track alone, or with another group that has arrived or not, of a track that closes or goes on. -/
theorem test_met_LeavesPlay :
    ∀ closing ∈ [true, false], ∀ play ∈ [[1], [1, 2]], ∀ arrived ∈ [[], [2]],
      let p := (tracked .playing []).modTrack 0 fun x => { x with playing := play, arrived := arrived, closing := closing }
      let x := (p.track 0).leftBy 1
      1 ∈ (p.track 0).playing ∧ x.state = .playing ∧ x.closing = closing ∧ (x.playing = [] ↔ play = [1])
        ∧ ((∃ h ∈ x.playing, h ∉ x.arrived) ↔ play = [1, 2] ∧ arrived = []) := by decide

/-- The stop reasons in turn, of a cue move and of a track move. -/
theorem test_met_GroupLeavesStoppingByItsReason :
    ∀ source ∈ [MoveSource.cue 1, .track 1], ∀ r ∈ [StopReason.complete, .request, .fault, .halt, .silence],
      let m := { rigMove [rigLane 5100] with reason := some r, source := source }
      let p := (moving .stopping .holding m).modGroup 1 fun x => { x with fault := some (.loadShift 0) }
      (p.group 1).state = .stopping ∧ (p.group 1).move = some m ∧ m.source = source ∧ (p.queue 1).cues = []
        ∧ (p.group 1).fault = some (.loadShift 0)
        ∧ ∀ ln ∈ (p.group 1).lanes, (p.chan ln.channel).state = .holding ∨ (p.chan ln.channel).state = .faulted := by decide

/-- The last channel of a STOPPING group at a standstill, with a fault record and without. -/
theorem test_met_LastStandstillEndsTheMove :
    ∀ fault ∈ [none, some (rigFault .stall)], ∀ r ∈ [StopReason.complete, .request, .fault],
      let m := { rigMove [rigLane 5100] with reason := some r }
      let p := (moving .stopping .stopping m).modChan 2 fun x => { x with history := [5001, 5002, 9], fault := fault }
      p.ctl.held = false ∧ p.hasChan 2 = true ∧ (p.chan 2).kind ≠ .absent ∧ (p.chan 2).state = .stopping
        ∧ (p.chan 2).history.take 2 = [5001, 5002]
        ∧ max (quiet 5000).raw (max 5001 5002) - min (quiet 5000).raw (min 5001 5002) ≤ 2
        ∧ 100 * min (quiet 5000).load 9999 ≤ (p.chan 2).config.wll * (p.chan 2).config.overloadPct
        ∧ (p.chan 2).direction = none ∧ (p.chan 2).jog = none ∧ (p.chan 2).watchBaseline = none
        ∧ (p.chan 2).progressTimer = .stopped ∧ (p.chan 2).mover = .group 1 ∧ (p.chan 2).pendingRelease = none
        ∧ (p.group 1).state = .stopping ∧ (p.group 1).move = some m ∧ (p.group 1).lanes = [⟨2, .follow, 0⟩]
        ∧ (p.queue 1).cues = [] := by decide

/-! ### Cues: premises met -/

/-- A cue that is not armed, and one that waits for a mark. -/
theorem test_met_QueueCueAppendsTheCue :
    (rig .standby).Ready .a ∧ (rig .standby).Prepared ∧ (rigCue .onGo).Legal ∧ (rigCue (.atMark 5)).Legal
      ∧ (rigCue .onGo).tier = (rig .standby).effectiveTier .a 0 ∧ (rigCue .onGo).origin = .a
      ∧ (rig .standby).LanesAllow 1 ((rig .standby).effectiveTier .a 0) .a ∧ ((rig .standby).group 1).state = .idle
      ∧ ((rig .standby).group 1).boundTrack = none ∧ ((rig .standby).queue 1) = CueQueue.clear
      ∧ (rig .standby).clock.running = false ∧ (rig .standby).clock.value < 5 :=
  ⟨by decide, by decide, ⟨by decide, by decide, by decide, by decide, (by decide : _ ∧ _), trivial⟩,
    ⟨by decide, by decide, by decide, by decide, (by decide : _ ∧ _), (by decide : _ ≤ _)⟩, by decide, by decide, by decide, by decide,
    by decide, by decide, by decide, by decide⟩

/-- A running clock at 5 ms. -/
def atFive (p : Part) : Part := { p with clock := { value := 5, running := true } }

/-- A cue put in at its mark, with something to travel and with nothing, armed and not. -/
theorem test_met_QueueCueAtItsMark :
    let p := atFive (rig .armed)
    let still := { rigCue (.atMark 5) with form := .relative 3 }
    p.Ready .a ∧ p.Prepared ∧ p.queue 1 = CueQueue.clear ∧ 5 ≤ p.clock.value ∧ p.clock.value ≤ 5 + (p.group 1).lateGrace
      ∧ p.Admits 1 0 .a (p.cueTargets 1 (rigCue (.atMark 5))) ∧ p.Travels 1 (p.cueTargets 1 (rigCue (.atMark 5)))
      ∧ p.Admits 1 0 .a (p.cueTargets 1 still) ∧ ¬p.Travels 1 (p.cueTargets 1 still)
      ∧ (atFive (rig .standby)).Prepared ∧ (atFive (rig .standby)).ctl.mode ≠ .armed :=
  ⟨by decide, by decide, by decide, by decide, by decide, ⟨rfl, rfl, rfl, rfl, by decide, by decide, by decide, by decide⟩,
    by decide, ⟨rfl, rfl, rfl, rfl, by decide, by decide, by decide, by decide⟩, by decide, by decide, by decide⟩

/-- Put in past its mark, a cue is dropped late; at its mark it fires when ARMED, and is refused in STANDBY. -/
theorem test_queue_cue_at_and_past_its_mark :
    let put := fun mark p => after (.queueCue .a 0 (queueCueBody 1 (rigCue (.atMark mark)))) (atFive p)
    (put 4 (rig .armed)).codes.groups[(1 : Grp)] = some (.cueLate 1)
      ∧ ((put 5 (rig .armed)).group 1).state = .preparing
      ∧ (put 5 (rig .standby)).codes.groups[(1 : Grp)] = some (.cueRefused 1 .mode 0xFF) := by decide

theorem test_met_DwellAndMarkFireTheHead :
    (let p := (rig .armed).modQueue 1 fun q => { q with
      cues := [rigCue (.afterPrevious 500)], arming := .dwelling, dwellTimer := some 0 }
     p.ctl.held = false ∧ (p.group 1).state = .idle ∧ (p.queue 1).cues = rigCue (.afterPrevious 500) :: []
       ∧ (p.queue 1).dwellTimer = some 0 ∧ p.Admits 1 0 .a (p.cueTargets 1 (rigCue (.afterPrevious 500)))
       ∧ p.Travels 1 (p.cueTargets 1 (rigCue (.afterPrevious 500))))
    ∧ (let p := { (rig .armed).modQueue 1 fun q => { q with cues := [rigCue (.atMark 5)], arming := .awaitingMark } with
        clock := { value := 5, running := true } }
       (p.queue 1).arming = .awaitingMark ∧ p.clock.running = true ∧ 5 ≤ p.clock.value
         ∧ p.clock.value ≤ 5 + (p.group 1).lateGrace
         ∧ p.Admits 1 0 .a (p.cueTargets 1 (rigCue (.atMark 5)))) :=
  ⟨⟨by decide, by decide, by decide, by decide, ⟨rfl, rfl, rfl, rfl, by decide, by decide, by decide, by decide⟩, by decide⟩,
    by decide, by decide, by decide, by decide, ⟨rfl, rfl, rfl, rfl, by decide, by decide, by decide, by decide⟩⟩

/-- A mark passed by more than the late grace, and a dwell that ends in STANDBY. -/
theorem test_met_LateAndRefusedHeadsAreDropped :
    (let p := { (rig .armed).modQueue 1 fun q => { q with cues := [rigCue (.atMark 5)], arming := .awaitingMark } with
        clock := { value := 6, running := true } }
     p.ctl.held = false ∧ (p.queue 1).cues = rigCue (.atMark 5) :: [] ∧ p.ctl.mode ≠ .parked
       ∧ (p.queue 1).arming = .awaitingMark ∧ p.clock.running = true ∧ 5 + (p.group 1).lateGrace < p.clock.value)
    ∧ (let p := (rig .standby).modQueue 1 fun q => { q with
        cues := [rigCue (.afterPrevious 500)], arming := .dwelling, dwellTimer := some 0 }
       p.ctl.mode ≠ .parked ∧ p.ctl.mode ≠ .armed ∧ (p.queue 1).dwellTimer = some 0) := by decide

theorem test_met_SetClockSetsStartsAndHolds :
    (rig .armed).Ready .a ∧ (rig .armed).clock.running = false ∧ (∀ g, ((rig .armed).queue g).arming ≠ .awaitingMark)
      ∧ ({ rig .armed with clock := { value := 4294967295, running := true } } : Part).clock
        = { value := 4294967295, running := true } := by decide

/-- A head whose mark lies 1 ms ahead, at the clock and 1 ms past it; one that travels and one that does not, ARMED and in
STANDBY; G0 that awaits a mark beside it on other channels; and a clock at its last value. -/
theorem test_met_ClockJudgesTheWaitingHeads :
    let waits := fun (p : Part) g x => p.modQueue g fun q => { q with cues := [x], arming := .awaitingMark }
    let stood := fun p : Part => { p with clock := { value := 5, running := false } }
    let x := rigCue (.atMark 5)
    let still := { x with form := .relative 3 }
    let p := stood (waits (waits (rig .armed) 1 x) 0 (rigCue (.atMark 5)))
    let q := stood (waits (rig .armed) 1 still)
    (p.Ready .a ∧ p.clock.running = false ∧ (p.queue 2).arming ≠ .awaitingMark ∧ (p.queue 1).arming = .awaitingMark
      ∧ (p.queue 1).cues = [x] ∧ p.clock.value < 6 ∧ 4 + (p.group 1).lateGrace < p.clock.value ∧ 5 ≤ p.clock.value
      ∧ p.clock.value ≤ 5 + (p.group 1).lateGrace ∧ (stood (waits (rig .standby) 1 x)).ctl.mode ≠ .armed
      ∧ (p.group 1).state = .idle ∧ p.ctl.silenceDisarm = false ∧ p.Travels 1 (p.cueTargets 1 x)
      ∧ (∀ h, h ≠ 1 → (p.queue h).arming = .awaitingMark →
          ∀ ln ∈ (p.group h).lanes, ∀ k ∈ (p.group 1).lanes, ln.channel ≠ k.channel)
      ∧ (∀ h, h ≠ 1 → (q.queue h).arming ≠ .awaitingMark) ∧ ¬q.Travels 1 (q.cueTargets 1 still)
      ∧ (let r : Part := { p with clock := { value := 4294967295, running := true } }
         r.clock = { value := 4294967295, running := true } ∧ 4294967294 + (r.group 1).lateGrace < r.clock.value))
    ∧ p.Admits 1 0 .a (p.cueTargets 1 x) ∧ q.Admits 1 0 .a (q.cueTargets 1 still) :=
  ⟨by decide, ⟨rfl, rfl, rfl, rfl, by decide, by decide, by decide, by decide⟩,
    ⟨rfl, rfl, rfl, rfl, by decide, by decide, by decide, by decide⟩⟩

/-! ### Tracks: premises met -/

/-- An AT_MARK head behind a STOPPED clock, one passed by more than the late grace, one of a blocked queue, and one whose mark
the clock has just reached, in ARMED and in STANDBY. -/
theorem test_met_UnbindArmsAnAtMarkHead :
    let x := rigCue (.atMark 5)
    let p := (tracked .loaded [rigPoint false]).modQueue 0 fun q => { q with cues := [x] }
    let late : Part := { p with clock := { value := 6, running := true } }
    let free := p.modGroup 0 fun y => { y with boundTrack := none }
    (p.Ready .a ∧ p.Prepared ∧ (p.group 0).state = .idle ∧ 0 ∈ (p.track 0).bound ∧ (p.queue 0).cues = x :: []
      ∧ (p.queue 0).blocked = false ∧ (p.queue 0).arming = .none ∧ p.clock.running = false ∧ late.clock.running = true
      ∧ 5 + (late.group 0).lateGrace < late.clock.value
      ∧ ((p.modQueue 0 fun q => { q with blocked := true }).queue 0).blocked = true
      ∧ free.Travels 0 (free.cueTargets 0 x) ∧ (rig .standby).Prepared ∧ (rig .standby).ctl.mode ≠ .armed)
    ∧ free.Admits 0 x.tier x.origin (free.cueTargets 0 x) :=
  ⟨by decide, ⟨rfl, rfl, rfl, rfl, by decide, by decide, by decide, by decide⟩⟩

theorem test_met_BindAndUnbindChangeTheBoundSet :
    (let p := tracked .loaded [rigPoint false]
     p.Ready .a ∧ p.Prepared ∧ (p.group 1).state = .idle ∧ (p.track 0).owner ≠ some Link.a.other
       ∧ (p.group 1).boundTrack = none ∧ (p.track 0).state ≠ .playing ∧ (p.track 0).state ≠ .starved
       ∧ (∀ h ∈ (p.track 0).bound, ∀ x ∈ (p.group h).lanes, ∀ y ∈ (p.group 1).lanes, x.channel ≠ y.channel)
       ∧ (p.group 0).state = .idle ∧ 0 ∈ (p.track 0).bound ∧ (p.queue 0).cues = []) := by decide

/-- A batch of the limits, and a STARVED track with a group that is RUNNING and one that is RUNNING or STOPPING. -/
theorem test_met_FeedTrackAppendsTheBatch :
    LegalBatch [⟨-30000, 40, false⟩, ⟨30000, 60000, true⟩]
      ∧ (let p := tracked .loaded (List.replicate 30 (rigPoint false))
         p.Ready .a ∧ p.Prepared ∧ (p.track 0).owner = some .a ∧ (p.track 0).state ≠ .starved
           ∧ (∀ w ∈ (p.track 0).waypoints, w.last = false) ∧ (p.track 0).waypoints.length + 2 ≤ 32)
      ∧ ∀ x ∈ [GroupState.running, .stopping],
          let p := starving x .moving
          p.Ready .a ∧ p.Prepared ∧ (p.track 0).owner = some .a ∧ (p.track 0).state = .starved
            ∧ (p.track 0).waypoints ++ [rigPoint true] = rigPoint true :: [] ∧ p.PlaysApart 0 ∧ 0 ∈ (p.track 0).playing
            ∧ (p.group 0).active = true ∧ (p.group 1).active = (x == .running) := by decide

/-- A STARVED track that is fed: G0's channels start toward 5020 and 4990, and G1, which is STOPPING, is given no segment. -/
theorem test_feed_ends_starvation :
    let p := starving .stopping .moving
    let q := after (.feedTrack .a 0 ([0, 1] ++ waypointBytes (rigPoint true))) p
    (q.track 0).current = some (rigPoint true) ∧ (q.group 0).state = .preparing
      ∧ (q.group 0).records.map (·.target) = [5020, 4990] ∧ (q.chan 0).state = .starting ∧ (q.chan 0).direction = some .up
      ∧ (q.chan 1).direction = some .down ∧ q.group 1 = p.group 1 ∧ q.chan 2 = p.chan 2 := by decide

/-- Lane 0 in every state of its channel, off its target and within 5 mm of it, beside a HOLD lane off its target; and a target
above 60 000 mm. -/
theorem test_met_RetargetGivesNewTargets :
    (∀ x ∈ [{ rigMoving .holding with mover := .group 0 }, { rigMoving .starting with mover := .group 0 },
        { rigMoving .moving with mover := .group 0 }, { rigMoving .moving with mover := .group 0, direction := some .down },
        { rigMoving .stopping with mover := .group 0 }],
      let p := threeLanes x
      ((p.group 0).move.map fun m => m.lanes.length) = some (p.group 0).lanes.length
        ∧ (p.originList 0 0).length = (p.group 0).lanes.length ∧ ((p.group 0).lanes.map (·.channel)).Nodup
        ∧ (∀ d ∈ [(3 : Int), 20], ∀ lt ∈ (p.group 0).lanes.zip (p.segmentTargets 0 0 ⟨d, 1000, false⟩),
            ¬(p.chan lt.1.channel).Bars lt.2)
        ∧ p.segmentTargets 0 0 ⟨20, 1000, false⟩ = [5020, 4990, 4900] ∧ p.segmentTargets 0 0 ⟨3, 1000, false⟩ = [5003, 4999, 4900]
        ∧ (p.chan 0).pos = 5000 ∧ (p.chan 2).pos = 5000 ∧ (p.chan 0).fault = none ∧ (p.chan 0).mover ≠ .none)
    ∧ (rigChannel.Bars 60001) ∧ (playing (rigPoint false) [] []).segmentTargets 0 0 ⟨55001, 1000, false⟩ = [60001, -22500] := by
  decide

theorem test_met_PlayTrackStartsTheBoundGroups :
    let p := tracked .loaded [rigPoint false, rigPoint true]
    p.Ready .a ∧ p.ctl.mode = .armed ∧ (p.track 0).owner = some .a ∧ (p.track 0).state = .loaded
      ∧ (p.track 0).waypoints = rigPoint false :: [rigPoint true] ∧ (p.track 0).bound.Nodup
      ∧ (((p.track 0).bound.flatMap fun g => (p.group g).lanes).map (·.channel)).Nodup
      ∧ ∀ g ∈ (p.track 0).bound, (p.group g).state = .idle ∧ p.LanesAllow g (p.effectiveTier .a 0) .a
        ∧ (p.originList 0 g).length = (p.group g).lanes.length
        ∧ (∀ ln ∈ (p.group g).lanes, (p.chan ln.channel).state = .idle ∧ (p.chan ln.channel).mover = .none)
        ∧ ∀ lt ∈ (p.group g).lanes.zip (p.segmentTargets 0 g (rigPoint false)),
            0 ≤ lt.2 ∧ lt.2 ≤ 60000 ∧ ((p.chan lt.1.channel).config.softLower : Int) ≤ lt.2
              ∧ lt.2 ≤ (p.chan lt.1.channel).config.softUpper := by decide

/-- Each check in turn: STANDBY; a guarded second lane; a track of the other link, one without groups, and a foreign second lane;
an unreferenced one; a PLAYING and a STARVED track, an empty list and a group that moves; a second lane whose channel holds;
and one that a target takes beyond its soft limit. -/
theorem test_met_PlayTrackRefusals :
    let second := fun x : Channel => (tracked .loaded [rigPoint false]).setChan 1 x
    let aims := fun p : Part => (p.track 0).bound.flatMap fun g => (p.group g).lanes.zip (p.segmentTargets 0 g (rigPoint false))
    (tracked .loaded []).Ready .a ∧ 2 ≤ (2 : Byte).toNat ∧ (rig .standby).ctl.mode ≠ .armed
      ∧ (second { rigChannel with config.guardTier := 0 }).FirstIn ((second rigChannel).trackLanes 0) 1 (fun x => ¬x.Lets 1)
      ∧ (∀ ln ∈ (second rigChannel).trackLanes 0, ((second rigChannel).chan ln.channel).Lets 7
          ∧ ((second rigChannel).chan ln.channel).owner = some .a ∧ ((second rigChannel).chan ln.channel).referenced = true
          ∧ ((second rigChannel).chan ln.channel).state = .idle ∧ ((second rigChannel).chan ln.channel).mover = .none)
      ∧ ((second rigChannel).track 0).owner ≠ some .b ∧ ((rig .armed).track 1).owner ≠ some .a
      ∧ (second { rigChannel with owner := none }).FirstIn ((second rigChannel).trackLanes 0) 1 (fun x => x.owner ≠ some .a)
      ∧ (second { rigChannel with referenced := false }).FirstIn ((second rigChannel).trackLanes 0) 1
          (fun x => x.referenced = false)
      ∧ ((tracked .playing []).track 0).state = .playing ∧ ((tracked .starved []).track 0).state = .starved
      ∧ ((tracked .loaded []).track 0).waypoints = []
      ∧ (let p := (tracked .loaded [rigPoint false]).modGroup 0 fun x => { x with state := .held }
         ∃ g ∈ (p.track 0).bound, (p.group g).state ≠ .idle)
      ∧ (second { rigChannel with state := .holding }).FirstIn ((second rigChannel).trackLanes 0) 1
          (fun x => x.state ≠ .idle ∨ x.mover ≠ .none)
      ∧ (let p := second { rigChannel with config.softLower := 4991 }
         (aims p)[1]? = some (⟨1, .oppose, 1⟩, 4990) ∧ (aims p)[0]? = some (⟨0, .follow, 0⟩, 5020) ∧ (p.chan 1).Bars 4990
           ∧ ¬(p.chan 0).Bars 5020) := by
  have first : ∀ (p : Part) (bad : Channel → Prop), bad (p.chan 1) → ¬bad (p.chan 0) → p.FirstIn rigLanes 1 bad :=
    fun p bad h1 h0 => ⟨⟨⟨1, .oppose, 1⟩, rfl, h1⟩, fun k ln hk hln => by
      obtain rfl : k = 0 := by omega
      cases Option.some.inj hln
      exact h0⟩
  exact ⟨by decide, by decide, by decide, first _ _ (by decide) (by decide), by decide, by decide, by decide,
    first _ _ (by decide) (by decide), first _ _ (by decide) (by decide), by decide, by decide, by decide, by decide,
    first _ _ (by decide) (by decide), by decide⟩

/-- PLAY_TRACK names the second lane's channel in a refusal. -/
theorem test_play_track_refusals :
    let play := fun x : Channel =>
      ((after (.playTrack .a 0 [0]) ((tracked .loaded [rigPoint false]).setChan 1 x)).link .a).answering.map fun r =>
        (r.result, r.index)
    play { rigChannel with owner := none } = some (.claim, 1)
      ∧ play { rigChannel with referenced := false } = some (.unreferenced, 1)
      ∧ play { rigChannel with config.softLower := 4991 } = some (.limit, 1) := by decide

/-- A play with G0 at rest and with G1 under way, at rest, and STOPPING already. -/
theorem test_met_StopTrackEndsThePlay :
    (∀ x ∈ [(GroupState.running, ChannelState.moving), (.running, .holding), (.stopping, .stopping)],
      let p := bothPlaying (rigPoint false) [] x.1 x.2
      p.Ready .a ∧ (p.track 0).state = .playing ∧ p.ctl.mode ≠ .parked
        ∧ (∀ g ∈ (p.track 0).playing, ((p.group g).move.map (·.source)) = some (.track 0)) ∧ (p.track 0).playing = [0, 1]
        ∧ (((p.track 0).playing.flatMap fun g => (p.group g).lanes).map (·.channel)).Nodup
        ∧ (p.group 0).active = true ∧ ¬p.Underway 0 ∧ (p.group 1).active = (x.1 == .running)
        ∧ decide (p.Underway 1) = (x.2 != .holding))
    ∧ ((tracked .loaded [rigPoint false]).track 0).state = .loaded ∧ ((rig .armed).track 1).state = .empty := by decide

/-- STOP_TRACK of a STARVED play: G0, at rest, is IDLE without a move; G1 stops with reason REQUEST, or keeps the reason it has. -/
theorem test_stop_track_by_state :
    (let q := after (.stopTrack .a 0 [0]) (starving .running .moving)
     (q.group 0).state = .idle ∧ (q.group 0).move = none ∧ (q.chan 0).mover = .none ∧ q.codes.groups[(0 : Grp)] = none
       ∧ (q.group 1).state = .stopping ∧ (q.group 1).move.map (·.reason) = some (some .request) ∧ (q.chan 2).state = .stopping)
    ∧ (let q := after (.stopTrack .a 0 [0]) (starving .stopping .stopping)
       (q.group 1).move.map (·.reason) = some (some .fault)) := by decide

/-- A segment that ends with a waypoint behind it, G1 RUNNING and STOPPING, with none, and with END while a group is awaited. -/
theorem test_met_SegmentExpiryTakesTheNextSegment :
    (∀ x ∈ [GroupState.running, .stopping],
      let p := bothPlaying ⟨0, 500, false⟩ [rigPoint true] x .holding
      p.ctl.held = false ∧ (p.track 0).segmentTimer = some 0 ∧ (p.track 0).current = some ⟨0, 500, false⟩
        ∧ (p.track 0).state = .playing ∧ p.KeepsUp 0 ⟨0, 500, false⟩ ∧ (p.track 0).waypoints = rigPoint true :: []
        ∧ p.ctl.mode ≠ .parked ∧ p.PlaysApart 0 ∧ (p.group 0).active = true ∧ (p.group 1).active = (x == .running))
    ∧ ((playing ⟨0, 500, false⟩ [] []).track 0).waypoints = []
    ∧ (let p := playing ⟨0, 500, true⟩ [] []
       p.KeepsUp 0 ⟨0, 500, true⟩ ∧ ∃ g ∈ (p.track 0).playing, g ∉ (p.track 0).arrived) := by decide

/-- The end of a segment retargets G0: channel 0 starts up, channel 1 down, and the group is PREPARING again. -/
theorem test_segment_end_retargets :
    let q := after (.segmentTimerExpiry 0) (bothPlaying ⟨0, 500, false⟩ [rigPoint true] .stopping .stopping)
    (q.group 0).state = .preparing ∧ (q.group 0).records.map (·.target) = [5020, 4990]
      ∧ (q.group 0).records.map (·.confirmed) = [false, false] ∧ (q.chan 0).state = .starting ∧ (q.chan 0).direction = some .up
      ∧ (q.chan 1).direction = some .down ∧ (q.chan 1).watchArmed = true ∧ (q.group 1).state = .stopping := by decide

/-- Lane 0 of G0 stands 201 mm above its target, with END, with an empty list, and with a waypoint behind. -/
theorem test_met_SegmentExpiryJudgesLag :
    ∀ x ∈ [((⟨0, 500, true⟩ : Waypoint), ([] : List Waypoint)), (⟨0, 500, false⟩, []), (⟨0, 500, false⟩, [rigPoint true])],
      let p := (playing x.1 x.2 []).setChan 0 { rigMoving .moving with mover := .group 0, raw := 5201 }
      p.ctl.held = false ∧ (p.track 0).segmentTimer = some 0 ∧ (p.track 0).current = some x.1 ∧ (p.track 0).state = .playing
        ∧ 0 ∈ (p.track 0).playing ∧ (p.track 0).playing.Nodup
        ∧ (((p.track 0).playing.flatMap fun h => (p.group h).lanes).map (·.channel)).Nodup ∧ (p.group 0).active = true
        ∧ (p.group 0).lanes[0]? = some ⟨0, .follow, 0⟩ ∧ (p.chan 0).mover = .group 0 ∧ (p.chan 0).state = .moving
        ∧ (p.chan 0).fault = none ∧ 0 ∉ (p.track 0).arrived
        ∧ ((p.group 0).lanes.zip (p.segmentTargets 0 0 x.1))[0]? = some (⟨0, .follow, 0⟩, 5000)
        ∧ (p.group 0).levelLimit < ((p.chan 0).pos - 5000).natAbs
        ∧ (let r := (bothPlaying x.1 x.2 .running .holding).setChan 0 { rigMoving .moving with mover := .group 0, raw := 5201 }
           r.PlaysApart 0 ∧ 1 ∈ (r.track 0).playing ∧ (r.group 1).active = true ∧ r.ctl.mode ≠ .parked
             ∧ r.segmentTargets 0 1 x.1 = [5000] ∧ (r.chan 2).pos = 5000) := by decide

/-- The play of G0 alone, at rest, ends; and a STARVED one with G1 under way, STOPPING already, and at rest. -/
theorem test_met_PlayEndsWithACompletionOrder :
    (let p := playing ⟨0, 500, true⟩ [] [0]
     p.ctl.held = false ∧ p.ctl.mode ≠ .parked
       ∧ (((p.track 0).playing.flatMap fun g => (p.group g).lanes).map (·.channel)).Nodup
       ∧ (p.track 0).segmentTimer = some 0 ∧ (p.track 0).current = some ⟨0, 500, true⟩ ∧ (p.track 0).state = .playing
       ∧ p.KeepsUp 0 ⟨0, 500, true⟩ ∧ (∀ g ∈ (p.track 0).playing, g ∈ (p.track 0).arrived)
       ∧ (p.group 0).active = true ∧ ∀ ln ∈ (p.group 0).lanes, (p.chan ln.channel).state = .holding)
    ∧ ∀ x ∈ [(GroupState.running, ChannelState.moving), (.stopping, .stopping), (.running, .holding)],
        let p := starving x.1 x.2
        p.ctl.held = false ∧ p.ctl.mode ≠ .parked ∧ (p.track 0).starvationTimer = some 0
          ∧ (((p.track 0).playing.flatMap fun g => (p.group g).lanes).map (·.channel)).Nodup
          ∧ (p.group 1).active = (x.1 == .running) ∧ (p.group 1).move.map (·.source) = some (.track 0)
          ∧ decide (p.Underway 1) = (x.2 != .holding) := by decide

/-- Starvation: G0 completes; G1 under way stops with reason COMPLETE, and one that is STOPPING keeps its reason. -/
theorem test_completion_order_by_state :
    (let q := after (.starvationTimerExpiry 0) (starving .running .moving)
     (q.group 0).state = .idle ∧ (q.group 1).state = .stopping ∧ (q.group 1).move.map (·.reason) = some (some .complete)
       ∧ (q.chan 2).state = .stopping ∧ q.codes.groups[(0 : Grp)] = none)
    ∧ (let q := after (.starvationTimerExpiry 0) (starving .stopping .stopping)
       (q.group 1).move.map (·.reason) = some (some .fault)) := by decide

/-! ### Snapshots: premises met -/

/-- A span of eight and of nine members, a group, and the three selectors. -/
theorem test_met_LatchCapturesAndReadSnapshotFrees :
    (rig .armed).Ready .a ∧ (rig .armed).hasChan 0 = true ∧ (rig .armed).hasChan 8 = true
      ∧ (7 : Chan).val < (0 : Chan).val + 8 ∧ (0 : Chan).val + 8 ≤ (8 : Chan).val ∧ ((rig .armed).group 0).state ≠ .empty
      ∧ (((rig .armed).group 0).lanes.map (·.channel)).Nodup := by decide

theorem test_met_ReadbackChangesNothing :
    (rig .armed).Ready .a ∧ byteOf (7 : Grp).val = 7 ∧ 8 ≤ (8 : Byte).toNat ∧ byteOf (1 : Trk).val = 1
      ∧ 2 ≤ (2 : Byte).toNat := by decide

end Sys2Proof.Tests
end

section
/-! PROOFS. The channel table and the drive ports at power-on (R24): what the end of a reset leaves of a channel and of its port,
and power-on reset as one such end. -/

namespace Sys2Proof.Machine

/-! ### Loops over the existing channels (R1) -/

/-- A loop over distinct places changes a reading as its one turn at the place read does, when the turns at other places leave
the reading alone. What the turn goes by (k) is kept by every turn. -/
theorem Part.forEach_once {α β γ : Type} (k : Part → γ) (r : Part → β) (u : γ → β → β) {f : Part → α → Part} {l : List α}
    (hl : l.Nodup) {d : α} (hd : d ∈ l) (kept : ∀ q x, k (f q x) = k q) (self : ∀ q, r (f q d) = u (k q) (r q))
    (out : ∀ q x, x ≠ d → r (f q x) = r q) (p : Part) : r (p.forEach l f) = u (k p) (r p) := by
  induction l generalizing p with
  | nil => cases hd
  | cons x l ih =>
    obtain ⟨hx, hl⟩ := List.nodup_cons.mp hl
    rw [Part.forEach_cons]
    rcases List.mem_cons.mp hd with rfl | hd
    · have rest : r ((f p d).forEach l f) = r (f p d) :=
        Part.forEach_keeps r l _ fun q y hy => out q y fun e => hx (e ▸ hy)
      rw [rest, self]
    · rw [ih hl hd, kept, out p x fun e => hx (e ▸ hd)]

/-- What the turns at the existing channels leave alone, a loop over the existing channels leaves alone. -/
theorem Part.forEach_existing_keeps {β : Type} (r : Part → β) {f : Part → Chan → Part} (h : ∀ q c, r (f q c) = r q)
    (p : Part) : r (p.forEach allChans fun q c => if q.hasChan c then f q c else q) = r p :=
  Part.forEach_keeps r _ _ fun q c _ => by
    split
    · exact h q c
    · rfl

/-- A loop over the existing channels, of turns that keep which channels exist: a reading at one channel changes as that
channel's turn changes it when the channel exists, and not at all when it does not. -/
theorem Part.forEach_existing {β : Type} (r : Part → β) (u : β → β) {f : Part → Chan → Part} {d : Chan}
    (kept : ∀ q c, (f q c).hasChan d = q.hasChan d) (self : ∀ q, r (f q d) = u (r q))
    (out : ∀ q c, c ≠ d → r (f q c) = r q) (p : Part) :
    r (p.forEach allChans fun q c => if q.hasChan c then f q c else q) = if p.hasChan d then u (r p) else r p := by
  refine Part.forEach_once (fun q => q.hasChan d) r (fun b x => if b then u x else x) allChans_nodup (mem_allChans d)
    (fun q c => ?_) (fun q => ?_) (fun q c hc => ?_) p
  · split
    · exact kept q c
    · rfl
  · rw [apply_ite r, self]
  · rw [apply_ite r, out q c hc, ite_self]

/-- R25: a loop over the existing channels updates each of them once, and leaves the others. -/
theorem Part.eachChannel_chan (p : Part) (f : Channel → Channel) (d : Chan) :
    (p.eachChannel f).chan d = if p.hasChan d then f (p.chan d) else p.chan d :=
  Part.forEach_existing (f := fun q c => q.modChan c f) (fun q => q.chan d) f (fun _ _ => rfl)
    (fun q => q.modChan_chan_self d f) (fun q c hc => q.modChan_chan_ne c d f hc.symm) p

/-- A loop over the existing channels leaves what no channel update touches. -/
theorem Part.eachChannel_keeps {β : Type} (r : Part → β) (h : ∀ (q : Part) c g, r (q.modChan c g) = r q) (p : Part)
    (f : Channel → Channel) : r (p.eachChannel f) = r p :=
  Part.forEach_existing_keeps (f := fun q c => q.modChan c f) r (fun q c => h q c f) p

/-- R4: takes f over the port of every existing channel. -/
def Part.eachPort (p : Part) (f : Port → Port) : Part :=
  p.forEach allChans fun p c => if p.hasChan c then p.modPort c f else p

/-- A loop over the ports of the existing channels updates each of them once, and leaves the others. -/
theorem Part.eachPort_port (p : Part) (f : Port → Port) (d : Chan) :
    (p.eachPort f).port d = if p.hasChan d then f (p.port d) else p.port d :=
  Part.forEach_existing (f := fun q c => q.modPort c f) (fun q => q.port d) f (fun _ _ => rfl)
    (fun q => q.modPort_port_self d f) (fun q c hc => q.modPort_port_ne c d f hc.symm) p

/-- A loop over the ports of the existing channels leaves what no port update touches. -/
theorem Part.eachPort_keeps {β : Type} (r : Part → β) (h : ∀ (q : Part) c g, r (q.modPort c g) = r q) (p : Part)
    (f : Port → Port) : r (p.eachPort f) = r p :=
  Part.forEach_existing_keeps (f := fun q c => q.modPort c f) r (fun q c => h q c f) p

/-! ### The timers at a reset's end (R4, R16) -/

/-- R4: a port's feedback timer starts. -/
def Port.startFeedback (x : Port) : Port := { x with feedbackTimer := some Config.feedbackMs }

/-- R16: the settle timer of a channel that settles starts. -/
def Channel.startSettle (x : Channel) : Channel :=
  if x.settling then { x with settleTimer := some Config.settleMs } else x

theorem Channel.startSettle_calm {x : Channel} (h : x.settling = false) : x.startSettle = x := by
  simp [Channel.startSettle, h]

/-- The timers start at the ports, at the channels, and at the links. -/
theorem Part.startTimers_eq (p : Part) :
    p.startTimers = (((p.eachPort Port.startFeedback).eachChannel Channel.startSettle).modLink .a
      fun x => { x with watchdog := x.watchdog.restart }).modLink .b fun x => { x with watchdog := x.watchdog.restart } := rfl

/-- The feedback timer of every existing channel starts. -/
theorem Part.startTimers_port (p : Part) (c : Chan) :
    p.startTimers.port c = if p.hasChan c then (p.port c).startFeedback else p.port c := by
  rw [Part.startTimers_eq, Part.modLink_port, Part.modLink_port,
    Part.eachChannel_keeps (fun q => q.port c) fun _ _ _ => rfl, Part.eachPort_port]

/-- The settle timer of every existing channel that settles starts. -/
theorem Part.startTimers_chan (p : Part) (c : Chan) :
    p.startTimers.chan c = if p.hasChan c then (p.chan c).startSettle else p.chan c := by
  rw [Part.startTimers_eq, Part.modLink_chan, Part.modLink_chan, Part.eachChannel_chan,
    Part.eachPort_keeps (fun q => q.hasChan c) fun _ _ _ => rfl, Part.eachPort_keeps (fun q => q.chan c) fun _ _ _ => rfl]

/-! ### The end of a reset (R167) -/

@[simp] theorem ModeCtl.setPower_mode (on : Bool) (m : ModeCtl) : (m.setPower on).mode = m.mode := by
  unfold ModeCtl.setPower
  split
  · split <;> rfl
  · rfl

@[simp] theorem Part.takeBaselines_port (p : Part) (c : Chan) : p.takeBaselines.port c = p.port c :=
  Part.forEach_keeps (fun q => q.port c) _ _ fun _ _ _ => rfl
@[simp] theorem Part.takeBaselines_ctl (p : Part) : p.takeBaselines.ctl = p.ctl :=
  Part.forEach_keeps (fun q => q.ctl) _ _ fun _ _ _ => rfl

/-- No reset ends in ARMED. -/
theorem Part.modeAfterReset_ne_armed (p : Part) (cause : ResetCause) : p.modeAfterReset cause ≠ .armed := by
  unfold Part.modeAfterReset
  split
  · decide
  · split <;> decide

/-- Power-on does not end in PARKED. -/
theorem Part.modeAfterReset_powerOn_ne_parked (p : Part) : p.modeAfterReset .powerOn ≠ .parked := by
  unfold Part.modeAfterReset
  split
  · decide
  · rw [if_neg (by simp)]; decide

@[simp] theorem Part.endReset_mode (p : Part) (cause : ResetCause) :
    (p.endReset cause).ctl.mode = p.modeAfterReset cause := by
  unfold Part.endReset
  dsimp only
  rw [Part.post_ctl]
  split <;> simp

/-- A reset's end changes the ports as the start of the timers does. -/
theorem Part.endReset_port (p : Part) (cause : ResetCause) (c : Chan) :
    (p.endReset cause).port c = p.startTimers.port c := by
  unfold Part.endReset
  dsimp only
  rw [Part.post_port]
  split <;> simp

/-- A reset that does not end in PARKED takes no baselines: it changes the channels as the start of the timers does. -/
theorem Part.endReset_chan {p : Part} {cause : ResetCause} (h : p.modeAfterReset cause ≠ .parked) (c : Chan) :
    (p.endReset cause).chan c = p.startTimers.chan c := by
  unfold Part.endReset
  dsimp only
  rw [Part.post_chan, if_neg h, Part.modCtl_chan]

/-- R7, R167: no reset ends with a port to be released. -/
theorem Part.endReset_releases (p : Part) (cause : ResetCause) (c : Chan) : (p.endReset cause).releases c = false := by
  simp [Part.releases, p.modeAfterReset_ne_armed cause]

/-! ### Power-on reset (R24) -/

theorem exec_powerOnReset (straps : Straps) (estop good : Bool) (s : State) :
    exec (.powerOnReset straps estop good) s =
      .next { s with part := ((Part.powerOn straps estop good s.part.draws).endReset .powerOn).drive } := rfl

@[simp] theorem Part.powerOn_chan (straps : Straps) (estop good : Bool) (draws : Nat) (c : Chan) :
    (Part.powerOn straps estop good draws).chan c = Channel.powerOn := by
  simp [Part.powerOn, Part.chan]

@[simp] theorem Part.powerOn_port (straps : Straps) (estop good : Bool) (draws : Nat) (c : Chan) :
    (Part.powerOn straps estop good draws).port c = Port.powerOn c.val draws := by
  simp [Part.powerOn, Part.port]

/-- R1: the channels that exist from power-on are those of the CHANNELS strap. -/
theorem Part.powerOn_hasChan (straps : Straps) (estop good : Bool) (draws : Nat) (c : Chan) :
    (Part.powerOn straps estop good draws).hasChan c = true ↔ straps.sixteen = true ∨ c.val < 8 := by
  unfold Part.hasChan
  rw [decide_eq_true_iff]
  show (c.val < if straps.sixteen = true then 16 else 8) ↔ _
  split
  · next h => simp [h]
  · next h => simp [h]

/-- R24: after power-on every channel record holds its power-on values. -/
theorem Part.powerOn_endReset_chan (straps : Straps) (estop good : Bool) (draws : Nat) (c : Chan) :
    ((Part.powerOn straps estop good draws).endReset .powerOn).chan c = Channel.powerOn := by
  have calm : Channel.powerOn.startSettle = Channel.powerOn := Channel.startSettle_calm rfl
  rw [Part.endReset_chan (Part.modeAfterReset_powerOn_ne_parked _), Part.startTimers_chan, Part.powerOn_chan, calm, ite_self]

/-- R24: after power-on a port holds its power-on values, with the feedback timer of an existing channel started. -/
theorem Part.powerOn_endReset_port (straps : Straps) (estop good : Bool) (draws : Nat) (c : Chan) :
    ((Part.powerOn straps estop good draws).endReset .powerOn).port c =
      { Port.powerOn c.val draws with feedbackTimer := if straps.sixteen = true ∨ c.val < 8 then some 50 else none } := by
  rw [Part.endReset_port, Part.startTimers_port, Part.powerOn_port]
  simp only [Part.powerOn_hasChan]
  split <;> rfl

/-- Settles O15: the records are those of power-on, which the end of the reset and the drive keep, and the mode after a reset
releases no port. -/
theorem powerOnResetSetsEveryChannel : Obligations.PowerOnResetSetsEveryChannel := by
  intro straps estop good s
  refine ⟨_, exec_powerOnReset straps estop good s, fun c => ?_⟩
  rw [Part.drive_chan, Part.powerOn_endReset_chan, Part.drive_port, Part.powerOn_endReset_port]
  have safe := Part.outputOf_safe
    (Part.endReset_releases (Part.powerOn straps estop good s.part.draws) .powerOn c)
  obtain ⟨brake, run, demand⟩ := (PortOutput.isSafe_iff _).mp safe
  exact ⟨rfl, rfl, brake, run, demand, rfl⟩

end Sys2Proof.Machine
end

section
/-! PROOFS. The group records at power-on (R60): the end of a reset leaves every group as it was. -/

namespace Sys2Proof.Machine

/-! ### What the end of a reset leaves of a group (R167) -/

/-- The timers that start at a reset's end are those of ports, channels and links. -/
@[simp] theorem Part.startTimers_group (p : Part) (g : Grp) : p.startTimers.group g = p.group g := by
  rw [Part.startTimers_eq, Part.modLink_group, Part.modLink_group,
    Part.eachChannel_keeps (fun q => q.group g) fun q c f => q.modChan_group c f g,
    Part.eachPort_keeps (fun q => q.group g) fun q c f => q.modPort_group c f g]

@[simp] theorem Part.takeBaselines_group (p : Part) (g : Grp) : p.takeBaselines.group g = p.group g :=
  Part.forEach_keeps (fun q => q.group g) _ _ fun _ _ _ => rfl

/-- A reset's end changes no group, whatever the cause and the mode. -/
@[simp] theorem Part.endReset_group (p : Part) (cause : ResetCause) (g : Grp) : (p.endReset cause).group g = p.group g := by
  unfold Part.endReset
  dsimp only
  rw [Part.post_group]
  split
  · rw [Part.takeBaselines_group, Part.modCtl_group, Part.startTimers_group]
  · rw [Part.modCtl_group, Part.startTimers_group]

/-! ### Power-on reset (R60) -/

@[simp] theorem Part.powerOn_group (straps : Straps) (estop good : Bool) (draws : Nat) (g : Grp) :
    (Part.powerOn straps estop good draws).group g = Group.powerOn := by
  simp [Part.powerOn, Part.group]

/-- Settles O16: the group records are those of power-on, which the end of the reset and the drive keep; and every channel is
ABSENT, as its power-on record says. -/
theorem powerOnResetSetsEveryGroup : Obligations.PowerOnResetSetsEveryGroup := by
  intro straps estop good s
  refine ⟨_, exec_powerOnReset straps estop good s, fun g => ⟨?_, fun c => ?_⟩⟩
  · rw [Part.drive_group, Part.endReset_group, Part.powerOn_group]
    rfl
  · rw [Part.drive_chan, Part.powerOn_endReset_chan]
    rfl

end Sys2Proof.Machine
end

section
/-! PROOFS. The cue queues after a reset (R133): what the taking of every reset leaves of the part (R166), and that the reset
values of the queues and of the groups' last events outlast the end of a reset. -/

namespace Sys2Proof.Machine

/-! ### What the end of a reset leaves of the queues and of the last events (R167) -/

/-- The timers that start at a reset's end touch ports, channels and links alone. -/
theorem Part.startTimers_keeps {β : Type} (r : Part → β) (hp : ∀ (q : Part) c f, r (q.modPort c f) = r q)
    (hc : ∀ (q : Part) c f, r (q.modChan c f) = r q) (hl : ∀ (q : Part) l f, r (q.modLink l f) = r q) (p : Part) :
    r p.startTimers = r p := by
  rw [Part.startTimers_eq, hl, hl, Part.eachChannel_keeps r hc, Part.eachPort_keeps r hp]

@[simp] theorem Part.startTimers_queue (p : Part) (g : Grp) : p.startTimers.queue g = p.queue g :=
  p.startTimers_keeps (fun q => q.queue g) (fun _ _ _ => rfl) (fun _ _ _ => rfl) fun q l f => q.modLink_queue l f g
@[simp] theorem Part.startTimers_codes (p : Part) : p.startTimers.codes = p.codes :=
  p.startTimers_keeps (fun q => q.codes) (fun _ _ _ => rfl) (fun _ _ _ => rfl) fun q l f => q.modLink_codes l f

@[simp] theorem Part.takeBaselines_queue (p : Part) (g : Grp) : p.takeBaselines.queue g = p.queue g :=
  Part.forEach_keeps (fun q => q.queue g) _ _ fun _ _ _ => rfl
@[simp] theorem Part.takeBaselines_codes (p : Part) : p.takeBaselines.codes = p.codes :=
  Part.forEach_keeps (fun q => q.codes) _ _ fun _ _ _ => rfl

/-- A reset's end changes no cue queue, whatever the cause and the mode. -/
@[simp] theorem Part.endReset_queue (p : Part) (cause : ResetCause) (g : Grp) : (p.endReset cause).queue g = p.queue g := by
  unfold Part.endReset
  dsimp only
  rw [Part.post_queue]
  split
  · rw [Part.takeBaselines_queue, Part.modCtl_queue, Part.startTimers_queue]
  · rw [Part.modCtl_queue, Part.startTimers_queue]

/-- R167: the one event of a reset's end is the one on MODE. -/
@[simp] theorem Part.endReset_codes (p : Part) (cause : ResetCause) :
    (p.endReset cause).codes = p.codes.write .mode (.modeChange (p.modeAfterReset cause) p.ctl.mode .reset) := by
  unfold Part.endReset
  dsimp only
  rw [Part.post_codes]
  split
  · rw [Part.takeBaselines_codes, Part.modCtl_codes, Part.startTimers_codes]
  · rw [Part.modCtl_codes, Part.startTimers_codes]

@[simp] theorem EventCodes.write_mode_groups (k : EventCodes) (e : Event) : (k.write .mode e).groups = k.groups := rfl

/-! ### The takings of a reset (R166) -/

theorem exec_lineResetAssert {s : State} (h : s.part.ctl.held = false) :
    exec .lineResetAssert s =
      .next { s with part := (s.part.takeReset.modCtl fun m => { m with held := true }).drive } := by
  have taking : exec .lineResetAssert s =
      .next { s with part := (s.part.awake fun p => p.takeReset.modCtl fun m => { m with held := true }).drive } := rfl
  rw [taking, Part.awake_of_free h]

theorem exec_commandReset {s : State} (h : s.part.ctl.resetDue = true) :
    exec .commandReset s = .next { s with part := (s.part.takeReset.endReset .command).drive } := by
  show s.take _ = _
  rw [State.take_next, if_pos h, Part.commandReset]

/-- The last byte of the reply to RESET: the link stops answering, and the command reset is taken. -/
theorem exec_replySent_of_resetDue {s : State} (answering : (s.part.link .a).answering.isSome = true)
    (due : s.part.ctl.resetDue = true) :
    exec (.replySent .a) s =
      .next { s with part := ((s.part.modLink .a LinkIf.replySent).takeReset.endReset .command).drive } := by
  show s.take _ = _
  rw [State.take_next, if_pos answering]
  dsimp only
  rw [if_pos (by simp [due]), Part.commandReset]

/-- Every reset's taking gives what holds of the blocks at power-on and once they have taken their reset values, if neither the
Mode Controller, nor the end of a reset, nor the drive of the outputs can undo it. -/
theorem TakesReset.gives {P : Part → Prop} {i : Instr} {s : State} {cause : ResetCause} (h : TakesReset i s cause)
    (powerOn : ∀ straps estop good draws, P (Part.powerOn straps estop good draws)) (taken : ∀ p : Part, P p.takeReset)
    (ctl : ∀ (p : Part) f, P p → P (p.modCtl f)) (ended : ∀ (p : Part) c, P p → P (p.endReset c))
    (drive : ∀ p : Part, P p → P p.drive) : Gives i s P := by
  rcases h with ⟨straps, estop, good, rfl, -⟩ | ⟨rfl, free, -⟩ | ⟨rfl, due, -⟩ | ⟨rfl, answering, due, -⟩
  · exact ⟨_, exec_powerOnReset straps estop good s, drive _ (ended _ _ (powerOn ..))⟩
  · exact ⟨_, exec_lineResetAssert free, drive _ (ctl _ _ (taken _))⟩
  · exact ⟨_, exec_commandReset due, drive _ (ended _ _ (taken _))⟩
  · exact ⟨_, exec_replySent_of_resetDue answering due, drive _ (ended _ _ (taken _))⟩

/-! ### The queues (R133) and the last events (R174) at a reset -/

@[simp] theorem Part.powerOn_queue (straps : Straps) (estop good : Bool) (draws : Nat) (g : Grp) :
    (Part.powerOn straps estop good draws).queue g = CueQueue.clear := by
  simp [Part.powerOn, Part.queue]

@[simp] theorem Part.powerOn_codes (straps : Straps) (estop good : Bool) (draws : Nat) :
    (Part.powerOn straps estop good draws).codes = EventCodes.none := rfl

@[simp] theorem Part.takeReset_queue (p : Part) (g : Grp) : p.takeReset.queue g = CueQueue.clear := by
  simp [Part.takeReset, Part.queue]

@[simp] theorem Part.takeReset_codes (p : Part) : p.takeReset.codes = EventCodes.none := rfl

@[simp] theorem EventCodes.none_groups (g : Grp) : EventCodes.none.groups[g] = Option.none := by
  simp [EventCodes.none]

/-- The group's queue is as after a reset, and no event stands on the group's pair. -/
def Part.QueueCleared (p : Part) (g : Grp) : Prop := p.queue g = CueQueue.clear ∧ p.codes.groups[g] = none

theorem Part.powerOn_queueCleared (straps : Straps) (estop good : Bool) (draws : Nat) (g : Grp) :
    (Part.powerOn straps estop good draws).QueueCleared g :=
  ⟨Part.powerOn_queue straps estop good draws g, EventCodes.none_groups g⟩

theorem Part.takeReset_queueCleared (p : Part) (g : Grp) : p.takeReset.QueueCleared g :=
  ⟨p.takeReset_queue g, EventCodes.none_groups g⟩

/-- The end of a reset raises MODE alone, so a queue stays cleared over it. -/
theorem Part.QueueCleared.endReset {p : Part} {g : Grp} (h : p.QueueCleared g) (cause : ResetCause) :
    (p.endReset cause).QueueCleared g := by
  obtain ⟨queue, code⟩ := h
  exact ⟨(p.endReset_queue cause g).trans queue, by rw [Part.endReset_codes, EventCodes.write_mode_groups, code]⟩

theorem Part.QueueCleared.drive {p : Part} {g : Grp} (h : p.QueueCleared g) : p.drive.QueueCleared g := by
  obtain ⟨queue, code⟩ := h
  exact ⟨(p.drive_queue g).trans queue, by rw [Part.drive_codes, code]⟩

/-- Settles O17: power-on and a reset's taking clear every queue and every last event, and what follows in the taking raises
none but the one on MODE. -/
theorem everyResetEmptiesTheQueues : Obligations.EveryResetEmptiesTheQueues := by
  intro i s cause h
  exact h.gives (P := fun q => ∀ g, q.QueueCleared g) Part.powerOn_queueCleared Part.takeReset_queueCleared
    (fun _ _ h => h) (fun _ cause h g => (h g).endReset cause) fun _ h g => (h g).drive

end Sys2Proof.Machine
end

section
/-! PROOFS. The tracks after a reset (R134): the reset values of the tracks, of their last events and of the groups' bindings
outlast the end of a reset. -/

namespace Sys2Proof.Machine

/-! ### What the end of a reset leaves of the tracks (R167) -/

@[simp] theorem Part.startTimers_track (p : Part) (t : Trk) : p.startTimers.track t = p.track t :=
  p.startTimers_keeps (fun q => q.track t) (fun _ _ _ => rfl) (fun _ _ _ => rfl) fun q l f => q.modLink_track l f t

@[simp] theorem Part.takeBaselines_track (p : Part) (t : Trk) : p.takeBaselines.track t = p.track t :=
  Part.forEach_keeps (fun q => q.track t) _ _ fun _ _ _ => rfl

/-- A reset's end changes no track, whatever the cause and the mode. -/
@[simp] theorem Part.endReset_track (p : Part) (cause : ResetCause) (t : Trk) : (p.endReset cause).track t = p.track t := by
  unfold Part.endReset
  dsimp only
  rw [Part.post_track]
  split
  · rw [Part.takeBaselines_track, Part.modCtl_track, Part.startTimers_track]
  · rw [Part.modCtl_track, Part.startTimers_track]

@[simp] theorem EventCodes.write_mode_tracks (k : EventCodes) (e : Event) : (k.write .mode e).tracks = k.tracks := rfl

/-! ### The tracks (R134), their last events (R174) and the groups (R61) at a reset -/

@[simp] theorem Part.powerOn_track (straps : Straps) (estop good : Bool) (draws : Nat) (t : Trk) :
    (Part.powerOn straps estop good draws).track t = Track.clear := by
  simp [Part.powerOn, Part.track]

@[simp] theorem Part.takeReset_track (p : Part) (t : Trk) : p.takeReset.track t = Track.clear := by
  simp [Part.takeReset, Part.track]

@[simp] theorem EventCodes.none_tracks (t : Trk) : EventCodes.none.tracks[t] = Option.none := by
  simp [EventCodes.none]

/-- The blocks that a reset's taking replaces whole hold no group. -/
theorem Part.setBlocks_group (p : Part) (queues : Vector CueQueue 8) (clock : ShowClock) (tracks : Vector Track 2)
    (linkA linkB : LinkIf) (codes : EventCodes) (g : Grp) :
    Part.group { p with queues := queues, clock := clock, tracks := tracks, linkA := linkA, linkB := linkB, codes := codes } g =
      p.group g := rfl

/-- R61: a reset's taking gives every group its reset values; the loops over channels and ports before it touch no group. -/
@[simp] theorem Part.takeReset_group (p : Part) (g : Grp) : p.takeReset.group g = (p.group g).reset := by
  unfold Part.takeReset
  dsimp only
  rw [Part.modCtl_group, Part.setBlocks_group, Part.forEach_modGroup _ fun _ => Group.reset,
    Part.forEach_keeps (fun q => q.group g) _ _ fun q c _ => q.modPort_group c _ g,
    Part.eachChannel_keeps (fun q => q.group g) fun q c f => q.modChan_group c f g]

/-- Both tracks are as after a reset, no event stands on the pair of either, and no group is bound. -/
structure Part.TracksCleared (p : Part) : Prop where
  track : ∀ t, p.track t = Track.clear
  code : ∀ t : Trk, p.codes.tracks[t] = none
  unbound : ∀ g, (p.group g).boundTrack = none

theorem Part.powerOn_tracksCleared (straps : Straps) (estop good : Bool) (draws : Nat) :
    (Part.powerOn straps estop good draws).TracksCleared where
  track := Part.powerOn_track straps estop good draws
  code := EventCodes.none_tracks
  unbound g := by rw [Part.powerOn_group]; rfl

theorem Part.takeReset_tracksCleared (p : Part) : p.takeReset.TracksCleared where
  track := p.takeReset_track
  code := EventCodes.none_tracks
  unbound g := by rw [Part.takeReset_group]; rfl

/-- The end of a reset raises MODE alone and binds no group, so the tracks stay cleared over it. -/
theorem Part.TracksCleared.endReset {p : Part} (h : p.TracksCleared) (cause : ResetCause) :
    (p.endReset cause).TracksCleared where
  track t := (p.endReset_track cause t).trans (h.track t)
  code t := by rw [Part.endReset_codes, EventCodes.write_mode_tracks, h.code]
  unbound g := by rw [Part.endReset_group, h.unbound]

theorem Part.TracksCleared.drive {p : Part} (h : p.TracksCleared) : p.drive.TracksCleared where
  track t := (p.drive_track t).trans (h.track t)
  code t := by rw [Part.drive_codes, h.code]
  unbound g := by rw [Part.drive_group, h.unbound]

/-- The Mode Controller's block holds neither a track, nor an event, nor a group. -/
theorem Part.TracksCleared.modCtl {p : Part} (h : p.TracksCleared) (f : ModeCtl → ModeCtl) : (p.modCtl f).TracksCleared where
  track := h.track
  code := h.code
  unbound := h.unbound

/-- Settles O18: power-on and a reset's taking clear both tracks, every last event and every group's binding, and what follows
in the taking raises no event but the one on MODE and binds no group. -/
theorem everyResetEmptiesTheTracks : Obligations.EveryResetEmptiesTheTracks := by
  intro i s cause h
  obtain ⟨next, taking, cleared⟩ := h.gives (P := Part.TracksCleared) Part.powerOn_tracksCleared Part.takeReset_tracksCleared
    (fun _ f h => h.modCtl f) (fun _ cause h => h.endReset cause) fun _ h => h.drive
  exact ⟨next, taking, fun t => ⟨cleared.track t, cleared.code t⟩, cleared.unbound⟩

end Sys2Proof.Machine
end

section
/-! PROOFS. IDENTIFY (R173): requests whose judge leaves the part as the frame's taking does, the tier field's refusal (R29), and
the bytes of the identity record. -/

namespace Sys2Proof.Machine

/-! ### Requests that change nothing, and tiers out of range -/

/-- R29: a fitting body with a tier field above 7 is refused at RANGE, whatever the request's own conditions are. -/
theorem Part.verdictOf_tier_above {p : Part} {l : Link} {tier : Byte} {body : List Byte} {fits : List Byte → Bool}
    (judge : Judge) (hf : fits body = true) (ht : 7 < tier.toNat) :
    p.verdictOf l tier body fits judge = .refused .range 0xFF := by
  simp [Part.verdictOf, refuseIf, noIndex, hf, ht]

/-- R170 to R172: a request that is accepted on the part as its frame's taking leaves it changes nothing but by that taking and
the reply. -/
theorem Part.answered_answers (p : Part) (l : Link) (kind : Byte) (data : List Byte) :
    p.Answers ((p.frameTaken l).answer l kind .ok 0xFF data) l kind data
      [.channels, .ports, .groups, .queues, .clock, .tracks, .codes] := by
  refine ⟨Part.answered_served kind data rfl (p.frameTaken_link_other l) (p.frameTaken_ctl l), fun b hb => ?_⟩
  simp only [List.mem_cons, List.not_mem_nil, or_false] at hb
  rcases hb with rfl | rfl | rfl | rfl | rfl | rfl | rfl <;> simp [Block.Kept]

/-! ### The identity record (R173) -/

/-- The taking of a frame changes nothing that the identity record shows. -/
@[simp] theorem Part.frameTaken_identity (p : Part) (l m : Link) : (p.frameTaken l).identity m = p.identity m := by
  cases l <;> rfl

/-- R1, R187: the channel count as a byte. -/
theorem Part.byteOf_chanCount (p : Part) : byteOf p.chanCount = if p.ctl.straps.sixteen then 16 else 8 := by
  unfold Part.chanCount
  split <;> rfl

/-- R187: the code of a link. -/
theorem linkCode_eq (l : Link) : linkCode l = if l = .a then 1 else 2 := by cases l <;> rfl

/-! ### The request (R173) -/

theorem exec_identify (l : Link) (tier : Byte) (body : List Byte) (s : State) :
    exec (.identify l tier body) s =
      .next { s with part := s.part.request l 0x01 tier body (lengthIs 0) judgeIdentify } := rfl

/-- R173: at a tier the tier field knows, IDENTIFY has no condition: the identity record as it stands is its reply, and nothing
else changes. -/
theorem Part.request_identify_answers {p : Part} {l : Link} {tier : Byte} (h : p.Ready l) (ht : tier.toNat ≤ 7) :
    p.Answers (p.request l 0x01 tier [] (lengthIs 0) judgeIdentify) l 0x01 (p.identity l)
      [.channels, .ports, .groups, .queues, .clock, .tracks, .codes] := by
  have accepted : (p.frameTaken l).verdictOf l tier [] (lengthIs 0) judgeIdentify
      = .accepted (p.identity l) (p.frameTaken l) := by
    rw [Part.verdictOf_fits judgeIdentify rfl ht, judgeIdentify, Part.frameTaken_identity]
  rw [Part.request_accepts h (Nat.zero_le _) accepted]
  exact p.answered_answers l 0x01 (p.identity l)

/-- Settles O24: IDENTIFY is accepted with the identity record, whose bytes are those the rule lists, or refused for its tier
field, which is all that is judged of it. -/
theorem identifyAnswersWithTheRecord : Obligations.IdentifyAnswersWithTheRecord := by
  intro l tier s ready
  refine ⟨fun ht => ⟨_, exec_identify l tier [] s, ?_⟩, fun ht => ⟨_, exec_identify l tier [] s, ?_⟩⟩
  · have answered := Part.request_identify_answers ready ht
    rw [Part.identity, Part.byteOf_chanCount, linkCode_eq] at answered
    exact answered
  · exact Part.request_refuses ready (Nat.zero_le _) (Part.verdictOf_tier_above judgeIdentify rfl ht)

end Sys2Proof.Machine
end

section
set_option Elab.async false
/-! PROOFS. What the takings keep. p.Upholds q: every law of the part that holds of p holds of q. The elementary writes of the
model's operations uphold the laws, each under the conditions its rule gives. -/

namespace Sys2Proof.Machine

/-! ### The laws, block by block -/

/-- R114, R125: the law of one cue queue. -/
def CueQueue.Law (x : CueQueue) : Prop :=
  x.cues.length ≤ 8 ∧ (x.cues.map (·.number)).Nodup ∧ (x.cues = [] → x.arming = .none ∧ x.blocked = false)
    ∧ (x.dwellTimer.isSome = true ↔ x.arming = .dwelling)

/-- R135: the law of one track. -/
def Track.Law (x : Track) : Prop := x.waypoints.length ≤ 32 ∧ ∀ w ∈ x.waypoints.dropLast, w.last = false

/-- R175: the law of one link. -/
def LinkIf.Law (x : LinkIf) : Prop := x.attention = !x.pending.isEmpty ∧ x.pending.Nodup

/-- R151, R152, R166: the law of the Mode Controller. -/
def ModeCtl.Law (m : ModeCtl) : Prop :=
  m.mainPower = (!m.held && (m.mode == .standby || m.mode == .armed))
    ∧ (m.estop = true → m.held = false → m.mode = .halted)
    ∧ (m.powerGoodTimer.isSome = true → m.mainPower = true ∧ m.powerGood = false)

/-- R8, R10, R39: the law of one channel's mover, for a channel that exists or not. -/
def Channel.Standing (there : Bool) (x : Channel) : Prop :=
  (x.state ∈ [ChannelState.starting, .moving, .holding] → x.mover ≠ .none)
    ∧ (x.mover ≠ .none → there = true ∧ x.state ≠ .idle ∧ x.state ≠ .absent)
    ∧ (x.pendingRelease.isSome = true → x.state = .stopping ∧ x.mover ≠ .none)
    ∧ (x.jog.isSome = true ↔ ∃ l, x.mover = .jog l)
    ∧ ∀ l, x.mover = .jog l → x.owner = some l

theorem Part.moverLaw_iff (p : Part) (c : Chan) : p.MoverLaw c ↔ (p.chan c).Standing (p.hasChan c) := Iff.rfl

/-- R8, R39, R47, R68, R136: the laws of the lane lists and of movers, owners and bound tracks, which hold together. -/
def Part.Lawful (p : Part) : Prop := p.LaneListLaw ∧ p.OwnershipLaw

theorem Part.Lawful.lanes {p : Part} (h : p.Lawful) : p.LaneListLaw := h.1
theorem Part.Lawful.standing {p : Part} (h : p.Lawful) (c : Chan) : (p.chan c).Standing (p.hasChan c) := h.2.1 c
theorem Part.Lawful.move {p : Part} (h : p.Lawful) (g : Grp) : p.MoveLaw g := h.2.2.1 g
theorem Part.Lawful.binding {p : Part} (h : p.Lawful) (t : Trk) : p.BindingLaw t := h.2.2.2 t

theorem Part.Lawful.intro {p : Part} (lanes : p.LaneListLaw) (standing : ∀ c, (p.chan c).Standing (p.hasChan c))
    (move : ∀ g, p.MoveLaw g) (binding : ∀ t, p.BindingLaw t) : p.Lawful := ⟨lanes, standing, move, binding⟩

/-! ### Takings that uphold the laws -/

/-- R169, R175: an update of a link that keeps its law, and leaves a HUNTING link HUNTING. -/
structure LinkIf.Upheld (x y : LinkIf) : Prop where
  law : x.Law → y.Law
  hunting : x.assembler = .hunting → y.assembler = .hunting

theorem LinkIf.Upheld.refl (x : LinkIf) : x.Upheld x := ⟨id, id⟩

theorem LinkIf.Upheld.of_eq {x y : LinkIf} (h : y = x) : x.Upheld y := h ▸ .refl x

theorem LinkIf.Upheld.trans {x y z : LinkIf} (h : x.Upheld y) (k : y.Upheld z) : x.Upheld z :=
  ⟨k.law ∘ h.law, k.hunting ∘ h.hunting⟩

/-- Every law of a single record that holds of p holds of q. The power law is kept out of line reset, and no line reset begins. -/
structure Part.UpholdsEach (p q : Part) : Prop where
  record : p.RecordLaw → q.RecordLaw
  queue : p.QueueLaw → q.QueueLaw
  track : p.TrackLaw → q.TrackLaw
  link : ∀ l, (p.link l).Upheld (q.link l)
  held : p.ctl.held = false → q.ctl.held = false
  power : p.ctl.held = false → p.ctl.Law → q.ctl.Law

/-- Every law that holds of p holds of q. -/
structure Part.Upholds (p q : Part) : Prop extends p.UpholdsEach q where
  lawful : p.Lawful → q.Lawful

theorem Part.UpholdsEach.attention {p q : Part} (h : p.UpholdsEach q) (law : p.AttentionLaw) : q.AttentionLaw :=
  fun l => (h.link l).law (law l)

theorem Part.UpholdsEach.refl (p : Part) : p.UpholdsEach p := ⟨id, id, id, fun _ => .refl _, id, fun _ => id⟩

theorem Part.UpholdsEach.trans {p q r : Part} (h : p.UpholdsEach q) (k : q.UpholdsEach r) : p.UpholdsEach r where
  record := k.record ∘ h.record
  queue := k.queue ∘ h.queue
  track := k.track ∘ h.track
  link l := (h.link l).trans (k.link l)
  held := k.held ∘ h.held
  power free law := k.power (h.held free) (h.power free law)

theorem Part.Upholds.refl (p : Part) : p.Upholds p := ⟨.refl p, id⟩

theorem Part.Upholds.trans {p q r : Part} (h : p.Upholds q) (k : q.Upholds r) : p.Upholds r :=
  ⟨h.toUpholdsEach.trans k.toUpholdsEach, k.lawful ∘ h.lawful⟩

theorem Part.Upholds.of_eq {p q : Part} (h : q = p) : p.Upholds q := h ▸ .refl p

theorem Part.UpholdsEach.forEach {α : Type} {p q : Part} (h : p.UpholdsEach q) (l : List α) (f : Part → α → Part)
    (turn : ∀ (q : Part) x, x ∈ l → q.UpholdsEach (f q x)) : p.UpholdsEach (q.forEach l f) :=
  Part.forEach_inv (P := fun r => p.UpholdsEach r) h fun q x hx hq => hq.trans (turn q x hx)

/-- A loop whose turns keep the laws where the loop's own invariant holds. -/
theorem Part.Upholds.forEach_inv {α : Type} (P : Part → Prop) {p q : Part} (h : p.Upholds q) (l : List α)
    (f : Part → α → Part) (start : P q) (turn : ∀ (q : Part) x, x ∈ l → P q → q.Upholds (f q x) ∧ P (f q x)) :
    p.Upholds (q.forEach l f) :=
  (Part.forEach_inv (P := fun r => p.Upholds r ∧ P r) ⟨h, start⟩ fun q x hx hq =>
    ⟨hq.1.trans (turn q x hx hq.2).1, (turn q x hx hq.2).2⟩).1

/-- A loop of turns that keep the laws keeps them. -/
theorem Part.Upholds.forEach {α : Type} {p q : Part} (h : p.Upholds q) (l : List α) (f : Part → α → Part)
    (turn : ∀ (q : Part) x, x ∈ l → q.Upholds (f q x)) : p.Upholds (q.forEach l f) :=
  h.forEach_inv (fun _ => True) l f trivial fun q x hx _ => ⟨turn q x hx, trivial⟩

theorem Part.Upholds.ite {p q r : Part} {b : Prop} [Decidable b] (h : b → p.Upholds q) (k : ¬b → p.Upholds r) :
    p.Upholds (if b then q else r) := by
  split
  · next hb => exact h hb
  · next hb => exact k hb

/-! ### Updates of blocks that no two laws share -/

/-- The laws of movers and lane lists read channels, groups and tracks, and which channels exist. -/
theorem Part.Lawful.of_same {p q : Part} (h : p.Lawful) (channels : q.channels = p.channels) (groups : q.groups = p.groups)
    (tracks : q.tracks = p.tracks) (straps : q.ctl.straps = p.ctl.straps) : q.Lawful := by
  have chan (c) : q.chan c = p.chan c := by simp only [Part.chan, channels]
  have group (g) : q.group g = p.group g := by simp only [Part.group, groups]
  have track (t) : q.track t = p.track t := by simp only [Part.track, tracks]
  have there (c) : q.hasChan c = p.hasChan c := by unfold Part.hasChan Part.chanCount; rw [straps]
  simpa only [Part.Lawful, Part.LaneListLaw, Part.LegalLanes, Part.OwnershipLaw, Part.MoverLaw, Part.MoveLaw,
    Part.BindingLaw, chan, group, track, there] using h

/-- An update that leaves channels, groups, tracks and straps has to keep the laws of queues, links and modes alone. -/
theorem Part.Upholds.of_same {p q : Part} (channels : q.channels = p.channels) (groups : q.groups = p.groups)
    (tracks : q.tracks = p.tracks) (queue : p.QueueLaw → q.QueueLaw) (link : ∀ l, (p.link l).Upheld (q.link l))
    (straps : q.ctl.straps = p.ctl.straps) (held : q.ctl.held = p.ctl.held)
    (power : p.ctl.held = false → p.ctl.Law → q.ctl.Law) : p.Upholds q where
  record h c := by simpa only [Part.chan, channels] using h c
  queue := queue
  track h t := by simpa only [Part.track, tracks] using h t
  link := link
  held h := held.trans h
  power := power
  lawful h := h.of_same channels groups tracks straps

theorem Part.Upholds.setPort (p : Part) (c : Chan) (x : Port) : p.Upholds (p.setPort c x) :=
  .of_same rfl rfl rfl id (fun l => .of_eq (by simp)) rfl rfl fun _ => id

theorem Part.Upholds.draw (p : Part) (n : Nat) : p.Upholds (p.draw n) := .of_same rfl rfl rfl id (fun l => .of_eq (by simp)) rfl rfl fun _ => id

theorem Part.Upholds.setClock (p : Part) (v : Nat) (r : Bool) : p.Upholds (p.setClock v r) :=
  .of_same rfl rfl rfl id (fun l => .of_eq (by cases l <;> rfl)) rfl rfl fun _ => id

theorem Part.Upholds.drive (p : Part) : p.Upholds p.drive :=
  (Part.Upholds.forEach (.refl p) _ _ fun q c _ => .setPort q c _).trans (.draw _ _)

theorem Part.Upholds.setQueue {p : Part} {g : Grp} {x : CueQueue} (h : (p.queue g).Law → x.Law) :
    p.Upholds (p.setQueue g x) :=
  .of_same rfl rfl rfl (fun law k => by
    rw [Part.setQueue_queue]
    split
    · exact h (law g)
    · exact law k) (fun l => .of_eq (by simp)) rfl rfl fun _ => id

theorem Part.Upholds.modQueue {p : Part} {g : Grp} {f : CueQueue → CueQueue} (h : (p.queue g).Law → (f (p.queue g)).Law) :
    p.Upholds (p.modQueue g f) := .setQueue h

theorem Part.setLink_link (p : Part) (l m : Link) (x : LinkIf) :
    (p.setLink l x).link m = if m = l then x else p.link m := by
  cases l <;> cases m <;> rfl

theorem Part.Upholds.setLink {p : Part} {l : Link} {x : LinkIf} (h : (p.link l).Upheld x) : p.Upholds (p.setLink l x) :=
  .of_same (by simp) (by simp) (by simp) (fun law g => by simpa using law g) (fun m => by
    rw [Part.setLink_link]
    split
    · next e => exact e ▸ h
    · exact .refl _) (by simp) (by simp) fun _ => by simp

theorem Part.Upholds.modLink {p : Part} {l : Link} {f : LinkIf → LinkIf} (h : (p.link l).Upheld (f (p.link l))) :
    p.Upholds (p.modLink l f) := .setLink h

/-- An update of the Mode Controller, which keeps straps and line reset, upholds the laws where it keeps the power law. -/
theorem Part.Upholds.modCtl {p : Part} {f : ModeCtl → ModeCtl} (straps : (f p.ctl).straps = p.ctl.straps)
    (held : (f p.ctl).held = p.ctl.held) (power : p.ctl.held = false → p.ctl.Law → (f p.ctl).Law) : p.Upholds (p.modCtl f) :=
  .of_same rfl rfl rfl id (fun l => .of_eq (by simp)) straps held power

/-! ### Updates of one channel -/

/-- Movers and lanes after an update of one channel that keeps the group that moves it, and gives it a kind that the lanes it
stands in allow. -/
theorem Part.Lawful.rekindChan {p : Part} (h : p.Lawful) {c : Chan} {y : Channel}
    (kind : ∀ g, (p.group g).state ≠ .empty → ∀ ln ∈ (p.group g).lanes, ln.channel = c →
      y.kind ≠ .absent ∧ (y.kind = .fixedSpeed → ln.ratio = 0 ∨ 8 ≤ ln.ratio))
    (standing : y.Standing (p.hasChan c)) (moved : ∀ g, y.mover = .group g ↔ (p.chan c).mover = .group g)
    (owner : ∀ g, (p.chan c).mover = .group g → y.owner = (p.chan c).owner) : (p.setChan c y).Lawful := by
  have movers (d g) : ((p.setChan c y).chan d).mover = .group g ↔ (p.chan d).mover = .group g := by
    rw [Part.setChan_chan]; split
    · next e => rw [e]; exact moved g
    · rfl
  have owners (d g) (hm : (p.chan d).mover = .group g) : ((p.setChan c y).chan d).owner = (p.chan d).owner := by
    rw [Part.setChan_chan]; split
    · next e => subst e; exact owner g hm
    · rfl
  refine .intro (fun g hg => ?_) (fun d => ?_) (fun g => ?_) fun t => h.binding t
  · obtain ⟨one, eight, distinct, first, each⟩ := h.lanes g hg
    refine ⟨one, eight, distinct, first, fun ln hl => ?_⟩
    obtain ⟨there, present, most, ratio⟩ := each ln hl
    rw [Part.setChan_chan]
    split
    · next e => exact ⟨there, (kind g hg ln hl e).1, most, (kind g hg ln hl e).2⟩
    · exact ⟨there, present, most, ratio⟩
  · rw [Part.setChan_chan]
    split
    · next e => subst e; exact standing
    · exact h.standing d
  · obtain ⟨none, empty, entries, lanes, moved, timer⟩ := h.move g
    refine ⟨none, empty, entries, fun d hd => lanes d ((movers d g).mp hd), fun hs m hm ln hl => ?_, timer⟩
    obtain ⟨hmv, ho⟩ := moved hs m hm ln hl
    exact ⟨(movers _ _).mpr hmv, (owners _ g hmv).trans ho⟩

/-- Movers and lanes after an update of one channel that keeps its kind and the group that moves it. -/
theorem Part.Lawful.setChan {p : Part} (h : p.Lawful) {c : Chan} {y : Channel} (kind : y.kind = (p.chan c).kind)
    (standing : y.Standing (p.hasChan c)) (moved : ∀ g, y.mover = .group g ↔ (p.chan c).mover = .group g)
    (owner : ∀ g, (p.chan c).mover = .group g → y.owner = (p.chan c).owner) : (p.setChan c y).Lawful := by
  refine h.rekindChan (fun g hg ln hl e => ?_) standing moved owner
  obtain ⟨-, -, -, -, each⟩ := h.lanes g hg
  obtain ⟨-, present, -, ratio⟩ := each ln hl
  rw [kind, ← e]
  exact ⟨present, ratio⟩

/-- An update of one channel upholds the laws where it keeps the record law and the laws of movers and lanes. -/
theorem Part.UpholdsEach.setChan {p : Part} {c : Chan} {y : Channel} (record : (p.chan c).RecordLaw → y.RecordLaw) :
    p.UpholdsEach (p.setChan c y) where
  record h d := by
    rw [Part.setChan_chan]
    split
    · exact record (h c)
    · exact h d
  queue := id
  track := id
  link l := .of_eq (by simp)
  held := id
  power _ := id

theorem Part.Upholds.setChan {p : Part} {c : Chan} {y : Channel} (record : (p.chan c).RecordLaw → y.RecordLaw)
    (lawful : p.Lawful → (p.setChan c y).Lawful) : p.Upholds (p.setChan c y) := ⟨.setChan record, lawful⟩

/-- An update of a channel that leaves its kind, state, fault, pending release, mover, owner, and whether it is jogged. -/
structure Channel.Alike (x y : Channel) : Prop where
  kind : y.kind = x.kind
  state : y.state = x.state
  fault : y.fault = x.fault
  release : y.pendingRelease = x.pendingRelease
  mover : y.mover = x.mover
  jog : y.jog.isSome = x.jog.isSome
  owner : y.owner = x.owner

theorem Channel.Alike.refl (x : Channel) : x.Alike x := ⟨rfl, rfl, rfl, rfl, rfl, rfl, rfl⟩

theorem Channel.Alike.trans {x y z : Channel} (h : x.Alike y) (k : y.Alike z) : x.Alike z :=
  ⟨k.kind.trans h.kind, k.state.trans h.state, k.fault.trans h.fault, k.release.trans h.release, k.mover.trans h.mover,
    k.jog.trans h.jog, k.owner.trans h.owner⟩

theorem Channel.Alike.recordLaw {x y : Channel} (h : x.Alike y) (law : x.RecordLaw) : y.RecordLaw := by
  unfold Channel.RecordLaw
  rw [h.kind, h.state, h.fault]
  exact law

theorem Channel.Alike.standing {x y : Channel} (h : x.Alike y) {there : Bool} (law : x.Standing there) : y.Standing there := by
  unfold Channel.Standing
  rw [h.state, h.mover, h.release, h.jog, h.owner]
  exact law

theorem Part.Upholds.alike {p : Part} {c : Chan} {y : Channel} (h : (p.chan c).Alike y) : p.Upholds (p.setChan c y) :=
  .setChan h.recordLaw fun law => law.setChan h.kind (h.standing (law.standing c)) (fun g => by rw [h.mover]) fun _ _ => h.owner

theorem Part.Upholds.modAlike {p : Part} {c : Chan} {f : Channel → Channel} (h : (p.chan c).Alike (f (p.chan c))) :
    p.Upholds (p.modChan c f) := .alike h

theorem Channel.syncWatch_alike (x : Channel) : x.Alike x.syncWatch := by
  unfold Channel.syncWatch
  split
  · split <;> exact ⟨rfl, rfl, rfl, rfl, rfl, rfl, rfl⟩
  · exact ⟨rfl, rfl, rfl, rfl, rfl, rfl, rfl⟩

theorem Channel.armWatch_alike (on : Bool) (x : Channel) : x.Alike (x.armWatch on) :=
  .trans (y := { x with watchArmed := on }) ⟨rfl, rfl, rfl, rfl, rfl, rfl, rfl⟩ (Channel.syncWatch_alike _)

end Sys2Proof.Machine
end

section
set_option Elab.async false
/-! PROOFS. What the updates of a channel keep: the record law (R2, R101) and the law of its mover (R8, R10, R39). -/

namespace Sys2Proof.Machine

/-! ### The fields of a channel after a stop, a release and the end of a mover -/

theorem Channel.syncWatch_eq (x : Channel) :
    x.syncWatch = { x with progressMark := x.syncWatch.progressMark, progressTimer := x.syncWatch.progressTimer } := by
  unfold Channel.syncWatch
  split
  · split <;> rfl
  · rfl

@[simp] theorem Channel.syncWatch_kind (x : Channel) : x.syncWatch.kind = x.kind := by rw [syncWatch_eq]
@[simp] theorem Channel.syncWatch_state (x : Channel) : x.syncWatch.state = x.state := by rw [syncWatch_eq]
@[simp] theorem Channel.syncWatch_fault (x : Channel) : x.syncWatch.fault = x.fault := by rw [syncWatch_eq]
@[simp] theorem Channel.syncWatch_release (x : Channel) : x.syncWatch.pendingRelease = x.pendingRelease := by rw [syncWatch_eq]
@[simp] theorem Channel.syncWatch_mover (x : Channel) : x.syncWatch.mover = x.mover := by rw [syncWatch_eq]
@[simp] theorem Channel.syncWatch_jog (x : Channel) : x.syncWatch.jog = x.jog := by rw [syncWatch_eq]
@[simp] theorem Channel.syncWatch_owner (x : Channel) : x.syncWatch.owner = x.owner := by rw [syncWatch_eq]
@[simp] theorem Channel.syncWatch_config (x : Channel) : x.syncWatch.config = x.config := by rw [syncWatch_eq]

@[simp] theorem Channel.armWatch_kind (on : Bool) (x : Channel) : (x.armWatch on).kind = x.kind := by simp [armWatch]
@[simp] theorem Channel.armWatch_state (on : Bool) (x : Channel) : (x.armWatch on).state = x.state := by simp [armWatch]
@[simp] theorem Channel.armWatch_fault (on : Bool) (x : Channel) : (x.armWatch on).fault = x.fault := by simp [armWatch]
@[simp] theorem Channel.armWatch_release (on : Bool) (x : Channel) :
    (x.armWatch on).pendingRelease = x.pendingRelease := by simp [armWatch]
@[simp] theorem Channel.armWatch_mover (on : Bool) (x : Channel) : (x.armWatch on).mover = x.mover := by simp [armWatch]
@[simp] theorem Channel.armWatch_jog (on : Bool) (x : Channel) : (x.armWatch on).jog = x.jog := by simp [armWatch]
@[simp] theorem Channel.armWatch_owner (on : Bool) (x : Channel) : (x.armWatch on).owner = x.owner := by simp [armWatch]

@[simp] theorem Channel.toStopping_kind (x : Channel) : x.toStopping.kind = x.kind := by simp [toStopping]
@[simp] theorem Channel.toStopping_state (x : Channel) : x.toStopping.state = .stopping := by simp [toStopping]
@[simp] theorem Channel.toStopping_fault (x : Channel) : x.toStopping.fault = x.fault := by simp [toStopping]
@[simp] theorem Channel.toStopping_release (x : Channel) : x.toStopping.pendingRelease = none := by simp [toStopping]
@[simp] theorem Channel.toStopping_mover (x : Channel) : x.toStopping.mover = x.mover := by simp [toStopping]
@[simp] theorem Channel.toStopping_jog (x : Channel) : x.toStopping.jog = x.jog := by simp [toStopping]
@[simp] theorem Channel.toStopping_owner (x : Channel) : x.toStopping.owner = x.owner := by simp [toStopping]

@[simp] theorem Channel.start_kind (d : Dir) (v : Nat) (x : Channel) : (x.start d v).kind = x.kind := by simp [start]
@[simp] theorem Channel.start_state (d : Dir) (v : Nat) (x : Channel) : (x.start d v).state = .starting := by simp [start]
@[simp] theorem Channel.start_fault (d : Dir) (v : Nat) (x : Channel) : (x.start d v).fault = x.fault := by simp [start]
@[simp] theorem Channel.start_release (d : Dir) (v : Nat) (x : Channel) : (x.start d v).pendingRelease = none := by
  simp [start]
@[simp] theorem Channel.start_mover (d : Dir) (v : Nat) (x : Channel) : (x.start d v).mover = x.mover := by simp [start]
@[simp] theorem Channel.start_jog (d : Dir) (v : Nat) (x : Channel) : (x.start d v).jog = x.jog := by simp [start]
@[simp] theorem Channel.start_owner (d : Dir) (v : Nat) (x : Channel) : (x.start d v).owner = x.owner := by simp [start]

@[simp] theorem Channel.stop_kind (x : Channel) : x.stop.kind = x.kind := by unfold stop; split <;> simp
@[simp] theorem Channel.stop_fault (x : Channel) : x.stop.fault = x.fault := by unfold stop; split <;> simp
@[simp] theorem Channel.stop_mover (x : Channel) : x.stop.mover = x.mover := by unfold stop; split <;> simp
@[simp] theorem Channel.stop_jog (x : Channel) : x.stop.jog = x.jog := by unfold stop; split <;> simp
@[simp] theorem Channel.stop_owner (x : Channel) : x.stop.owner = x.owner := by unfold stop; split <;> simp

@[simp] theorem Channel.release_kind (d : Dir) (v : Nat) (x : Channel) : (x.release d v).kind = x.kind := by
  unfold release; split <;> (try split) <;> simp
@[simp] theorem Channel.release_fault (d : Dir) (v : Nat) (x : Channel) : (x.release d v).fault = x.fault := by
  unfold release; split <;> (try split) <;> simp
@[simp] theorem Channel.release_mover (d : Dir) (v : Nat) (x : Channel) : (x.release d v).mover = x.mover := by
  unfold release; split <;> (try split) <;> simp
@[simp] theorem Channel.release_jog (d : Dir) (v : Nat) (x : Channel) : (x.release d v).jog = x.jog := by
  unfold release; split <;> (try split) <;> simp
@[simp] theorem Channel.release_owner (d : Dir) (v : Nat) (x : Channel) : (x.release d v).owner = x.owner := by
  unfold release; split <;> (try split) <;> simp

@[simp] theorem Channel.dropMover_kind (x : Channel) : x.dropMover.kind = x.kind := by simp [dropMover]
@[simp] theorem Channel.dropMover_fault (x : Channel) : x.dropMover.fault = x.fault := by simp [dropMover]
@[simp] theorem Channel.dropMover_mover (x : Channel) : x.dropMover.mover = .none := by simp [dropMover]
@[simp] theorem Channel.dropMover_jog (x : Channel) : x.dropMover.jog = none := by simp [dropMover]
@[simp] theorem Channel.dropMover_release (x : Channel) : x.dropMover.pendingRelease = none := by simp [dropMover]
@[simp] theorem Channel.dropMover_state (x : Channel) :
    x.dropMover.state = if x.state = .holding then .idle else x.state := by simp [dropMover]

/-- R12: the state in which a stop leaves a channel. -/
theorem Channel.stop_state (x : Channel) :
    x.stop.state = if x.state = .starting ∨ x.state = .moving then .stopping else x.state := by
  unfold stop; cases h : x.state <;> simp [h]

/-- R12: a stop leaves no release pending, unless the channel is at rest and none was. -/
theorem Channel.stop_release (x : Channel) :
    x.stop.pendingRelease =
      if x.state = .starting ∨ x.state = .moving ∨ x.state = .stopping then none else x.pendingRelease := by
  unfold stop; cases h : x.state <;> simp

/-! ### The record law (R2, R101) -/

/-- The record law over a change of state that makes no channel ABSENT and leaves its fault record. -/
theorem Channel.RecordLaw.change {x y : Channel} (h : x.RecordLaw) (kind : y.kind = x.kind) (fault : y.fault = x.fault)
    (absent : y.state = .absent ↔ x.state = .absent) (faulted : y.state = .faulted → x.fault.isSome = true)
    (record : x.fault.isSome = true → y.state = .faulted ∨ y.state = .stopping) : y.RecordLaw := by
  obtain ⟨kinds, -, -, further⟩ := h
  refine ⟨by rw [kind, absent, kinds], ?_, ?_, ?_⟩
  · rw [fault]; exact faulted
  · rw [fault]; exact record
  · rw [fault]; exact further

/-- A channel that is neither FAULTED nor STOPPING has no fault record. -/
theorem Channel.RecordLaw.no_fault {x : Channel} (h : x.RecordLaw) (hf : x.state ≠ .faulted) (hs : x.state ≠ .stopping) :
    x.fault = none := by
  obtain ⟨-, -, record, -⟩ := h
  by_contra hne
  rcases record (Option.isSome_iff_ne_none.mpr hne) with e | e
  · exact hf e
  · exact hs e

theorem Channel.stop_recordLaw {x : Channel} (h : x.RecordLaw) : x.stop.RecordLaw := by
  obtain ⟨-, faulted, record, -⟩ := id h
  refine h.change (by simp) (by simp) ?_ ?_ fun hf => ?_
  all_goals rw [stop_state]; split
  · next e => rcases e with e | e <;> simp [e]
  · rfl
  · simp
  · exact faulted
  · exact .inr rfl
  · exact record hf

theorem Channel.dropMover_recordLaw {x : Channel} (h : x.RecordLaw) : x.dropMover.RecordLaw := by
  obtain ⟨-, faulted, record, -⟩ := id h
  refine h.change (by simp) (by simp) ?_ ?_ fun hf => ?_
  · rw [dropMover_state]; split <;> simp_all
  · rw [dropMover_state]; split <;> simp_all
  · rw [dropMover_state]; split <;> simp_all

/-- A channel that starts had no fault record, when it was IDLE or HOLDING, or its stop has found none. -/
theorem Channel.start_recordLaw {x : Channel} (h : x.RecordLaw) (there : x.state ≠ .absent) (none : x.fault = none) (d : Dir)
    (v : Nat) : (x.start d v).RecordLaw :=
  h.change (by simp) (by simp) (by simp [there]) (by simp) (by simp [none])

theorem Channel.release_recordLaw {x : Channel} (h : x.RecordLaw) (d : Dir) (v : Nat) : (x.release d v).RecordLaw := by
  have started (e : x.state = .idle ∨ x.state = .holding) : (x.start d v).RecordLaw := by
    rcases e with e | e <;> exact start_recordLaw h (by simp [e]) (h.no_fault (by simp [e]) (by simp [e])) d v
  obtain ⟨-, faulted, record, -⟩ := id h
  unfold release
  split
  case h_1 e => exact started (.inl e)
  case h_2 e => exact started (.inr e)
  case h_3 e | h_4 e =>
    split
    · exact h.change rfl rfl Iff.rfl faulted record
    · exact h.change (by simp) (by simp) (by simp [e]) (by simp) (by simp)
  case h_5 e =>
    split
    · exact h.change rfl rfl Iff.rfl faulted record
    · exact h
  all_goals exact h

/-- R13, R14: a standstill ends the settling and the STOPPING of a channel. -/
theorem Channel.standstill_recordLaw {x : Channel} (h : x.RecordLaw) : x.standstill.RecordLaw := by
  have left (y : Channel) (hy : y.RecordLaw) (e : y.state = .stopping) : y.leaveStopping.RecordLaw := by
    unfold leaveStopping
    dsimp only
    split
    · next hf => exact hy.change rfl rfl (by simp [e]) (fun _ => hf) fun _ => .inl rfl
    · next hf =>
      have none : y.fault = none := by simpa using hf
      have hz : ({ y with standstillTimer := Option.none, rest := y.raw } : Channel).RecordLaw := hy
      split
      · exact start_recordLaw hz (by simp [e]) none _ _
      · split <;> exact hy.change rfl rfl (by simp [e]) (by simp) (by simp [none])
  unfold standstill
  dsimp only
  split <;> split
  · next e => exact left _ h e
  · exact h
  · next e => exact left _ h e
  · exact h

/-- R11: a STARTING channel that is confirmed is MOVING. -/
theorem Channel.toMoving_recordLaw {x : Channel} (h : x.RecordLaw) (e : x.state = .starting) : x.toMoving.RecordLaw :=
  h.change (by simp [toMoving]) (by simp [toMoving]) (by simp [toMoving, e]) (by simp [toMoving])
    (by simp [h.no_fault (x := x) (by simp [e]) (by simp [e])])

theorem mem_addKind (k j : FaultKind) (l : List FaultKind) : j ∈ addKind k l ↔ j = k ∨ j ∈ l := by
  have : j ∈ FaultKind.all := by cases j <;> decide
  simp [addKind, this]

theorem addKind_nodup (k : FaultKind) (l : List FaultKind) : (addKind k l).Nodup :=
  List.Nodup.filter _ (by decide)

/-- R17, R101: a new fault of a configured channel enters its record and leaves the channel STOPPING or FAULTED. -/
theorem Channel.fault_recordLaw {x : Channel} (h : x.RecordLaw) {k : FaultKind} (configured : x.configured = true)
    (new : x.holdsFault k = false) : (x.enterFault k).faultState.RecordLaw := by
  obtain ⟨kinds, faulted, record, further⟩ := h
  have there : x.state ≠ .absent := fun e => by simp [Channel.configured, kinds.mpr e] at configured
  have entered : (x.enterFault k).fault.isSome = true ∧ (x.enterFault k).kind = x.kind ∧ (x.enterFault k).state = x.state
      ∧ ∀ r, (x.enterFault k).fault = some r → r.further.Nodup ∧ r.first ∉ r.further := by
    unfold enterFault
    cases e : x.fault with
    | none => exact ⟨rfl, rfl, rfl, fun r hr => by cases hr; simp⟩
    | some r =>
      refine ⟨rfl, rfl, rfl, fun r' hr => ?_⟩
      cases hr
      refine ⟨addKind_nodup _ _, ?_⟩
      rw [mem_addKind, not_or]
      refine ⟨fun e' => ?_, (further r e).2⟩
      simp only [Channel.holdsFault, e, FaultRecord.holds, Bool.or_eq_false_iff, beq_eq_false_iff_ne] at new
      exact new.1 e'
  generalize x.enterFault k = y at entered
  obtain ⟨some, kind, state, set⟩ := entered
  have stop : ∀ z : Channel, z.kind = y.kind → z.fault = y.fault → z.state = .stopping ∨ z.state = .faulted → z.RecordLaw := by
    intro z hk hf hs
    refine ⟨?_, fun _ => hf ▸ some, fun _ => hs.symm, fun r hr => set r (hf ▸ hr)⟩
    rw [hk, kind, kinds]
    rcases hs with e | e <;> simp [there, e]
  unfold faultState
  split
  case h_1 | h_2 | h_3 => exact stop _ (by simp) (by simp) (.inl (by simp))
  case h_4 => exact stop _ rfl rfl (.inr rfl)
  case h_5 e => exact stop _ rfl rfl (.inl e)
  case h_6 e => exact absurd (state ▸ e) there
  case h_7 e => exact stop _ rfl rfl (.inr e)

/-- R17, R106: a cleared channel has no record and is not FAULTED. -/
theorem Channel.clearFault_recordLaw {x : Channel} (h : x.RecordLaw) : x.clearFault.RecordLaw := by
  obtain ⟨kinds, -, -, -⟩ := h
  refine ⟨?_, ?_, by simp [clearFault], by simp [clearFault]⟩
  · simp only [clearFault, kinds]
    split
    · next e => split <;> simp [e]
    · rfl
  · simp only [clearFault]
    split
    · split <;> simp
    · next e => exact fun e' => absurd e' e

/-! ### The law of the mover (R8, R10, R39) -/

theorem Channel.stop_standing {x : Channel} {there : Bool} (h : x.Standing there) : x.stop.Standing there := by
  obtain ⟨moving, moved, release, jog, owner⟩ := h
  refine ⟨?_, ?_, ?_, by simpa using jog, by simpa using owner⟩
  · rw [stop_state, stop_mover]
    split
    · simp
    · exact moving
  · rw [stop_state, stop_mover]
    intro hm
    obtain ⟨ht, hi, ha⟩ := moved hm
    refine ⟨ht, ?_⟩
    split
    · simp
    · exact ⟨hi, ha⟩
  · rw [stop_release, stop_state, stop_mover]
    split
    · simp
    · next e =>
      intro hr
      exact absurd (release hr).1 fun e' => e (.inr (.inr e'))

/-- R8: a channel that is not running loses its mover. -/
theorem Channel.dropMover_standing {x : Channel} (hs : x.state ≠ .starting) (hm : x.state ≠ .moving) (there : Bool) :
    x.dropMover.Standing there := by
  refine ⟨?_, by simp, by simp, by simp, by simp⟩
  rw [dropMover_state]
  split
  · simp
  · next e => simp [hs, hm, e]

/-- R10: a release from the mover of a channel. -/
theorem Channel.release_standing {x : Channel} {there : Bool} (h : x.Standing there) (hm : x.mover ≠ .none) (d : Dir)
    (v : Nat) : (x.release d v).Standing there := by
  obtain ⟨moving, moved, release, jog, owner⟩ := h
  obtain ⟨ht, -, -⟩ := moved hm
  have changed (y : Channel) (mover : y.mover = x.mover) (hj : y.jog = x.jog) (ho : y.owner = x.owner)
      (state : y.state ≠ .idle ∧ y.state ≠ .absent) (hr : y.pendingRelease.isSome = true → y.state = .stopping) :
      y.Standing there := by
    refine ⟨fun _ => mover ▸ hm, fun _ => ⟨ht, state⟩, fun h => ⟨hr h, mover ▸ hm⟩, ?_, ?_⟩
    · rw [mover, hj]; exact jog
    · rw [mover, ho]; exact owner
  have unchanged : x.Standing there := ⟨moving, moved, release, jog, owner⟩
  unfold Channel.release
  split
  case h_1 | h_2 => exact changed _ (by simp) (by simp) (by simp) (by simp) (by simp)
  case h_3 e | h_4 e =>
    split
    · exact changed _ rfl rfl rfl (by simp [e]) fun hr => (release hr).1
    · exact changed _ (by simp) (by simp) (by simp) (by simp) (by simp)
  case h_5 e =>
    split
    · exact changed _ rfl rfl rfl (by simp [e]) fun _ => e
    · exact unchanged
  all_goals exact unchanged

/-- R14: a channel leaves STOPPING to the state its mover and its pending release give. -/
theorem Channel.standstill_standing {x : Channel} {there : Bool} (h : x.Standing there) : x.standstill.Standing there := by
  have left (y : Channel) (h : y.Standing there) (e : y.state = .stopping) : y.leaveStopping.Standing there := by
    obtain ⟨moving, moved, release, jog, owner⟩ := h
    unfold leaveStopping
    dsimp only
    split
    · exact ⟨by simp, fun hm => ⟨(moved hm).1, by simp, by simp⟩, by simp, jog, owner⟩
    · split
      · next r hr =>
        have hm : y.mover ≠ .none := (release (by simp [hr])).2
        exact ⟨fun _ => by simpa using hm, fun _ => ⟨(moved hm).1, by simp, by simp⟩, by simp, by simpa using jog,
          by simpa using owner⟩
      · next hr =>
        split
        · next hm => exact ⟨by simp, fun h => absurd hm h, by simp [hr], jog, owner⟩
        · next hm => exact ⟨fun _ => hm, fun _ => ⟨(moved hm).1, by simp, by simp⟩, by simp [hr], jog, owner⟩
  unfold standstill
  dsimp only
  split <;> split
  · next e => exact left _ h e
  · exact h
  · next e => exact left _ h e
  · exact h

theorem Channel.toMoving_standing {x : Channel} {there : Bool} (h : x.Standing there) (e : x.state = .starting) :
    x.toMoving.Standing there := by
  obtain ⟨moving, moved, release, jog, owner⟩ := h
  have hm : x.mover ≠ .none := moving (by simp [e])
  have hr : x.pendingRelease.isSome = false :=
    Bool.eq_false_iff.mpr fun hr => by simpa [e] using (release hr).1
  refine ⟨fun _ => by simpa [toMoving] using hm, fun _ => ⟨(moved hm).1, by simp [toMoving], by simp [toMoving]⟩, ?_,
    by simpa [toMoving] using jog, by simpa [toMoving] using owner⟩
  simp [toMoving, hr]

/-- R17: a fault leaves the mover. -/
theorem Channel.faultState_standing {x : Channel} {there : Bool} (h : x.Standing there) : x.faultState.Standing there := by
  obtain ⟨moving, moved, release, jog, owner⟩ := h
  have unchanged : x.Standing there := ⟨moving, moved, release, jog, owner⟩
  unfold faultState
  split
  case h_1 | h_2 | h_3 =>
    refine ⟨by simp, fun hm => ⟨(moved (by simpa using hm)).1, by simp, by simp⟩, by simp, by simpa using jog,
      by simpa using owner⟩
  case h_4 e =>
    have hm : ¬x.mover ≠ .none := fun hm => (moved hm).2.1 e
    have hr : ¬x.pendingRelease.isSome = true := fun hr => hm (release hr).2
    exact ⟨by simp, fun h => absurd h hm, fun h => absurd h hr, jog, owner⟩
  case h_5 e => exact ⟨moving, moved, by simp, jog, owner⟩
  all_goals exact unchanged

theorem Channel.enterFault_alike_but_fault (k : FaultKind) (x : Channel) :
    x.enterFault k = { x with fault := (x.enterFault k).fault } := by
  unfold enterFault; split <;> rfl

@[simp] theorem Channel.enterFault_kind (k : FaultKind) (x : Channel) : (x.enterFault k).kind = x.kind := by
  rw [enterFault_alike_but_fault]
@[simp] theorem Channel.enterFault_state (k : FaultKind) (x : Channel) : (x.enterFault k).state = x.state := by
  rw [enterFault_alike_but_fault]
@[simp] theorem Channel.enterFault_mover (k : FaultKind) (x : Channel) : (x.enterFault k).mover = x.mover := by
  rw [enterFault_alike_but_fault]
@[simp] theorem Channel.enterFault_owner (k : FaultKind) (x : Channel) : (x.enterFault k).owner = x.owner := by
  rw [enterFault_alike_but_fault]

@[simp] theorem Channel.faultState_kind (x : Channel) : x.faultState.kind = x.kind := by unfold faultState; split <;> simp
@[simp] theorem Channel.faultState_fault (x : Channel) : x.faultState.fault = x.fault := by unfold faultState; split <;> simp
@[simp] theorem Channel.faultState_mover (x : Channel) : x.faultState.mover = x.mover := by unfold faultState; split <;> simp
@[simp] theorem Channel.faultState_owner (x : Channel) : x.faultState.owner = x.owner := by unfold faultState; split <;> simp

theorem Channel.fault_standing {x : Channel} {there : Bool} (h : x.Standing there) (k : FaultKind) :
    (x.enterFault k).faultState.Standing there := by
  rw [enterFault_alike_but_fault]
  exact faultState_standing (x := { x with fault := _ }) h

/-- R17, R106: a FAULTED channel whose record is cleared is HOLDING for its mover, or IDLE. -/
theorem Channel.clearFault_standing {x : Channel} {there : Bool} (h : x.Standing there) : x.clearFault.Standing there := by
  obtain ⟨moving, moved, release, jog, owner⟩ := h
  by_cases e : x.state = .faulted
  · have hr : ¬x.pendingRelease.isSome = true := fun hr => by simpa [e] using (release hr).1
    by_cases hm : x.mover = .none
    · exact ⟨by simp [clearFault, e, hm], fun h => absurd hm h, fun h => absurd h hr, jog, owner⟩
    · exact ⟨fun _ => hm, fun _ => ⟨(moved hm).1, by simp [clearFault, e, hm], by simp [clearFault, e, hm]⟩,
        fun h => absurd h hr, jog, owner⟩
  · have state : x.clearFault.state = x.state := if_neg e
    unfold Standing
    rw [state]
    exact ⟨moving, moved, release, jog, owner⟩

/-! ### Sound updates of a channel -/

theorem Part.Upholds.stop (p : Part) (c : Chan) : p.Upholds (p.modChan c Channel.stop) :=
  .setChan Channel.stop_recordLaw fun h =>
    h.setChan (by simp) (Channel.stop_standing (h.standing c)) (by simp) (by simp)

/-- A stop that disarms or arms the watch. -/
theorem Part.Upholds.stopArm (p : Part) (c : Chan) (on : Bool) : p.Upholds (p.modChan c fun x => x.stop.armWatch on) :=
  .setChan (fun h => (Channel.armWatch_alike on _).recordLaw (Channel.stop_recordLaw h)) fun h =>
    h.setChan (by simp) ((Channel.armWatch_alike on _).standing (Channel.stop_standing (h.standing c))) (by simp) (by simp)

/-- A release by the mover, which arms or disarms the watch. -/
theorem Part.Upholds.releaseArm {p : Part} {c : Chan} (moved : p.Lawful → (p.chan c).mover ≠ .none) (d : Dir) (v : Nat)
    (on : Bool) : p.Upholds (p.modChan c fun x => (x.release d v).armWatch on) :=
  .setChan (fun h => (Channel.armWatch_alike on _).recordLaw (Channel.release_recordLaw h d v)) fun h =>
    h.setChan (by simp) ((Channel.armWatch_alike on _).standing (Channel.release_standing (h.standing c) (moved h) d v))
      (by simp) (by simp)

/-- R23: the end of a jog at its channel. -/
theorem Part.Upholds.stopJog {p : Part} {c : Chan} (jogged : p.Lawful → ∃ l, (p.chan c).mover = .jog l) :
    p.Upholds (p.modChan c fun x => x.stop.dropMover) := by
  refine .setChan (fun h => Channel.dropMover_recordLaw (Channel.stop_recordLaw h)) fun h => ?_
  obtain ⟨l, hl⟩ := jogged h
  refine h.setChan (by simp) (Channel.dropMover_standing ?_ ?_ _) (by simp [hl]) (by simp [hl])
  all_goals rw [Channel.stop_state]; split <;> simp_all

/-- R39, R40, R41: the owner of a channel that nothing moves changes. -/
theorem Part.Upholds.setOwner {p : Part} {c : Chan} (o : Option Link) (still : p.Lawful → (p.chan c).mover = .none) :
    p.Upholds (p.modChan c fun x => { x with owner := o }) := by
  refine .setChan id fun h => ?_
  obtain ⟨moving, moved, release, jog, -⟩ := h.standing c
  exact h.setChan rfl ⟨moving, moved, release, jog, by simp [still h]⟩ (by simp) (by simp [still h])

theorem Part.Upholds.fault {p : Part} {c : Chan} {k : FaultKind} (configured : (p.chan c).configured = true)
    (new : (p.chan c).holdsFault k = false) : p.Upholds (p.modChan c fun x => (x.enterFault k).faultState) :=
  .setChan (fun h => Channel.fault_recordLaw h configured new) fun h =>
    h.setChan (by simp) (Channel.fault_standing (h.standing c) k) (by simp) (by simp)

theorem Channel.leaveStopping_keeps (x : Channel) :
    x.leaveStopping.kind = x.kind ∧ x.leaveStopping.mover = x.mover ∧ x.leaveStopping.owner = x.owner := by
  unfold leaveStopping
  dsimp only
  split
  · exact ⟨rfl, rfl, rfl⟩
  · split
    · simp
    · split <;> exact ⟨rfl, rfl, rfl⟩

theorem Channel.standstill_keeps (x : Channel) :
    x.standstill.kind = x.kind ∧ x.standstill.mover = x.mover ∧ x.standstill.owner = x.owner := by
  unfold standstill
  dsimp only
  split <;> split
  · exact leaveStopping_keeps _
  · exact ⟨rfl, rfl, rfl⟩
  · exact leaveStopping_keeps _
  · exact ⟨rfl, rfl, rfl⟩

theorem Part.Upholds.standstill (p : Part) (c : Chan) : p.Upholds (p.modChan c Channel.standstill) := by
  obtain ⟨kind, mover, owner⟩ := Channel.standstill_keeps (p.chan c)
  exact .setChan Channel.standstill_recordLaw fun h =>
    h.setChan kind (Channel.standstill_standing (h.standing c)) (fun g => by rw [mover]) fun _ _ => owner

theorem Part.Upholds.toMoving {p : Part} {c : Chan} (e : (p.chan c).state = .starting) :
    p.Upholds (p.modChan c Channel.toMoving) :=
  .setChan (fun h => Channel.toMoving_recordLaw h e) fun h =>
    h.setChan (by simp [Channel.toMoving]) (Channel.toMoving_standing (h.standing c) e) (by simp [Channel.toMoving])
      (by simp [Channel.toMoving])

theorem Part.Upholds.clearFault (p : Part) (c : Chan) : p.Upholds (p.modChan c Channel.clearFault) :=
  .setChan Channel.clearFault_recordLaw fun h =>
    h.setChan rfl (Channel.clearFault_standing (h.standing c)) (fun _ => Iff.rfl) fun _ _ => rfl

/-- R21: a jog starts on an IDLE channel of the requester that nothing moves. -/
theorem Part.Upholds.startJog {p : Part} {c : Chan} {l : Link} (there : p.hasChan c = true)
    (owner : (p.chan c).owner = some l) (idle : (p.chan c).state = .idle) (still : (p.chan c).mover = .none) (d : Dir) :
    p.Upholds (p.modChan c (Channel.startJog l d)) := by
  have alike := fun x : Channel => Channel.armWatch_alike true x
  refine .setChan (fun h => (alike _).recordLaw (Channel.release_recordLaw ?_ d _)) fun h => ?_
  · exact h
  · refine h.setChan (by simp [Channel.startJog]) ?_ (by simp [Channel.startJog, still]) (by simp [still])
    refine (alike _).standing ?_
    unfold Channel.release
    simp only [idle]
    exact ⟨by simp, by simp [there], by simp, by simp, by simp [owner]⟩

end Sys2Proof.Machine
end

section
set_option Elab.async false
/-! PROOFS. Raising an event, changing the mode and clearing movers uphold the laws (R151, R174, R175, R159, R164). -/

namespace Sys2Proof.Machine

/-! ### Events and modes -/

theorem LinkIf.offer_law {x : LinkIf} (q : NoticePair) (h : x.Law) : (x.offer q).Law := by
  unfold LinkIf.offer
  split
  · exact ⟨rfl, addPair_nodup q h.2⟩
  · exact h

theorem LinkIf.offer_upheld (q : NoticePair) (x : LinkIf) : x.Upheld (x.offer q) :=
  ⟨LinkIf.offer_law q, fun h => by rw [LinkIf.offer_eq]; exact h⟩

theorem Part.Upholds.post (p : Part) (q : NoticePair) (e : Event) : p.Upholds (p.post q e) :=
  .of_same rfl rfl rfl id (fun l => by rw [Part.post_link]; exact LinkIf.offer_upheld q _) rfl rfl fun _ => id

/-- R151: the power law over a change to a mode that the emergency stop allows. -/
theorem ModeCtl.Law.changeMode {m : ModeCtl} (h : m.Law) (free : m.held = false) {new : DeviceMode}
    (allowed : new = .halted ∨ m.mode ≠ .halted ∨ m.estop = false) :
    (({ m with mode := new } : ModeCtl).setPower new.powered).Law := by
  obtain ⟨power, stop, timer⟩ := h
  have halted : m.estop = true → new = .halted := by
    intro he
    rcases allowed with e | e | e
    · exact e
    · exact absurd (stop he free) e
    · simp [e] at he
  unfold ModeCtl.setPower
  split
  · next on =>
    have hn : (new == .standby || new == .armed) = true := by cases new <;> simp_all [DeviceMode.powered]
    split
    · next hp =>
      have hp : m.mainPower = true := hp
      exact ⟨by simp [hp, hn, free], fun he _ => halted he, timer⟩
    · next hp =>
      refine ⟨by simp [hn, free], fun he _ => halted he, fun ht => ⟨rfl, ?_⟩⟩
      dsimp only at ht hp ⊢
      split at ht
      · exact absurd (timer ht).1 hp
      · next hg => simpa using hg
  · next off =>
    have hn : (new == .standby || new == .armed) = false := by cases new <;> simp_all [DeviceMode.powered]
    exact ⟨by simp [hn], fun he _ => halted he, by simp⟩

@[simp] theorem ModeCtl.setPower_straps (on : Bool) (m : ModeCtl) : (m.setPower on).straps = m.straps := by
  unfold setPower; split
  · split <;> rfl
  · rfl
@[simp] theorem ModeCtl.setPower_held (on : Bool) (m : ModeCtl) : (m.setPower on).held = m.held := by
  unfold setPower; split
  · split <;> rfl
  · rfl

theorem Part.Upholds.dropBaselines (p : Part) : p.Upholds p.dropBaselines :=
  .forEach (.refl p) _ _ fun _ _ _ => .modAlike ⟨rfl, rfl, rfl, rfl, rfl, rfl, rfl⟩

theorem Part.Upholds.takeBaselines (p : Part) : p.Upholds p.takeBaselines :=
  .forEach (.refl p) _ _ fun _ _ _ => .modAlike (by split <;> exact ⟨rfl, rfl, rfl, rfl, rfl, rfl, rfl⟩)

/-- R151: a change of mode that the emergency stop allows. -/
theorem Part.Upholds.changeMode {p : Part} {new : DeviceMode}
    (allowed : new = .halted ∨ p.ctl.mode ≠ .halted ∨ p.ctl.estop = false) (cause : ModeCause) :
    p.Upholds (p.changeMode new cause) := by
  have mode : p.Upholds (p.modCtl fun m => ({ m with mode := new } : ModeCtl).setPower new.powered) :=
    .modCtl (by simp) (by simp) fun free law => law.changeMode free allowed
  refine .trans ?_ (.post _ .mode _)
  unfold Part.changeBaselines
  split
  · exact mode.trans (.takeBaselines _)
  · split
    · exact mode.trans (.dropBaselines _)
    · exact mode

theorem Part.Upholds.judgeWake (p : Part) (q : NoticePair) (e : Event) : p.Upholds (p.judgeWake q e) := by
  refine .ite (fun h => .changeMode (.inr (.inl fun e => ?_)) _) fun _ => .refl p
  simp [e] at h

theorem Part.Upholds.raise (p : Part) (q : NoticePair) (e : Event) : p.Upholds (p.raise q e) :=
  (Part.Upholds.post p q e).trans (.judgeWake _ q e)

/-- R160, R164: the silence-disarm flag is no part of any law. -/
theorem Part.Upholds.silenceDisarm (p : Part) (b : Bool) : p.Upholds (p.modCtl fun m => { m with silenceDisarm := b }) :=
  .modCtl rfl rfl fun _ => id

theorem Part.Upholds.judgeDisarm (p : Part) : p.Upholds p.judgeDisarm := by
  refine .ite (fun h => (Part.Upholds.silenceDisarm p false).trans (.changeMode (.inr (.inl fun e => ?_)) _)) fun _ => .refl p
  have e' : p.ctl.mode = .halted := e
  simp [e'] at h

theorem Part.Upholds.raiseLink (p : Part) (l : Link) : p.Upholds (p.raiseLink l) :=
  (Part.Upholds.modLink (f := fun x => ({ x with lastLink := some .linkSilent } : LinkIf).offer .link)
    (.trans (y := { p.link l with lastLink := some .linkSilent }) ⟨id, id⟩ (LinkIf.offer_upheld .link _))).trans (.judgeWake _ _ _)

/-! ### Movers -/

theorem Part.UpholdsEach.clearMover (p : Part) (c : Chan) : p.UpholdsEach (p.clearMover c) :=
  .trans (.setChan Channel.dropMover_recordLaw) (Part.Upholds.judgeDisarm _).toUpholdsEach

theorem Part.UpholdsEach.clearLanes (p : Part) (g : Grp) : p.UpholdsEach (p.clearLanes g) :=
  .forEach (.refl p) _ _ fun q ln _ => .clearMover q ln.channel

theorem Part.modChan_modChan (p : Part) (c : Chan) (f h : Channel → Channel) :
    (p.modChan c f).modChan c h = p.modChan c fun x => h (f x) := by
  simp only [Part.modChan, Part.setChan_chan_self]
  simp [Part.setChan]

/-- R23: the end of a jog. -/
theorem Part.Upholds.endJog {p : Part} {c : Chan} (jogged : p.Lawful → ∃ l, (p.chan c).mover = .jog l) :
    p.Upholds (p.endJog c) := by
  have h : p.endJog c = (p.modChan c fun x => x.stop.dropMover).judgeDisarm := by
    rw [Part.endJog, Part.clearMover, Part.modChan_modChan]
  rw [h]
  exact (Part.Upholds.stopJog jogged).trans (.judgeDisarm _)

theorem Part.Upholds.endJogs (p : Part) (which : Link → Bool) : p.Upholds (p.endJogs which) := by
  refine .forEach (.refl p) _ _ fun q c _ => ?_
  split
  · next l hl => exact .ite (fun _ => .endJog fun _ => ⟨l, hl⟩) fun _ => .refl q
  all_goals exact .refl q

end Sys2Proof.Machine
end

section
set_option Elab.async false
/-! PROOFS. What the updates of groups and tracks keep: the start of a move, its STOPPING and its end, and the binding of groups
to tracks, are the writes over which the laws of movers, lanes and tracks hold together (R8, R39, R62, R68, R82, R136). -/

namespace Sys2Proof.Machine

/-! ### One group -/

/-- R69: a group that is PREPARING or RUNNING, or whose control period runs. Under the law of moves the two are one. -/
def Group.Engaged (x : Group) : Prop := x.active = true ∨ x.controlTimer.isSome = true

/-- The states in which the lane channels have their group as mover. -/
abbrev Group.Moves (x : Group) : Prop := x.state ∈ [GroupState.preparing, .running, .stopping]

/-- R62, R68, R69: the law of moves for a record that a group may take. -/
def Part.MoveLawOf (p : Part) (g : Grp) (x : Group) : Prop :=
  (x.move = none ↔ x.state = .empty ∨ x.state = .idle)
    ∧ (x.state = .empty → x.lanes = [])
    ∧ (∀ m, x.move = some m → m.lanes.length = x.lanes.length
        ∧ x.boundTrack = (match m.source with
          | .track t => some t
          | .cue _ => none))
    ∧ (∀ c, (p.chan c).mover = .group g → x.Moves ∧ ∃ ln ∈ x.lanes, ln.channel = c)
    ∧ (x.Moves → ∀ m, x.move = some m → ∀ ln ∈ x.lanes,
        (p.chan ln.channel).mover = .group g ∧ (p.chan ln.channel).owner = some m.origin)
    ∧ (x.controlTimer.isSome = true ↔ x.state = .preparing ∨ x.state = .running)

theorem Part.moveLaw_iff (p : Part) (g : Grp) : p.MoveLaw g ↔ p.MoveLawOf g (p.group g) := Iff.rfl

theorem Group.active_iff (x : Group) : x.active = true ↔ x.state = .preparing ∨ x.state = .running := by
  simp [Group.active]

theorem Part.Lawful.engaged {p : Part} (h : p.Lawful) {g : Grp} (e : (p.group g).Engaged) :
    (p.group g).state = .preparing ∨ (p.group g).state = .running := by
  obtain ⟨-, -, -, -, -, timer⟩ := h.move g
  rcases e with e | e
  · exact (Group.active_iff _).mp e
  · exact timer.mp e

theorem Part.Lawful.moves {p : Part} (h : p.Lawful) {g : Grp} (e : (p.group g).Engaged) : (p.group g).Moves := by
  rcases h.engaged e with e | e <;> simp [e]

/-- A group that moves its channels has a move record, and every lane channel has it as mover and its origin as owner. -/
theorem Part.Lawful.record {p : Part} (h : p.Lawful) {g : Grp} (hs : (p.group g).Moves) :
    ∃ m, (p.group g).move = some m ∧ ∀ ln ∈ (p.group g).lanes,
      (p.chan ln.channel).mover = .group g ∧ (p.chan ln.channel).owner = some m.origin := by
  obtain ⟨none, -, -, -, moved, -⟩ := h.move g
  cases hm : (p.group g).move with
  | none => rcases none.mp hm with e | e <;> simp [Group.Moves, e] at hs
  | some m => exact ⟨m, rfl, moved hs m hm⟩

theorem Part.Lawful.moved {p : Part} (h : p.Lawful) {g : Grp} (hs : (p.group g).Moves) {ln : Lane}
    (hl : ln ∈ (p.group g).lanes) : (p.chan ln.channel).mover = .group g := by
  obtain ⟨m, -, moved⟩ := h.record hs
  exact (moved ln hl).1

theorem Part.Lawful.distinct {p : Part} (h : p.Lawful) {g : Grp} (hs : (p.group g).state ≠ .empty) :
    ((p.group g).lanes.map (·.channel)).Nodup := by
  obtain ⟨-, -, distinct, -⟩ := h.lanes g hs
  exact distinct

/-- The laws after an update of one group that keeps its lanes and its binding. -/
theorem Part.Lawful.setGroup {p : Part} (h : p.Lawful) {g : Grp} {y : Group} (lanes : y.lanes = (p.group g).lanes)
    (bound : y.boundTrack = (p.group g).boundTrack) (empty : y.state = .empty ↔ (p.group g).state = .empty)
    (move : p.MoveLawOf g y) : (p.setGroup g y).Lawful := by
  have sameLanes (k) : ((p.setGroup g y).group k).lanes = (p.group k).lanes := by
    rw [Part.setGroup_group]; split
    · next e => rw [e, lanes]
    · rfl
  have sameBound (k) : ((p.setGroup g y).group k).boundTrack = (p.group k).boundTrack := by
    rw [Part.setGroup_group]; split
    · next e => rw [e, bound]
    · rfl
  have sameEmpty (k) : ((p.setGroup g y).group k).state = .empty ↔ (p.group k).state = .empty := by
    rw [Part.setGroup_group]; split
    · next e => rw [e, empty]
    · rfl
  refine .intro (fun k hk => ?_) h.standing (fun k => ?_) fun t => ?_
  · rw [sameLanes]
    exact h.lanes k fun e => hk ((sameEmpty k).mpr e)
  · rw [Part.moveLaw_iff, Part.setGroup_group]
    split
    · next e => subst e; exact move
    · exact h.move k
  · obtain ⟨names, nodup, owner, defined, apart, origins⟩ := h.binding t
    refine ⟨fun k => by rw [sameBound]; exact names k, nodup, owner, fun k hk e => defined k hk ((sameEmpty k).mp e), ?_, ?_⟩
    · intro k hk j hj hne
      rw [sameLanes, sameLanes]
      exact apart k hk j hj hne
    · intro k o ho
      rw [sameLanes]
      exact origins k o ho

theorem Part.UpholdsEach.setGroup (p : Part) (g : Grp) (y : Group) : p.UpholdsEach (p.setGroup g y) where
  record := id
  queue := id
  track := id
  link l := .of_eq (by simp)
  held := id
  power _ := id

/-- An update of a group that keeps its lanes, its binding, whether it has a move and whether its control period runs, the origin
and the source of its move, and the number of its entries; its state may change between PREPARING and RUNNING. -/
structure Group.Alike (x y : Group) : Prop where
  lanes : y.lanes = x.lanes
  bound : y.boundTrack = x.boundTrack
  state : y.state = x.state ∨ (x.Engaged ∧ (y.state = .preparing ∨ y.state = .running))
  timer : y.controlTimer.isSome = x.controlTimer.isSome
  none : y.move = none ↔ x.move = none
  entry : ∀ n, y.move = some n → ∃ m, x.move = some m ∧ n.origin = m.origin ∧ n.source = m.source
    ∧ (m.lanes.length = x.lanes.length → n.lanes.length = x.lanes.length)

/-- R62, R68: such an update keeps the laws. -/
theorem Part.Upholds.regroup {p : Part} {g : Grp} {y : Group} (alike : p.Lawful → (p.group g).Alike y) :
    p.Upholds (p.setGroup g y) := by
  refine ⟨.setGroup p g y, fun h => ?_⟩
  obtain ⟨lanes, bound, state, timer, none, entry⟩ := alike h
  obtain ⟨idle, empty, entries, movers, moved, period⟩ := h.move g
  have states : y.state = (p.group g).state ∨
      (((p.group g).state = .preparing ∨ (p.group g).state = .running) ∧ (y.state = .preparing ∨ y.state = .running)) :=
    state.imp id fun e => ⟨h.engaged e.1, e.2⟩
  have moves : y.Moves ↔ (p.group g).Moves := by
    rcases states with e | ⟨e | e, e' | e'⟩
    · unfold Group.Moves; rw [e]
    all_goals simp [Group.Moves, e, e']
  refine h.setGroup lanes bound ?_ ⟨?_, ?_, fun n hn => ?_, fun c hc => ?_, fun hs n hn ln hl => ?_, ?_⟩
  · rcases states with e | ⟨e | e, e' | e'⟩
    · rw [e]
    all_goals simp [e, e']
  · rw [none, idle]
    rcases states with e | ⟨e | e, e' | e'⟩
    · rw [e]
    all_goals simp [e, e']
  · intro he
    rw [lanes]
    rcases states with e | ⟨-, e' | e'⟩
    · exact empty (e ▸ he)
    all_goals simp [e'] at he
  · obtain ⟨m, hm, -, source, length⟩ := entry n hn
    obtain ⟨hl, hb⟩ := entries m hm
    rw [lanes, bound, source]
    exact ⟨length hl, hb⟩
  · rw [moves, lanes]; exact movers c hc
  · obtain ⟨m, hm, origin, -, -⟩ := entry n hn
    rw [origin]
    exact moved (moves.mp hs) m hm ln (lanes ▸ hl)
  · rw [timer, period]
    rcases states with e | ⟨e | e, e' | e'⟩
    · rw [e]
    all_goals simp [e, e']

/-- An update of a group that leaves its lanes, binding, state, timer and move. -/
theorem Group.Alike.of_same {x y : Group} (lanes : y.lanes = x.lanes) (bound : y.boundTrack = x.boundTrack)
    (state : y.state = x.state) (timer : y.controlTimer.isSome = x.controlTimer.isSome) (move : y.move = x.move) :
    x.Alike y :=
  ⟨lanes, bound, .inl state, timer, by rw [move], fun n hn => ⟨n, move ▸ hn, rfl, rfl, id⟩⟩

/-- R81: a moving group enters STOPPING, and its channels are given a stop. -/
theorem Part.Upholds.enterStopping {p : Part} {g : Grp} (e : (p.group g).Engaged) (reason : StopReason) :
    p.Upholds (p.enterStopping g reason) := by
  refine .forEach ⟨.setGroup p g _, fun h => ?_⟩ _ _ fun q ln _ => .stop q ln.channel
  obtain ⟨idle, empty, entries, movers, moved, period⟩ := h.move g
  have state := h.engaged e
  have move : (p.group g).move ≠ none := fun hm => by
    rcases idle.mp hm with e | e <;> simp [e] at state
  have ne : (p.group g).state ≠ .empty := by rcases state with e | e <;> simp [e]
  refine h.setGroup rfl rfl (by simp [ne]) ⟨by simpa using move, by simp, fun n hn => ?_, fun c hc => ?_, fun _ n hn => ?_, by simp⟩
  · obtain ⟨m, hm, rfl⟩ := Option.map_eq_some_iff.mp hn
    exact entries m hm
  · exact ⟨by simp, (movers c hc).2⟩
  · obtain ⟨m, hm, rfl⟩ := Option.map_eq_some_iff.mp hn
    exact moved (h.moves e) m hm

/-! ### The end of a move (R77, R82) -/

/-- The record of a group whose move has ended: IDLE without a move, or HELD or FAULTED with it, and no control period. -/
structure Group.EndOf (x y : Group) : Prop where
  lanes : y.lanes = x.lanes
  bound : y.boundTrack = x.boundTrack
  state : (y.state = .idle ∧ y.move = none) ∨ ((y.state = .held ∨ y.state = .faulted) ∧ y.move = x.move)
  timer : y.controlTimer = none

@[simp] theorem Part.judgeDisarm_straps (p : Part) : p.judgeDisarm.ctl.straps = p.ctl.straps := by
  rcases p.judgeDisarm_eq with h | ⟨-, -, -, h⟩
  · rw [h]
  · rw [h, Part.changeMode_ctl]; simp

@[simp] theorem Part.clearLanes_hasChan (p : Part) (g : Grp) (c : Chan) : (p.clearLanes g).hasChan c = p.hasChan c := by
  have : (p.clearLanes g).ctl.straps = p.ctl.straps :=
    Part.forEach_keeps (fun q => q.ctl.straps) _ _ fun q ln _ => by simp [Part.clearMover]
  unfold Part.hasChan Part.chanCount
  rw [this]

/-- R77, R82: the movers of a group whose channels are at rest are cleared, and its move ends. -/
theorem Part.Upholds.endMove {p : Part} {g : Grp} {y : Group} (moves : p.Lawful → (p.group g).Moves)
    (rest : p.Lawful → p.atRest g = true) (ended : p.Lawful → (p.group g).EndOf y) :
    p.Upholds ((p.clearLanes g).setGroup g y) := by
  refine ⟨.trans (.clearLanes p g) (.setGroup _ g y), fun h => ?_⟩
  obtain ⟨lanes, bound, state, timer⟩ := ended h
  have hs := moves h
  have rest := rest h
  obtain ⟨idle, empty, entries, movers, moved, -⟩ := h.move g
  have ne : (p.group g).state ≠ .empty := fun e => by simp [Group.Moves, e] at hs
  have ye : y.state ≠ .empty := by rcases state with ⟨e, -⟩ | ⟨e | e, -⟩ <;> simp [e]
  have inLane {ln} (hl : ln ∈ (p.group g).lanes) : (p.clearLanes g).chan ln.channel = (p.chan ln.channel).dropMover :=
    p.clearLanes_chan_in g (h.distinct ne) ln hl
  have outLane (c) : (∃ ln ∈ (p.group g).lanes, ln.channel = c) ∨ (p.clearLanes g).chan c = p.chan c := by
    by_cases hc : ∃ ln ∈ (p.group g).lanes, ln.channel = c
    · exact .inl hc
    · exact .inr (p.clearLanes_chan_out g c fun ln hl e => hc ⟨ln, hl, e⟩)
  have kinds (c) : ((p.clearLanes g).chan c).kind = (p.chan c).kind := by
    rcases outLane c with ⟨ln, hl, rfl⟩ | e
    · rw [inLane hl]; simp
    · rw [e]
  have none_moved (c) : ((p.clearLanes g).chan c).mover ≠ .group g := by
    rcases outLane c with ⟨ln, hl, rfl⟩ | e
    · rw [inLane hl]; simp
    · rw [e]
      intro hm
      obtain ⟨-, ln, hl, rfl⟩ := movers c hm
      rw [inLane hl] at e
      rw [← e] at hm
      simp at hm
  have others {k} (hk : k ≠ g) (c) :
      (((p.clearLanes g).chan c).mover = .group k ↔ (p.chan c).mover = .group k)
      ∧ ((p.chan c).mover = .group k → (p.clearLanes g).chan c = p.chan c) := by
    rcases outLane c with ⟨ln, hl, rfl⟩ | e
    · have hm := h.moved hs hl
      rw [inLane hl, hm]
      exact ⟨by simp [hk.symm], fun e => absurd e (by simp [hk.symm])⟩
    · rw [e]; exact ⟨Iff.rfl, fun _ => rfl⟩
  have groups (k) : ((p.clearLanes g).setGroup g y).group k = if k = g then y else p.group k := by
    rw [Part.setGroup_group, Part.clearLanes_group]
  have sameLanes (k) : (((p.clearLanes g).setGroup g y).group k).lanes = (p.group k).lanes := by
    rw [groups]; split
    · next e => rw [e, lanes]
    · rfl
  have tracks (t) : ((p.clearLanes g).setGroup g y).track t = p.track t := by simp
  refine .intro (fun k hk => ?_) (fun c => ?_) (fun k => ?_) fun t => ?_
  · have hk' : (p.group k).state ≠ .empty := by
      rw [groups] at hk
      split at hk
      · next e => rw [e]; exact ne
      · exact hk
    obtain ⟨one, eight, distinct, first, each⟩ := h.lanes k hk'
    rw [sameLanes]
    refine ⟨one, eight, distinct, first, fun ln hl => ?_⟩
    have there : ((p.clearLanes g).setGroup g y).hasChan ln.channel = p.hasChan ln.channel := p.clearLanes_hasChan g _
    rw [there, Part.setGroup_chan, kinds]
    exact each ln hl
  · have there : ((p.clearLanes g).setGroup g y).hasChan c = p.hasChan c := p.clearLanes_hasChan g _
    rw [there, Part.setGroup_chan]
    rcases outLane c with ⟨ln, hl, rfl⟩ | e
    · rw [inLane hl]
      have := List.all_eq_true.mp rest ln hl
      simp only [Bool.or_eq_true, beq_iff_eq] at this
      exact Channel.dropMover_standing (by rcases this with e | e <;> simp [e]) (by rcases this with e | e <;> simp [e]) _
    · rw [e]; exact h.standing c
  · rw [Part.moveLaw_iff, groups]
    by_cases e : k = g
    · rw [if_pos e]
      subst e
      refine ⟨?_, fun e => absurd e ye, fun m hm => ?_, fun c hc => absurd hc (none_moved c), fun hy => ?_, ?_⟩
      · rcases state with ⟨e, e'⟩ | ⟨e | e, e'⟩
        · simp [e, e']
        all_goals
          rw [e', idle]
          simp [e]
          rcases List.mem_cons.mp hs with hs | hs
          · simp [hs]
          · simp at hs; rcases hs with hs | hs <;> simp [hs]
      · rw [lanes, bound]
        rcases state with ⟨-, e'⟩ | ⟨-, e'⟩
        · simp [e'] at hm
        · exact entries m (e' ▸ hm)
      · rcases state with ⟨e, -⟩ | ⟨e | e, -⟩ <;> simp [Group.Moves, e] at hy
      · rw [timer]
        rcases state with ⟨e, -⟩ | ⟨e | e, -⟩ <;> simp [e]
    · rw [if_neg e]
      obtain ⟨idle, empty, entries, movers, moved, period⟩ := h.move k
      refine ⟨idle, empty, entries, fun c hc => movers c ((others e c).1.mp hc), fun hk m hm ln hl => ?_, period⟩
      obtain ⟨hmv, ho⟩ := moved hk m hm ln hl
      rw [Part.setGroup_chan, (others e ln.channel).2 hmv]
      exact ⟨hmv, ho⟩
  · obtain ⟨names, nodup, owner, defined, apart, origins⟩ := h.binding t
    have sameBound (k) : (((p.clearLanes g).setGroup g y).group k).boundTrack = (p.group k).boundTrack := by
      rw [groups]; split
      · next e => rw [e, bound]
      · rfl
    refine ⟨fun k => by rw [tracks, sameBound]; exact names k, by rw [tracks]; exact nodup, by rw [tracks]; exact owner,
      fun k hk => ?_, ?_, ?_⟩
    · rw [tracks] at hk
      rw [groups]; split
      · exact ye
      · exact defined k hk
    · intro k hk j hj hne
      rw [sameLanes, sameLanes]
      rw [tracks] at hk hj
      exact apart k hk j hj hne
    · intro k o ho
      rw [tracks] at ho ⊢
      rw [sameLanes]
      exact origins k o ho

end Sys2Proof.Machine
end

section
set_option Elab.async false
/-! PROOFS. The start of a move (R62, R65, R66), new and deleted definitions (R56, R57), and the binding of groups to tracks (R136,
R137, R138) uphold the laws. -/

namespace Sys2Proof.Machine

/-! ### The start of a move -/

/-- A channel that a move may reserve: IDLE, or started or held by a move of the same taking. -/
abbrev Channel.Reservable (x : Channel) : Prop := x.state ∈ [ChannelState.idle, .starting, .holding]

theorem Channel.reserve_keeps (g : Grp) (r : LaneRecord) (x : Channel) :
    (reserveChannel g r x).kind = x.kind ∧ (reserveChannel g r x).fault = x.fault
      ∧ (reserveChannel g r x).mover = .group g ∧ (reserveChannel g r x).jog = x.jog
      ∧ (reserveChannel g r x).owner = x.owner := by
  unfold reserveChannel
  dsimp only
  split <;> simp

/-- R66: a reserved channel is HOLDING when its lane is ARRIVED, and STARTING otherwise. -/
theorem Channel.reserve_state (g : Grp) (r : LaneRecord) (x : Channel) :
    (reserveChannel g r x).state = if r.state = .arrived then .holding else .starting := by
  unfold reserveChannel
  dsimp only
  split <;> simp

theorem Channel.reserve_release {x : Channel} (h : x.pendingRelease = none) (g : Grp) (r : LaneRecord) :
    (reserveChannel g r x).pendingRelease = none := by
  unfold reserveChannel
  dsimp only
  split <;> simp [h]

theorem Channel.reserve_reservable (g : Grp) (r : LaneRecord) (x : Channel) : (reserveChannel g r x).Reservable := by
  unfold Reservable
  rw [reserve_state]
  split <;> simp

theorem Channel.reserve_recordLaw {x : Channel} (h : x.RecordLaw) (hr : x.Reservable) (g : Grp) (r : LaneRecord) :
    (reserveChannel g r x).RecordLaw := by
  obtain ⟨kind, fault, -⟩ := reserve_keeps g r x
  have rest : x.state ≠ .absent ∧ x.state ≠ .faulted ∧ x.state ≠ .stopping := by
    refine ⟨?_, ?_, ?_⟩ <;> intro e <;> simp [Reservable, e] at hr
  refine h.change kind fault ?_ ?_ ?_
  · rw [reserve_state]; split <;> simp [rest.1]
  · rw [reserve_state]; split <;> simp
  · simp [h.no_fault rest.2.1 rest.2.2]

/-- R84: the track to which a group must be bound for a move of this source: none for a cue move. -/
def MoveSource.binding : MoveSource → Option Trk
  | .track t => some t
  | .cue _ => none

/-- R62, R63, R65: a move that may start: an IDLE or HELD group, bound as the source of the move asks, with one target for each
lane, and lane channels that are IDLE, that nothing moves, and that the origin link owns. -/
structure Part.Startable (p : Part) (g : Grp) (l : Link) (src : MoveSource) (plan : List (Int × Nat)) : Prop where
  state : (p.group g).state = .idle ∨ (p.group g).state = .held
  bound : (p.group g).boundTrack = src.binding
  length : plan.length = (p.group g).lanes.length
  free : ∀ ln ∈ (p.group g).lanes,
    (p.chan ln.channel).state = .idle ∧ (p.chan ln.channel).mover = .none ∧ (p.chan ln.channel).owner = some l

/-- A list beside what its pairs with another list give: the pairs' first members beside what the pairs give. -/
theorem zip_map_zip {α β γ : Type} (f : α × β → γ) (l : List α) (m : List β) :
    l.zip ((l.zip m).map f) = (l.zip m).map fun x => (x.1, f x) := by
  induction l generalizing m with
  | nil => rfl
  | cons x l ih =>
    cases m with
    | nil => rfl
    | cons y m => simp [ih]

/-- R66: each lane channel of a started move is reserved by its entry. -/
theorem Part.startMove_chan_in {p : Part} {g : Grp} (distinct : ((p.group g).lanes.map (·.channel)).Nodup) (tier : Nat)
    (o : Link) (src : MoveSource) (v : Option Nat) {plan : List (Int × Nat)} {lt : Lane × (Int × Nat)}
    (hl : lt ∈ (p.group g).lanes.zip plan) :
    (p.startMove g tier o src v plan).chan lt.1.channel =
      reserveChannel g (fireLane (p.chan lt.1.channel) lt.2.1 lt.2.2) (p.chan lt.1.channel) := by
  have mem : (lt.1, fireLane (p.chan lt.1.channel) lt.2.1 lt.2.2) ∈ (p.group g).lanes.zip
      (((p.group g).lanes.zip plan).map fun lt => fireLane (p.chan lt.1.channel) lt.2.1 lt.2.2) := by
    rw [zip_map_zip]
    exact List.mem_map.mpr ⟨lt, hl, rfl⟩
  exact Part.forEach_modChan_in (key := fun lr : Lane × LaneRecord => lr.1.channel) (f := fun lr => reserveChannel g lr.2) _ _
    (Lane.zip_channels_nodup distinct _) mem

theorem Part.UpholdsEach.startMove {p : Part} {g : Grp} (l : Link) (src : MoveSource) (plan : List (Int × Nat))
    (reservable : ∀ ln ∈ (p.group g).lanes, (p.chan ln.channel).Reservable) (tier : Nat) (v : Option Nat) :
    p.UpholdsEach (p.startMove g tier l src v plan) := by
  refine (Part.forEach_inv (P := fun q => p.UpholdsEach q ∧ ∀ ln ∈ (p.group g).lanes, (q.chan ln.channel).Reservable)
    ⟨.setGroup p g _, reservable⟩ fun q lr hlr hq => ?_).1
  have hl : lr.1 ∈ (p.group g).lanes := (List.of_mem_zip hlr).1
  refine ⟨hq.1.trans (.setChan fun law => Channel.reserve_recordLaw law (hq.2 lr.1 hl) g lr.2), fun ln hln => ?_⟩
  rw [Part.modChan_chan]
  split
  · exact Channel.reserve_reservable g lr.2 _
  · exact hq.2 ln hln

/-- R62, R65, R66: the start of a move. -/
theorem Part.Upholds.startMove {p : Part} {g : Grp} {l : Link} {src : MoveSource} {plan : List (Int × Nat)}
    (reservable : ∀ ln ∈ (p.group g).lanes, (p.chan ln.channel).Reservable) (startable : p.Lawful → p.Startable g l src plan)
    (tier : Nat) (v : Option Nat) : p.Upholds (p.startMove g tier l src v plan) := by
  constructor
  · exact .startMove l src plan reservable tier v
  · intro h
    obtain ⟨state, bound, length, free⟩ := startable h
    obtain ⟨idle, empty, entries, movers, moved, period⟩ := h.move g
    have ne : (p.group g).state ≠ .empty := by rcases state with e | e <;> simp [e]
    have distinct := h.distinct ne
    have still (c) : (p.chan c).mover ≠ .group g := fun hc => by
      rcases state with e | e <;> simp [e] at movers <;> exact movers c hc
    have inLane {ln} (hl : ln ∈ (p.group g).lanes) :
        ∃ r, (p.startMove g tier l src v plan).chan ln.channel = reserveChannel g r (p.chan ln.channel) := by
      obtain ⟨i, hi, rfl⟩ := List.getElem_of_mem hl
      have hz : i < ((p.group g).lanes.zip plan).length := by simp [length, hi]
      have mem := List.getElem_mem hz
      rw [List.getElem_zip] at mem
      exact ⟨_, Part.startMove_chan_in distinct tier l src v mem⟩
    have cases_of (c) : (∃ ln ∈ (p.group g).lanes, ln.channel = c) ∨ (p.startMove g tier l src v plan).chan c = p.chan c := by
      by_cases hc : ∃ ln ∈ (p.group g).lanes, ln.channel = c
      · exact .inl hc
      · exact .inr (p.startMove_chan_out g tier l src v plan c fun ln hl e => hc ⟨ln, hl, e⟩)
    have kinds (c) : ((p.startMove g tier l src v plan).chan c).kind = (p.chan c).kind := by
      rcases cases_of c with ⟨ln, hl, rfl⟩ | e
      · obtain ⟨r, e⟩ := inLane hl
        rw [e]
        exact (Channel.reserve_keeps g r _).1
      · rw [e]
    have there (c) : (p.startMove g tier l src v plan).hasChan c = p.hasChan c := by
      unfold Part.hasChan Part.chanCount
      rw [Part.startMove_ctl]
    have sameLanes (k) : ((p.startMove g tier l src v plan).group k).lanes = (p.group k).lanes := by
      rw [Part.startMove_group]; split
      · next e => rw [e]
      · rfl
    have sameBound (k) : ((p.startMove g tier l src v plan).group k).boundTrack = (p.group k).boundTrack := by
      rw [Part.startMove_group]; split
      · next e => rw [e]
      · rfl
    have defined (k) : ((p.startMove g tier l src v plan).group k).state ≠ .empty ↔ (p.group k).state ≠ .empty := by
      rw [Part.startMove_group]; split
      · next e => rw [e]; simp [ne]
      · rfl
    have track (t) : (p.startMove g tier l src v plan).track t = p.track t := by
      simp only [Part.track, Part.startMove_tracks]
    refine .intro (fun k hk => ?_) (fun c => ?_) (fun k => ?_) fun t => ?_
    · obtain ⟨one, eight, distinct, first, each⟩ := h.lanes k ((defined k).mp hk)
      rw [sameLanes]
      refine ⟨one, eight, distinct, first, fun ln hl => ?_⟩
      rw [there, kinds]
      exact each ln hl
    · rw [there]
      rcases cases_of c with ⟨ln, hl, rfl⟩ | e
      · obtain ⟨r, e⟩ := inLane hl
        obtain ⟨-, -, mover, jog, owner⟩ := Channel.reserve_keeps g r (p.chan ln.channel)
        obtain ⟨-, -, release, jogged, -⟩ := h.standing ln.channel
        obtain ⟨hi, hm, ho⟩ := free ln hl
        have hr : (p.chan ln.channel).pendingRelease = none := by
          by_contra hne
          have := (release (Option.isSome_iff_ne_none.mpr hne)).1
          simp [hi] at this
        have hj : ¬(p.chan ln.channel).jog.isSome = true := fun hj => by
          obtain ⟨l, e⟩ := jogged.mp hj
          simp [hm] at e
        obtain ⟨-, -, -, -, each⟩ := h.lanes g ne
        rw [e]
        refine ⟨fun _ => by simp [mover], fun _ => ⟨(each ln hl).1, ?_⟩, ?_, ?_, by simp [mover]⟩
        · rw [Channel.reserve_state]; split <;> simp
        · simp [Channel.reserve_release hr]
        · rw [jog, mover]; simp [hj]
      · rw [e]; exact h.standing c
    · rw [Part.moveLaw_iff, Part.startMove_group]
      split
      · next e =>
        subst e
        refine ⟨by simp, by simp, fun m hm => ?_, fun c hc => ?_, fun _ m hm ln hl => ?_, by simp⟩
        · cases hm
          exact ⟨by simp [length], bound⟩
        · rcases cases_of c with hl | e
          · exact ⟨by simp, hl⟩
          · rw [e] at hc
            exact absurd hc (still c)
        · cases hm
          obtain ⟨r, e⟩ := inLane hl
          obtain ⟨-, -, mover, -, owner⟩ := Channel.reserve_keeps k r (p.chan ln.channel)
          rw [e, mover, owner]
          exact ⟨rfl, (free ln hl).2.2⟩
      · next hne =>
        obtain ⟨idle, empty, entries, movers, moved, period⟩ := h.move k
        refine ⟨idle, empty, entries, fun c hc => ?_, fun hk m hm ln hl => ?_, period⟩
        · rcases cases_of c with ⟨ln, hl, rfl⟩ | e
          · obtain ⟨r, e⟩ := inLane hl
            rw [e, (Channel.reserve_keeps g r _).2.2.1] at hc
            cases hc
            exact absurd rfl hne
          · exact movers c (e ▸ hc)
        · have hmv := moved hk m hm ln hl
          rcases cases_of ln.channel with ⟨ln', hl', e⟩ | e
          · have := (free ln' hl').2.1
            rw [e, hmv.1] at this
            cases this
          · rw [e]; exact hmv
    · obtain ⟨names, nodup, owner, hdef, apart, origins⟩ := h.binding t
      refine ⟨fun k => by rw [track, sameBound]; exact names k, by rw [track]; exact nodup, by rw [track]; exact owner,
        fun k hk => ?_, ?_, ?_⟩
      · rw [track] at hk
        exact (defined k).mpr (hdef k hk)
      · intro k hk j hj hne
        rw [sameLanes, sameLanes]
        rw [track] at hk hj
        exact apart k hk j hj hne
      · intro k o ho
        rw [track] at ho ⊢
        rw [sameLanes]
        exact origins k o ho

/-! ### Definitions (R54 to R57) -/

/-- A group without a move whose definition changes: the record that DEFINE_GROUP or DELETE_GROUP gives it. -/
structure Group.Redefined (p : Part) (y : Group) : Prop where
  lanes : (y.state = .empty ∧ y.lanes = []) ∨ (y.state = .idle ∧ p.LegalLanes y.lanes)
  bound : y.boundTrack = none
  move : y.move = none
  timer : y.controlTimer = none

theorem Part.Upholds.redefine {p : Part} {g : Grp} {y : Group}
    (old : p.Lawful → (p.group g).state = .empty ∨ (p.group g).state = .idle)
    (unbound : p.Lawful → (p.group g).boundTrack = none) (new : p.Lawful → y.Redefined p) : p.Upholds (p.setGroup g y) := by
  refine ⟨.setGroup p g y, fun h => ?_⟩
  obtain ⟨lanes, bound, move, timer⟩ := new h
  obtain ⟨-, -, -, movers, -, -⟩ := h.move g
  have notBound (t) : g ∉ (p.track t).bound := fun hg => by
    obtain ⟨names, -⟩ := h.binding t
    simp [(names g).mp hg] at unbound
    exact unbound h
  refine .intro (fun k hk => ?_) h.standing (fun k => ?_) fun t => ?_
  · rw [Part.setGroup_group] at hk ⊢
    split
    · next e =>
      rw [if_pos e] at hk
      rcases lanes with ⟨e, -⟩ | ⟨-, legal⟩
      · exact absurd e hk
      · exact legal
    · next e =>
      rw [if_neg e] at hk
      exact h.lanes k hk
  · rw [Part.moveLaw_iff, Part.setGroup_group]
    split
    · next e =>
      subst e
      refine ⟨?_, fun he => ?_, by simp [move], fun c hc => ?_, by simp [move], ?_⟩
      · rcases lanes with ⟨e, -⟩ | ⟨e, -⟩ <;> simp [move, e]
      · rcases lanes with ⟨-, e⟩ | ⟨e, -⟩
        · exact e
        · simp [e] at he
      · have := (movers c hc).1
        rcases old h with e | e <;> simp [e] at this
      · rcases lanes with ⟨e, -⟩ | ⟨e, -⟩ <;> simp [timer, e]
    · exact h.move k
  · obtain ⟨names, nodup, owner, defined, apart, origins⟩ := h.binding t
    have same {k} (hk : k ∈ (p.track t).bound) : (p.setGroup g y).group k = p.group k :=
      p.setGroup_group_ne g k y fun e => notBound t (e ▸ hk)
    refine ⟨fun k => ?_, nodup, owner, fun k hk => ?_, fun k hk j hj hne => ?_, fun k o ho => ?_⟩
    · rw [Part.setGroup_group]
      split
      · next e => subst e; simp [bound, notBound]
      · exact names k
    · rw [same hk]; exact defined k hk
    · rw [same hk, same hj]; exact apart k hk j hj hne
    · obtain ⟨hk, length⟩ := origins k o ho
      rw [same hk]; exact ⟨hk, length⟩

/-- R89, R90: a HELD or FAULTED group whose move is discarded, or becomes the held move. -/
theorem Part.Upholds.settleMove {p : Part} {g : Grp} {y : Group}
    (old : p.Lawful → (p.group g).state = .held ∨ (p.group g).state = .faulted) (ended : p.Lawful → (p.group g).EndOf y) :
    p.Upholds (p.setGroup g y) := by
  refine ⟨.setGroup p g y, fun h => ?_⟩
  obtain ⟨lanes, bound, state, timer⟩ := ended h
  obtain ⟨idle, empty, entries, movers, moved, period⟩ := h.move g
  refine h.setGroup lanes bound ?_ ⟨?_, fun e => ?_, fun m hm => ?_, fun c hc => ?_, fun hs => ?_, ?_⟩
  · rcases old h with e | e <;> rcases state with ⟨e', -⟩ | ⟨e' | e', -⟩ <;> simp [e, e']
  · rcases state with ⟨e', m⟩ | ⟨e', m⟩
    · simp [e', m]
    · rw [m, idle]
      rcases old h with e | e <;> rcases e' with e' | e' <;> simp [e, e']
  · rcases state with ⟨e', -⟩ | ⟨e' | e', -⟩ <;> simp [e'] at e
  · rw [lanes, bound]
    rcases state with ⟨-, e⟩ | ⟨-, e⟩
    · simp [e] at hm
    · exact entries m (e ▸ hm)
  · have := (movers c hc).1
    rcases old h with e | e <;> simp [e] at this
  · rcases state with ⟨e, -⟩ | ⟨e | e, -⟩ <;> simp [Group.Moves, e] at hs
  · rw [timer]
    rcases state with ⟨e, -⟩ | ⟨e | e, -⟩ <;> simp [e]

/-! ### Tracks -/

theorem Part.UpholdsEach.setTrack {p : Part} {t : Trk} {y : Track} (law : (p.track t).Law → y.Law) :
    p.UpholdsEach (p.setTrack t y) where
  record := id
  queue := id
  track h u := by
    rw [Part.setTrack_track]
    split
    · exact law (h t)
    · exact h u
  link l := .of_eq (by simp)
  held := id
  power _ := id

/-- R136, R143: an update of a track that keeps its owner and its bound groups, and takes origins that bound groups may have. -/
theorem Part.Upholds.setTrack {p : Part} {t : Trk} {y : Track} (law : (p.track t).Law → y.Law)
    (bound : y.bound = (p.track t).bound) (owner : y.owner = (p.track t).owner)
    (origins : p.Lawful → ∀ (g : Grp) (o : List Int), y.origins[g] = some o → (p.track t).origins[g] = some o
      ∨ (g ∈ (p.track t).bound ∧ o.length = (p.group g).lanes.length)) : p.Upholds (p.setTrack t y) := by
  refine ⟨.setTrack law, fun h => .intro h.lanes h.standing h.move fun u => ?_⟩
  obtain ⟨names, nodup, owners, defined, apart, kept⟩ := h.binding u
  by_cases e : u = t
  · subst e
    unfold Part.BindingLaw
    rw [Part.setTrack_track_self, bound, owner]
    exact ⟨names, nodup, owners, defined, apart, fun g o ho => (origins h g o ho).elim (kept g o) id⟩
  · unfold Part.BindingLaw
    rw [Part.setTrack_track_ne _ _ _ _ e]
    exact ⟨names, nodup, owners, defined, apart, kept⟩

/-- An update of a track that keeps owner, bound groups and origins. -/
theorem Part.Upholds.modTrack {p : Part} {t : Trk} {f : Track → Track} (law : (p.track t).Law → (f (p.track t)).Law)
    (bound : (f (p.track t)).bound = (p.track t).bound) (owner : (f (p.track t)).owner = (p.track t).owner)
    (origins : (f (p.track t)).origins = (p.track t).origins ∨ (f (p.track t)).origins = Vector.replicate 8 none) :
    p.Upholds (p.modTrack t f) :=
  .setTrack law bound owner fun _ g o ho => by
    rcases origins with e | e
    · exact .inl (e ▸ ho)
    · rw [e] at ho
      simp at ho

/-- The laws after a group has changed its track, or has left it: the writes at the track and at the group together. -/
theorem Part.Upholds.rebind {p : Part} {t : Trk} {g : Grp} {y : Track} {b : Option Trk}
    (law : (p.track t).Law → y.Law) (idle : p.Lawful → (p.group g).state = .idle)
    (free : p.Lawful → ∀ u, u ≠ t → (p.group g).boundTrack ≠ some u) (now : b = none ∨ b = some t)
    (bound : p.Lawful → ∀ k, k ∈ y.bound ↔ (k = g ∧ b = some t) ∨ (k ≠ g ∧ k ∈ (p.track t).bound))
    (nodup : p.Lawful → y.bound.Nodup) (owner : p.Lawful → (y.owner = none ↔ y.bound = []))
    (apart : p.Lawful → b = some t → ∀ k ∈ (p.track t).bound, k ≠ g → ∀ ln ∈ (p.group g).lanes, ∀ m ∈ (p.group k).lanes,
      ln.channel ≠ m.channel)
    (origins : ∀ (k : Grp) (o : List Int), y.origins[k] = some o → (p.track t).origins[k] = some o ∧ (k = g → b = some t)) :
    p.Upholds ((p.setTrack t y).modGroup g fun x => { x with boundTrack := b }) := by
  refine ⟨.trans (.setTrack law) (.setGroup _ g _), fun h => ?_⟩
  have idle := idle h
  obtain ⟨none, empty, entries, movers, moved, period⟩ := h.move g
  have still : (p.group g).move = Option.none := none.mpr (.inr idle)
  have group (k) : ((p.setTrack t y).modGroup g fun x => { x with boundTrack := b }).group k =
      if k = g then { p.group g with boundTrack := b } else p.group k := by
    rw [Part.modGroup_group]; split
    · next e => rw [e]; rfl
    · rfl
  have sameLanes (k) : (((p.setTrack t y).modGroup g fun x => { x with boundTrack := b }).group k).lanes = (p.group k).lanes := by
    rw [group]; split
    · next e => rw [e]
    · rfl
  have sameState (k) : (((p.setTrack t y).modGroup g fun x => { x with boundTrack := b }).group k).state = (p.group k).state := by
    rw [group]; split
    · next e => rw [e]
    · rfl
  refine .intro (fun k hk => ?_) h.standing (fun k => ?_) fun u => ?_
  · rw [sameState] at hk
    rw [sameLanes]
    exact h.lanes k hk
  · rw [Part.moveLaw_iff, group]
    split
    · next e => subst e; exact ⟨none, empty, by simp [still], movers, by simp [still], period⟩
    · exact h.move k
  · have track : ((p.setTrack t y).modGroup g fun x => { x with boundTrack := b }).track u = if u = t then y else p.track u := by
      rw [Part.modGroup_track, Part.setTrack_track]
    unfold Part.BindingLaw
    simp only [track, sameLanes, sameState]
    obtain ⟨names, hnodup, howner, hdef, hapart, horigins⟩ := h.binding u
    by_cases e : u = t
    · subst e
      simp only [if_pos]
      refine ⟨fun k => ?_, nodup h, owner h, fun k hk => ?_, fun k hk j hj hne => ?_, fun k o ho => ?_⟩
      · rw [bound h k, group]
        by_cases hk : k = g
        · simp [hk]
        · simp [hk, names k]
      · rcases (bound h k).mp hk with ⟨e, -⟩ | ⟨-, hk⟩
        · simp [e, idle]
        · exact hdef k hk
      · rcases (bound h k).mp hk with ⟨rfl, hb⟩ | ⟨hkg, hk⟩
        · rcases (bound h j).mp hj with ⟨e, -⟩ | ⟨hjg, hj⟩
          · exact absurd e.symm hne
          · exact fun x hx z hz => apart h hb j hj hjg x hx z hz
        · rcases (bound h j).mp hj with ⟨rfl, hb⟩ | ⟨hjg, hj⟩
          · exact fun x hx z hz e => apart h hb k hk hkg z hz x hx e.symm
          · exact hapart k hk j hj hne
      · obtain ⟨ho, hb⟩ := origins k o ho
        obtain ⟨hk, length⟩ := horigins k o ho
        refine ⟨(bound h k).mpr ?_, length⟩
        by_cases e : k = g
        · exact .inl ⟨e, hb e⟩
        · exact .inr ⟨e, hk⟩
    · simp only [if_neg e]
      refine ⟨fun k => ?_, hnodup, howner, hdef, hapart, horigins⟩
      rw [group]
      by_cases hk : k = g
      · rw [if_pos hk, names k, hk]
        have h1 : (p.group g).boundTrack ≠ some u := free h u e
        have h2 : b ≠ some u := by
          rcases now with rfl | rfl
          · simp
          · simpa using fun e' => e e'.symm
        simp [h1, h2]
      · rw [if_neg hk, names k]

end Sys2Proof.Machine
end

section
set_option Elab.async false
/-! PROOFS. Fires, completions and cue queues uphold the laws (R63 to R67, R77, R114, R118 to R126). -/

namespace Sys2Proof.Machine

/-! ### The law of a cue queue (R114, R125) -/

theorem CueQueue.clear_law : CueQueue.clear.Law := ⟨by decide, by decide, fun _ => ⟨rfl, rfl⟩, by simp [clear]⟩

theorem CueQueue.pop_law {x : CueQueue} (h : x.Law) : x.pop.Law := by
  obtain ⟨length, numbers, -, -⟩ := h
  refine ⟨by simp [pop]; omega, ?_, fun e => ⟨rfl, ?_⟩, by simp [pop]⟩
  · simp only [pop, List.map_tail]
    exact numbers.sublist (List.tail_sublist _)
  · simp only [pop] at e ⊢
    simp [e]

theorem CueQueue.block_law {x : CueQueue} (h : x.Law) : x.block.Law := by
  obtain ⟨length, numbers, empty, dwell⟩ := h
  exact ⟨length, numbers, fun e => ⟨(empty e).1, by simp only [block] at e ⊢; simp [e]⟩, dwell⟩

theorem CueQueue.disarm_law {x : CueQueue} (h : x.Law) : x.disarm.Law := by
  obtain ⟨length, numbers, empty, -⟩ := h
  exact ⟨length, numbers, fun e => ⟨rfl, (empty e).2⟩, by simp [disarm]⟩

theorem CueQueue.unblock_law {x : CueQueue} (h : x.Law) : x.unblock.Law := by
  obtain ⟨length, numbers, empty, dwell⟩ := h
  exact ⟨length, numbers, fun e => ⟨(empty e).1, rfl⟩, dwell⟩

/-- R119: the head of a queue is armed to dwell. -/
theorem CueQueue.dwelling_law {x : CueQueue} (h : x.Law) (head : x.cues ≠ []) (n : Nat) :
    ({ x with arming := .dwelling, dwellTimer := some n } : CueQueue).Law := by
  obtain ⟨length, numbers, -, -⟩ := h
  exact ⟨length, numbers, fun e => absurd e head, by simp⟩

/-- R120: the head of a queue that waits for nothing is armed for its mark. -/
theorem CueQueue.awaiting_law {x : CueQueue} (h : x.Law) (head : x.cues ≠ []) (unarmed : x.arming = .none) :
    ({ x with arming := .awaitingMark } : CueQueue).Law := by
  obtain ⟨length, numbers, -, dwell⟩ := h
  refine ⟨length, numbers, fun e => absurd e head, ?_⟩
  rw [unarmed] at dwell
  simpa using dwell

/-! ### The admission of a fire (R63 to R65) -/

/-- R63 to R66: what an accepted fire has met, and what it starts. -/
theorem Part.fire_inv {p q : Part} {g : Grp} {tier : Nat} {l : Link} {bad : Bool} {src : MoveSource} {v : Option Nat}
    {plan : List (Int × Nat)} {data : List Byte} (h : p.fire g tier l bad src v plan = .accepted data q) :
    bad = false ∧ q = p.startMove g tier l src v plan
      ∧ ∀ ln ∈ (p.group g).lanes,
        (p.chan ln.channel).state = .idle ∧ (p.chan ln.channel).mover = .none ∧ (p.chan ln.channel).owner = some l := by
  obtain ⟨-, h⟩ := refuseIf_accepted h
  obtain ⟨-, h⟩ := check_accepted h
  obtain ⟨owned, h⟩ := check_accepted h
  obtain ⟨-, h⟩ := check_accepted h
  obtain ⟨allowed, h⟩ := refuseIf_accepted h
  obtain ⟨free, h⟩ := check_accepted h
  obtain ⟨-, h⟩ := check_accepted h
  cases h
  refine ⟨allowed, rfl, fun ln hl => ?_⟩
  have ho := (p.firstLane_none g _).mp owned ln hl
  have hf := (p.firstLane_none g _).mp free ln hl
  simp only [notOwnedBy, bne_eq_false_iff_eq] at ho
  simp only [unreservable, Bool.or_eq_false_iff, bne_eq_false_iff_eq] at hf
  exact ⟨hf.1, hf.2, ho⟩

/-- An accepted fire upholds the laws, when the group, its binding and the plan are those of the fire's kind. -/
theorem Part.Upholds.fire {p q : Part} {g : Grp} {tier : Nat} {l : Link} {bad : Bool} {src : MoveSource} {v : Option Nat}
    {plan : List (Int × Nat)} {data : List Byte} (h : p.fire g tier l bad src v plan = .accepted data q)
    (kind : bad = false → p.Lawful → ((p.group g).state = .idle ∨ (p.group g).state = .held)
      ∧ (p.group g).boundTrack = src.binding
      ∧ plan.length = (p.group g).lanes.length) : p.Upholds q := by
  obtain ⟨allowed, rfl, free⟩ := Part.fire_inv h
  refine .startMove (fun ln hl => ?_) (fun law => ?_) _ _
  · simp [Channel.Reservable, (free ln hl).1]
  · obtain ⟨state, bound, length⟩ := kind allowed law
    exact ⟨state, bound, length, free⟩

theorem Part.cuePlan_length (p : Part) (g : Grp) (x : Cue) : (p.cuePlan g x).length = (p.group g).lanes.length := by
  simp [Part.cuePlan]

theorem Part.cueBarred_false {p : Part} {g : Grp} (h : p.cueBarred g = false) :
    (p.group g).state = .idle ∧ (p.group g).boundTrack = none := by
  simp [Part.cueBarred] at h
  exact h

theorem Part.Upholds.fireCue {p q : Part} {g : Grp} {tier : Nat} {l : Link} {x : Cue} {data : List Byte}
    (h : p.fireCue g tier l x = .accepted data q) : p.Upholds q :=
  .fire h fun allowed _ => by
    obtain ⟨idle, unbound⟩ := Part.cueBarred_false allowed
    exact ⟨.inl idle, unbound, p.cuePlan_length g x⟩

/-- R66: the channels of a started move whose lanes are all ARRIVED are HOLDING. -/
theorem Part.startMove_atRest {p : Part} {g : Grp} (distinct : ((p.group g).lanes.map (·.channel)).Nodup) (tier : Nat)
    (o : Link) (src : MoveSource) (v : Option Nat) {plan : List (Int × Nat)}
    (length : (p.group g).lanes.length ≤ plan.length) (arrived : (p.startMove g tier o src v plan).allArrived g = true) :
    (p.startMove g tier o src v plan).atRest g = true := by
  rw [Part.atRest, List.all_eq_true]
  intro ln hl
  rw [Part.startMove_group, if_pos rfl] at hl
  obtain ⟨i, hi, rfl⟩ := List.getElem_of_mem hl
  have hi : i < (p.group g).lanes.length := hi
  have hz : i < ((p.group g).lanes.zip plan).length := by rw [List.length_zip]; omega
  have mem := List.getElem_mem hz
  have held : (fireLane (p.chan ((p.group g).lanes.zip plan)[i].1.channel) ((p.group g).lanes.zip plan)[i].2.1
      ((p.group g).lanes.zip plan)[i].2.2).state = .arrived := by
    unfold Part.allArrived at arrived
    rw [Part.startMove_group, if_pos rfl] at arrived
    simp only [List.all_map, List.all_eq_true] at arrived
    simpa using arrived _ mem
  have chan := Part.startMove_chan_in distinct tier o src v mem
  simp only [List.getElem_zip] at chan held
  rw [chan]
  simp [Channel.reserve_state, held]

/-! ### Completions (R67, R77) -/

/-- R77: a cue move whose channels are at rest completes. -/
theorem Part.Upholds.completeCue {p : Part} {g : Grp} (moves : p.Lawful → (p.group g).Moves)
    (rest : p.Lawful → p.atRest g = true) (n : Nat) : p.Upholds (p.completeCue g n) := by
  refine .trans (.endMove moves rest fun _ => ?_) (.raise _ _ _)
  rw [Part.clearLanes_group]
  exact ⟨rfl, rfl, .inl ⟨rfl, rfl⟩, rfl⟩

/-- R67: an accepted fire whose lanes are all ARRIVED completes; the queue may have been told in between. -/
theorem Part.Upholds.completeFired {p q : Part} {g : Grp} {tier : Nat} {l : Link} {bad : Bool} {src : MoveSource}
    {v : Option Nat} {plan : List (Int × Nat)} {data : List Byte} (h : p.fire g tier l bad src v plan = .accepted data q)
    (f : CueQueue → CueQueue) (arrived : (q.modQueue g f).allArrived g = true) (n : Nat) :
    (q.modQueue g f).Upholds ((q.modQueue g f).completeCue g n) := by
  obtain ⟨-, rfl, free⟩ := Part.fire_inv h
  have state : ((p.startMove g tier l src v plan).group g).state = .preparing := by rw [Part.startMove_group, if_pos rfl]
  refine .completeCue (fun _ => ?_) (fun law => ?_) n
  · rw [Part.modQueue_group, Group.Moves, state]; simp
  · have distinct := law.distinct (g := g) (by rw [Part.modQueue_group, state]; simp)
    obtain ⟨-, -, entries, -⟩ := law.move g
    rw [Part.modQueue_group, Part.startMove_group, if_pos rfl] at distinct entries
    have length := (entries _ rfl).1
    simp only [List.length_map, List.length_zip] at length
    exact Part.startMove_atRest distinct tier l src v (by omega) arrived

/-! ### Arming and firing (R118 to R126) -/

theorem Part.Upholds.dropLate (p : Part) (g : Grp) (x : Cue) : p.Upholds (p.dropLate g x) :=
  (Part.Upholds.modQueue (f := fun q => q.pop.block) fun h => CueQueue.block_law (CueQueue.pop_law h)).trans (.raise _ _ _)

theorem Part.Upholds.dropRefused (p : Part) (g : Grp) (x : Cue) (code : Result) (index : Byte) :
    p.Upholds (p.dropRefused g x code index) :=
  (Part.Upholds.modQueue (f := fun q => q.pop.block) fun h => CueQueue.block_law (CueQueue.pop_law h)).trans (.raise _ _ _)

theorem Part.Upholds.judgeMark (p : Part) (g : Grp) : p.Upholds (p.judgeMark g).1 := by
  unfold Part.judgeMark
  split
  · split
    · split
      · split
        · exact .modQueue CueQueue.disarm_law
        · exact .dropLate p g _
      · exact .refl p
    all_goals exact .refl p
  · exact .refl p

theorem Part.Upholds.armHead (p : Part) (occ : Occasion) (g : Grp) : p.Upholds (p.armHead occ g).1 := by
  unfold Part.armHead
  split
  · next may =>
    have unarmed : (p.queue g).arming = .none := by
      simp only [Part.mayArm, Bool.and_eq_true, beq_iff_eq] at may
      exact may.2
    split
    · exact .refl p
    · next head =>
      have ne : (p.queue g).cues ≠ [] := by simp [head]
      split
      · exact .refl p
      · split
        · split
          · exact .refl p
          · exact .modQueue (f := fun q => { q with arming := .dwelling, dwellTimer := some _ }) fun h => CueQueue.dwelling_law h ne _
        · exact .refl p
      · exact (Part.Upholds.modQueue (f := fun q => { q with arming := .awaitingMark }) fun h =>
          CueQueue.awaiting_law h ne unarmed).trans (.judgeMark _ g)
  · exact .refl p

theorem Part.Upholds.fireHead (n : Nat) (g : Grp) (p : Part) : p.Upholds (Part.fireHead n g p) := by
  induction n generalizing p with
  | zero => exact .refl p
  | succ n ih =>
    unfold Part.fireHead
    split
    · exact .refl p
    · next cue rest head =>
      split
      · exact .dropRefused p g _ _ _
      · next fired =>
        have popped := (Part.Upholds.fireCue fired).trans (.modQueue (g := g) CueQueue.pop_law)
        dsimp only
        split
        · next arrived =>
          have armed := (popped.trans (.completeFired fired _ arrived cue.number)).trans (.armHead _ .completion g)
          split
          · exact armed.trans (ih _)
          · exact armed
        · exact popped

theorem Part.Upholds.fireIf (r : Part × Bool) (g : Grp) : r.1.Upholds (Part.fireIf r g) :=
  .ite (fun _ => .fireHead _ _ _) fun _ => .refl _

theorem Part.Upholds.arm (p : Part) (occ : Occasion) (g : Grp) : p.Upholds (p.arm occ g) :=
  (Part.Upholds.armHead p occ g).trans (.fireIf _ g)

theorem Part.Upholds.judgeHead (p : Part) (g : Grp) : p.Upholds (p.judgeHead g) :=
  (Part.Upholds.judgeMark p g).trans (.fireIf _ g)

theorem Part.Upholds.judgeAll (p : Part) : p.Upholds p.judgeAll :=
  .forEach (.draw p _) _ _ fun q g _ => .judgeHead q g

theorem Part.Upholds.dwellExpires (p : Part) (g : Grp) : p.Upholds (p.dwellExpires g) :=
  (Part.Upholds.modQueue CueQueue.disarm_law).trans (.fireIf (p.modQueue g CueQueue.disarm, true) g)

/-- R67, R77, R126: the end of an accepted fire's taking. -/
theorem Part.Upholds.afterFire {p q : Part} {g : Grp} {tier : Nat} {l : Link} {bad : Bool} {src : MoveSource}
    {v : Option Nat} {plan : List (Int × Nat)} {data : List Byte} (h : p.fire g tier l bad src v plan = .accepted data q)
    (f : CueQueue → CueQueue) (n : Nat) : (q.modQueue g f).Upholds ((q.modQueue g f).afterFire g n) :=
  .ite (fun arrived => (Part.Upholds.completeFired h f arrived n).trans (.arm _ _ g)) fun _ => .refl _

end Sys2Proof.Machine
end

section
set_option Elab.async false
/-! PROOFS. Stops, the ends of plays, faults and halts uphold the laws (R17, R79 to R84, R145 to R149, R155). -/

namespace Sys2Proof.Machine

/-! ### The end of a group's move (R81, R82) -/

@[simp] theorem Part.enterStopping_state (p : Part) (g : Grp) (reason : StopReason) :
    ((p.enterStopping g reason).group g).state = .stopping := by
  rw [Part.enterStopping_group, if_pos rfl]

/-- A group that is STOPPING has no control period. -/
theorem Part.Lawful.stopped {p : Part} (h : p.Lawful) {g : Grp} (hs : (p.group g).state = .stopping) :
    (p.group g).controlTimer = none := by
  obtain ⟨-, -, -, -, -, timer⟩ := h.move g
  by_contra hne
  have := timer.mp (Option.isSome_iff_ne_none.mpr hne)
  simp [hs] at this

/-- R82: a STOPPING group whose channels are at rest leaves STOPPING. -/
theorem Part.Upholds.exitCore {p : Part} {g : Grp} (stopping : (p.group g).state = .stopping) (rest : p.atRest g = true) :
    p.Upholds (p.exitCore g) := by
  have ended {f : Group → Group} (hf : p.Lawful → (p.group g).EndOf (f (p.group g))) :
      p.Upholds ((p.clearLanes g).modGroup g f) := by
    unfold Part.modGroup
    rw [Part.clearLanes_group]
    exact .endMove (fun _ => by simp [Group.Moves, stopping]) (fun _ => rest) hf
  unfold Part.exitCore
  split
  · exact .refl p
  · next m hm =>
    dsimp only
    split
    · have faulted := ended (f := fun x => { x with state := .faulted }) fun h =>
        ⟨rfl, rfl, .inr ⟨.inr rfl, rfl⟩, h.stopped stopping⟩
      split
      · exact faulted.trans (.raise _ _ _)
      · exact faulted
    · exact (ended (f := fun x => { x with state := .idle, move := none }) fun h =>
        ⟨rfl, rfl, .inl ⟨rfl, rfl⟩, h.stopped stopping⟩).trans (.raise _ _ _)
    · exact ended (f := fun x => { x with state := .idle, move := none }) fun h =>
        ⟨rfl, rfl, .inl ⟨rfl, rfl⟩, h.stopped stopping⟩
    · exact (ended (f := fun x => { x with state := .held, held := true }) fun h =>
        ⟨rfl, rfl, .inr ⟨.inl rfl, rfl⟩, h.stopped stopping⟩).trans (.raise _ _ _)

/-! ### The ends of a play (R145 to R148) -/

theorem Part.Upholds.clearPlay (p : Part) (t : Trk) : p.Upholds (p.modTrack t Track.clearPlay) :=
  .modTrack id rfl rfl (.inr rfl)

theorem Part.Upholds.completionOrder (p : Part) (g : Grp) : p.Upholds (p.completionOrder g) := by
  refine .ite (fun active => ?_) fun _ => .refl p
  have entered := Part.Upholds.enterStopping (p := p) (g := g) (.inl active) .complete
  dsimp only
  split
  · next rest => exact entered.trans (.exitCore (by simp) rest)
  · exact entered

theorem Part.Upholds.endPlay (p : Part) (t : Trk) (e : Event) : p.Upholds (p.endPlay t e) :=
  (Part.Upholds.forEach (.clearPlay p t) _ _ fun q g _ => .completionOrder q g).trans (.raise _ _ _)

theorem Part.Upholds.segmentReached (p : Part) (t : Trk) (g : Grp) : p.Upholds (p.segmentReached t g) := by
  refine .ite (fun _ => ?_) fun _ => .refl p
  have marked : p.Upholds (p.modTrack t fun x => { x with arrived := addGroup g x.arrived }) :=
    .modTrack id rfl rfl (.inl rfl)
  dsimp only
  split
  · exact marked.trans (.endPlay _ t _)
  · exact marked

theorem Part.Upholds.abandonPlay (p : Part) (t : Trk) : p.Upholds (p.abandonPlay t) :=
  (Part.Upholds.modTrack (f := Track.endSegment) id rfl rfl (.inl rfl)).trans (.raise _ _ _)

theorem Part.Upholds.moveEnded (p : Part) (t : Trk) (g : Grp) : p.Upholds (p.moveEnded t g) := by
  refine .ite (fun _ => ?_) fun _ => .refl p
  have left : p.Upholds (p.modTrack t (Track.dropPlaying g)) := .modTrack id rfl rfl (.inl rfl)
  dsimp only
  split
  · split
    · exact left.trans (.abandonPlay _ t)
    · exact left
  · split
    · exact left.trans (.endPlay _ t _)
    · exact left

/-! ### Leaving STOPPING, and stops (R81 to R83, R148) -/

theorem Part.Upholds.tellEnd (p : Part) (g : Grp) (m : MoveRecord) : p.Upholds (p.tellEnd g m) := by
  unfold Part.tellEnd
  split
  · exact .moveEnded p _ g
  · split
    · exact .arm p _ g
    · exact .refl p

theorem Part.Upholds.exitStopping (p : Part) (g : Grp) : p.Upholds (p.exitStopping g) := by
  refine .ite (fun h => ?_) fun _ => .refl p
  simp only [Bool.and_eq_true, decide_eq_true_eq] at h
  split
  · exact (Part.Upholds.exitCore h.1 h.2).trans (.tellEnd _ g _)
  · exact .refl p

theorem Part.Upholds.stopGroup (p : Part) (g : Grp) (reason : StopReason) : p.Upholds (p.stopGroup g reason) :=
  .ite (fun active => (Part.Upholds.enterStopping (.inl active) reason).trans (.exitStopping _ g)) fun _ => .refl p

theorem Part.Upholds.haltTrack (p : Part) (t : Trk) : p.Upholds (p.haltTrack t) := by
  unfold Part.haltTrack
  split
  case h_1 | h_2 =>
    exact (Part.Upholds.forEach (.clearPlay p t) _ _ fun q g _ => .stopGroup q g _).trans (.raise _ _ _)
  all_goals exact .modTrack id rfl rfl (.inr rfl)

/-! ### Faults and halts (R17, R79, R80, R155) -/

/-- R80: the cause of a group's fault is no part of a law. -/
theorem Part.Upholds.groupFault (p : Part) (g : Grp) (f : Option GroupFault) :
    p.Upholds (p.modGroup g fun x => { x with fault := f }) :=
  .regroup fun _ => .of_same rfl rfl rfl rfl rfl

theorem Part.Upholds.memberFault (p : Part) (g : Grp) (c : Chan) (k : FaultKind) : p.Upholds (p.memberFault g c k) := by
  have caused := Part.Upholds.groupFault p g (some (p.faultCause g c k))
  unfold Part.memberFault
  dsimp only
  split
  case h_1 | h_2 => exact caused.trans (.stopGroup _ g _)
  case h_3 =>
    refine .ite (fun _ => .refl p) fun _ => caused.trans (.regroup fun _ => ⟨rfl, rfl, .inl rfl, rfl, ?_, fun n hn => ?_⟩)
    · simp
    · obtain ⟨m, hm, rfl⟩ := Option.map_eq_some_iff.mp hn
      exact ⟨m, hm, rfl, rfl, id⟩
  all_goals exact .refl p

theorem CueQueue.halt_law {x : CueQueue} (h : x.Law) : x.halt.Law := block_law (disarm_law h)

theorem Part.Upholds.handHalt (p : Part) : p.Upholds p.handHalt := by
  refine .forEach (.trans (.forEach (.forEach (.forEach (.draw p 8) _ _ ?_) _ _ ?_) _ _ ?_) (.endJogs _ _)) _ _ ?_
  · exact fun q g _ => .stopGroup q g _
  · exact fun q t _ => .haltTrack q t
  · exact fun q g _ => .stopGroup q g _
  · exact fun q g _ => .modQueue CueQueue.halt_law

theorem Part.Upholds.halt (p : Part) (cause : ModeCause) : p.Upholds (p.halt cause) :=
  .ite (fun _ => .refl p) fun _ =>
    ((Part.Upholds.silenceDisarm p false).trans (.changeMode (.inl rfl) cause)).trans (.handHalt _)

theorem Part.Upholds.faultReaches (p : Part) (c : Chan) (k : FaultKind) : p.Upholds (p.faultReaches c k) := by
  refine .ite (fun new => ?_) fun _ => .refl p
  simp only [Bool.and_eq_true, Bool.not_eq_true'] at new
  have entered := Part.Upholds.fault new.1 new.2
  have told : p.Upholds (match (p.chan c).mover with
      | .group g => (p.modChan c fun x => (x.enterFault k).faultState).memberFault g c k
      | .jog _ => (p.modChan c fun x => (x.enterFault k).faultState).endJog c
      | .none => p.modChan c fun x => (x.enterFault k).faultState) := by
    split
    · exact entered.trans (.memberFault _ _ c k)
    · next l hl => exact entered.trans (.endJog fun _ => ⟨l, by simp [hl]⟩)
    · exact entered
  have raised := told.trans (.raise _ (.channelFault c) (.fault k))
  dsimp only
  split
  · exact raised.trans (.halt _ _)
  · exact raised

theorem Part.Upholds.raiseGroupFault {p : Part} {g : Grp} (e : (p.group g).Engaged) (lane : Nat) (cause : GroupFault)
    (k : FaultKind) : p.Upholds (p.raiseGroupFault g lane cause k) := by
  have entered := (Part.Upholds.groupFault p g (some cause)).trans (.enterStopping (g := g)
    (by rw [Part.modGroup_group_self]; exact e) .fault)
  unfold Part.raiseGroupFault
  dsimp only
  split
  · exact (entered.trans (.faultReaches _ _ k)).trans (.exitStopping _ g)
  · exact entered.trans (.exitStopping _ g)

end Sys2Proof.Machine
end

section
set_option Elab.async false
/-! PROOFS. Samples, control periods and tracks uphold the laws (R5, R69, R85, R137 to R148). -/

namespace Sys2Proof.Machine

/-! ### A sample (R5) -/

theorem Part.Upholds.tellMover (p : Part) (c : Chan) : p.Upholds (p.tellMover c) := by
  unfold Part.tellMover
  split
  · exact .exitStopping p _
  all_goals exact .refl p

theorem Part.Upholds.judgeStandstill (p : Part) (c : Chan) : p.Upholds (p.judgeStandstill c) :=
  .ite (fun _ => (Part.Upholds.standstill p c).trans (.tellMover _ c)) fun _ => .refl p

theorem Group.confirmLane_alike (c : Chan) (x : Group) : x.Alike (x.confirmLane c) := by
  refine ⟨rfl, rfl, .inl rfl, rfl, by simp [confirmLane], fun n hn => ?_⟩
  obtain ⟨m, hm, rfl⟩ := Option.map_eq_some_iff.mp hn
  exact ⟨m, hm, rfl, rfl, fun h => by simp [h]⟩

theorem Channel.starting_of_confirmed {x : Channel} (h : x.confirmed = true) : x.state = .starting := by
  simp only [confirmed, Bool.and_eq_true, beq_iff_eq] at h
  exact h.1

theorem Part.Upholds.judgeConfirm (p : Part) (c : Chan) : p.Upholds (p.judgeConfirm c) := by
  refine .ite (fun confirmed => ?_) fun _ => .refl p
  have moving := Part.Upholds.toMoving (Channel.starting_of_confirmed confirmed)
  dsimp only
  split
  · exact moving.trans (.regroup fun _ => Group.confirmLane_alike c _)
  all_goals exact moving

theorem Part.Lawful.jogged {p : Part} (h : p.Lawful) {c : Chan} (hj : (p.chan c).jog.isSome = true) :
    ∃ l, (p.chan c).mover = .jog l := by
  obtain ⟨-, -, -, jog, -⟩ := h.standing c
  exact jog.mp hj

theorem Part.Upholds.judgeJogLimit (p : Part) (c : Chan) : p.Upholds (p.judgeJogLimit c) := by
  unfold Part.judgeJogLimit
  dsimp only
  split
  · next hj => exact .ite (fun _ => .endJog fun h => h.jogged (by rw [hj]; rfl)) fun _ => .refl p
  · exact .refl p

theorem Channel.moveExtreme_alike (x : Channel) : x.Alike x.moveExtreme := by
  unfold moveExtreme
  split
  · split <;> exact ⟨rfl, rfl, rfl, rfl, rfl, rfl, rfl⟩
  · exact .refl x

theorem Channel.moveProgress_alike (x : Channel) : x.Alike x.moveProgress := by
  unfold moveProgress
  split
  · exact .refl x
  · split <;> exact ⟨rfl, rfl, rfl, rfl, rfl, rfl, rfl⟩

theorem Part.Upholds.detect (p : Part) (c : Chan) : p.Upholds (p.detect c) :=
  .forEach (.modAlike ((Channel.moveExtreme_alike _).trans (Channel.moveProgress_alike _))) _ _ fun q k _ =>
    .faultReaches q c k

theorem Part.Upholds.watchLoad (p : Part) (c : Chan) (b : Option Nat) : p.Upholds (p.watchLoad c b) := by
  unfold Part.watchLoad
  split
  · exact .ite (fun _ => (Part.Upholds.modAlike ⟨rfl, rfl, rfl, rfl, rfl, rfl, rfl⟩).trans (.raise _ _ _)) fun _ => .refl p
  · exact .refl p

theorem Part.Upholds.judgeSample (p : Part) (c : Chan) (b : Option Nat) : p.Upholds (p.judgeSample c b) :=
  .ite (fun _ => ((((Part.Upholds.judgeStandstill p c).trans (.judgeConfirm _ c)).trans (.judgeJogLimit _ c)).trans
    (.detect _ c)).trans (.watchLoad _ c b)) fun _ => .refl p

theorem Part.Upholds.sampleArrives (p : Part) (c : Chan) (s : Sample) : p.Upholds (p.sampleArrives c s) := by
  have arrived : p.Upholds (p.modPort c (Port.arrive (p.hasChan c) s)) := .setPort p c _
  unfold Part.sampleArrives
  dsimp only
  split
  · exact (arrived.trans (.modAlike ⟨rfl, rfl, rfl, rfl, rfl, rfl, rfl⟩)).trans (.judgeSample _ c _)
  · exact arrived

theorem Part.Upholds.feedbackLost (p : Part) (c : Chan) : p.Upholds (p.feedbackLost c) := by
  have lost : p.Upholds (p.modPort c fun q => { q with feedbackTimer := none, arrivedSinceLoss := false }) := .setPort p c _
  exact (lost.trans (.modAlike ⟨rfl, rfl, rfl, rfl, rfl, rfl, rfl⟩)).trans (.faultReaches _ c _)

/-! ### The lane channels of a group under way (R71, R75, R85) -/

/-- A lane channel of a group under way has a mover. -/
theorem Part.Lawful.commanded {p : Part} (h : p.Lawful) {g : Grp} (e : (p.group g).Engaged) {ln : Lane}
    (hl : ln ∈ (p.group g).lanes) : (p.chan ln.channel).mover ≠ .none := by
  rw [h.moved (h.moves e) hl]
  simp

/-- Orders to lane channels of a group under way, each an order that the channel's mover may give. -/
theorem Part.Upholds.orderLanes {α : Type} {p q : Part} {g : Grp} (h : p.Upholds q) (e : (q.group g).Engaged) (l : List α)
    (lane : α → Lane) (f : α → Channel → Channel) (lanes : ∀ x ∈ l, lane x ∈ (q.group g).lanes)
    (order : ∀ (r : Part) x, x ∈ l → (r.Lawful → (r.chan (lane x).channel).mover ≠ .none) →
      r.Upholds (r.modChan (lane x).channel (f x))) :
    p.Upholds (q.forEach l fun r x => r.modChan (lane x).channel (f x)) :=
  h.forEach_inv (fun r => r.group g = q.group g) l _ rfl fun r x hx same =>
    ⟨order r x hx fun law => law.commanded (g := g) (same ▸ e) (by rw [same]; exact lanes x hx), same⟩

theorem Part.Upholds.trim {p : Part} {c : Chan} (moved : p.Lawful → (p.chan c).mover ≠ .none) (t : Trim) (r : LaneRecord) :
    p.Upholds (p.modChan c (Channel.trim t r)) := by
  cases t with
  | keep => exact .alike (Channel.Alike.refl _)
  | resume => exact .releaseArm moved _ _ _
  | hold =>
    by_cases fixed : (p.chan c).kind = .fixedSpeed
    · have : p.modChan c (Channel.trim .hold r) = p.modChan c fun x => x.stop.armWatch false := by
        simp only [Part.modChan, Channel.trim, if_pos fixed]
      rw [this]
      exact .stopArm p c false
    · have : p.modChan c (Channel.trim .hold r) = p.modChan c fun x =>
          (x.release (dirOf r.travel) (r.demand / 2)).armWatch false := by
        simp only [Part.modChan, Channel.trim, if_neg fixed]
      rw [this]
      exact .releaseArm moved _ _ _

theorem Part.Upholds.follow {p : Part} {c : Chan} (moved : p.Lawful → (p.chan c).mover ≠ .none) (r : LaneRecord) :
    p.Upholds (p.modChan c (Channel.follow r)) := by
  by_cases arrived : r.state = .arrived
  · have : Channel.follow r = fun x => x.stop.armWatch false := funext fun x => if_pos arrived
    rw [this]
    exact .stopArm p c false
  · have : Channel.follow r = fun x => (x.release (dirOf r.travel) r.demand).armWatch true := funext fun x => if_neg arrived
    rw [this]
    exact .releaseArm moved _ _ _

/-! ### The control period (R69 to R77) -/

theorem Group.startRunning_alike (x : Group) : x.Alike x.startRunning := by
  unfold startRunning
  split
  · next m hm =>
    split
    · next h =>
      simp only [Bool.and_eq_true, decide_eq_true_eq] at h
      refine ⟨rfl, rfl, .inr ⟨.inl (by simp [active, h.1]), .inr rfl⟩, rfl, Iff.rfl, fun n hn => ⟨n, hn, rfl, rfl, id⟩⟩
    · exact .of_same rfl rfl rfl rfl rfl
  · exact .of_same rfl rfl rfl rfl rfl

theorem Group.startRunning_keeps (x : Group) :
    x.startRunning.lanes = x.lanes ∧ x.startRunning.controlTimer = x.controlTimer ∧ x.startRunning.move = x.move := by
  unfold startRunning
  split
  · split <;> exact ⟨rfl, rfl, rfl⟩
  · exact ⟨rfl, rfl, rfl⟩

theorem Part.leads_length (p : Part) (g : Grp) (m : MoveRecord) :
    (p.leads g m).length = min (p.group g).lanes.length m.lanes.length := by
  simp [Part.leads, Part.progress]

theorem Part.trimStep_group (p : Part) (g h : Grp) (m : MoveRecord) (leads : List Int) :
    (p.trimStep g m leads).group h = if h = g then { p.group g with
      move := some { m with lanes := (m.lanes.zip (trims (p.group g).syncWindow m leads)).map fun rt => rt.1.trim rt.2 } }
      else p.group h := by
  refine (Part.forEach_keeps (fun q => q.group h) _ _ fun q _ _ => Part.modChan_group q _ _ h).trans ?_
  rw [Part.modGroup_group]
  split
  · next e => rw [e]
  · rfl

theorem Part.Upholds.trimStep {p : Part} {g : Grp} {m : MoveRecord} (e : (p.group g).Engaged)
    (hm : (p.group g).move = some m) {leads : List Int}
    (length : m.lanes.length = (p.group g).lanes.length → leads.length = m.lanes.length) :
    p.Upholds (p.trimStep g m leads) := by
  have noted : p.Upholds (p.modGroup g fun x => { x with
      move := some { m with lanes := (m.lanes.zip (trims (p.group g).syncWindow m leads)).map fun rt => rt.1.trim rt.2 } }) := by
    refine .regroup fun _ => ⟨rfl, rfl, .inl rfl, rfl, by simp [hm], fun n hn => ⟨m, hm, ?_⟩⟩
    cases hn
    exact ⟨rfl, rfl, fun h => by simp [trims, length h, h]⟩
  refine noted.orderLanes (g := g) (by rw [Part.modGroup_group_self]; exact e) _
    (lane := fun lrt : Lane × (LaneRecord × Trim) => lrt.1) (f := fun lrt => Channel.trim lrt.2.2 lrt.2.1)
    (fun x hx => ?_) fun r x _ moved => .trim moved _ _
  rw [Part.modGroup_group_self]
  exact (List.of_mem_zip hx).1

theorem Part.arriveLane_keeps (p : Part) (g : Grp) (il : Nat × Lane) :
    ((p.arriveLane g il).group g).state = (p.group g).state
      ∧ ((p.arriveLane g il).group g).controlTimer = (p.group g).controlTimer
      ∧ ((p.arriveLane g il).group g).lanes = (p.group g).lanes := by
  unfold Part.arriveLane
  split
  · exact ⟨rfl, rfl, rfl⟩
  · split
    · exact ⟨rfl, rfl, rfl⟩
    · split
      · simp
      · exact ⟨rfl, rfl, rfl⟩

theorem Part.Upholds.arriveLane (p : Part) (g : Grp) (il : Nat × Lane) : p.Upholds (p.arriveLane g il) := by
  unfold Part.arriveLane
  split
  · exact .refl p
  · next m hm =>
    split
    · exact .refl p
    · refine .ite (fun _ => .trans (.regroup fun _ => ?_) (.stopArm _ _ false)) fun _ => .refl p
      refine ⟨rfl, rfl, .inl rfl, rfl, by simp [hm], fun n hn => ⟨m, hm, ?_⟩⟩
      cases hn
      exact ⟨rfl, rfl, fun h => by simpa using h⟩

theorem Part.arrivals_keeps (p : Part) (g : Grp) :
    ((p.arrivals g).group g).state = (p.group g).state
      ∧ ((p.arrivals g).group g).controlTimer = (p.group g).controlTimer :=
  Part.forEach_inv (P := fun q => (q.group g).state = (p.group g).state
    ∧ (q.group g).controlTimer = (p.group g).controlTimer) ⟨rfl, rfl⟩ fun q il _ hq => by
      obtain ⟨state, timer, -⟩ := q.arriveLane_keeps g il
      exact ⟨state.trans hq.1, timer.trans hq.2⟩

theorem Group.Engaged.of_same {x y : Group} (h : x.Engaged) (state : y.state = x.state)
    (timer : y.controlTimer = x.controlTimer) : y.Engaged := by
  unfold Engaged Group.active at *
  rwa [state, timer]

theorem Part.Upholds.arrivals (p : Part) (g : Grp) : p.Upholds (p.arrivals g) :=
  .forEach (.refl p) _ _ fun q il _ => .arriveLane q g il

theorem Part.atRest_of_moveDone {p : Part} {g : Grp} (h : p.moveDone g = true) : p.atRest g = true := by
  simp only [Part.moveDone, Bool.and_eq_true, List.all_eq_true] at h
  rw [Part.atRest, List.all_eq_true]
  intro ln hl
  rw [h.2 ln hl, Bool.true_or]

theorem Part.Upholds.completion {p : Part} {g : Grp} (e : (p.group g).Engaged) : p.Upholds (p.completion g) := by
  refine .ite (fun done => ?_) fun _ => .refl p
  split
  · split
    · exact (Part.Upholds.completeCue (fun h => h.moves e) (fun _ => Part.atRest_of_moveDone done) _).trans (.arm _ _ g)
    · exact .segmentReached p _ g
  · exact .refl p

theorem Part.Upholds.superviseLanes {p : Part} {g : Grp} (e : (p.group g).Engaged) (m : MoveRecord) (leads : List Int) :
    p.Upholds (p.superviseLanes g m leads) := by
  unfold Part.superviseLanes
  split
  · exact .raiseGroupFault e _ _ _
  · split
    · exact .raiseGroupFault e _ _ _
    · obtain ⟨state, timer⟩ := p.arrivals_keeps g
      exact (Part.Upholds.arrivals p g).trans (.completion (e.of_same state timer))

theorem Part.Upholds.period {p : Part} {g : Grp} (e : (p.group g).controlTimer.isSome = true) : p.Upholds (p.period g) := by
  have timed : p.Upholds (p.modGroup g fun x => { x with controlTimer := some Config.controlMs }) :=
    .regroup fun _ => .of_same rfl rfl rfl (by simp [e]) rfl
  have restarted : p.Upholds ((p.modGroup g fun x => { x with controlTimer := some Config.controlMs }).modGroup g
      Group.startRunning) :=
    timed.trans (.regroup fun _ => Group.startRunning_alike _)
  have running : (((p.modGroup g fun x => { x with controlTimer := some Config.controlMs }).modGroup g
      Group.startRunning).group g).Engaged := by
    rw [Part.modGroup_group_self]
    refine .inr ?_
    rw [(Group.startRunning_keeps _).2.1, Part.modGroup_group_self]
    rfl
  unfold Part.period
  dsimp only
  split
  · next m hm =>
    refine (restarted.trans (.trimStep running hm fun h => ?_)).trans (.superviseLanes ?_ _ _)
    · rw [Part.leads_length, h, Nat.min_self]
    · refine running.of_same ?_ ?_ <;> rw [Part.trimStep_group, if_pos rfl]
  · exact restarted

/-! ### Segments (R85, R141, R144, R146) -/

theorem Track.Law.tail {x y : Track} (h : x.Law) {w : Waypoint} (hw : x.waypoints = w :: y.waypoints) : y.Law := by
  obtain ⟨length, last⟩ := h
  rw [hw] at length last
  refine ⟨by simp at length; omega, fun v hv => last v ?_⟩
  have ne : y.waypoints ≠ [] := fun e => by simp [e] at hv
  rw [List.dropLast_cons_of_ne_nil ne]
  exact List.mem_cons_of_mem _ hv

theorem Track.takeHead_law {x : Track} (h : x.Law) : x.takeHead.Law := by
  unfold takeHead
  split
  · exact h
  · next w rest hw => exact h.tail (w := w) hw

theorem Track.takeHead_keeps (x : Track) :
    x.takeHead.bound = x.bound ∧ x.takeHead.owner = x.owner ∧ x.takeHead.origins = x.origins := by
  unfold takeHead; split <;> exact ⟨rfl, rfl, rfl⟩

/-- R143: a bound group has an origin for each lane, or takes one from each position. -/
theorem Part.Lawful.originsOf_length {p : Part} (h : p.Lawful) (t : Trk) (g : Grp) :
    (p.originsOf t g).length = (p.group g).lanes.length := by
  obtain ⟨-, -, -, -, -, origins⟩ := h.binding t
  unfold Part.originsOf
  cases ho : (p.track t).origins[g] with
  | none => simp [Part.positions]
  | some o => exact (origins g o ho).2

theorem Part.Lawful.segmentPlan_length {p : Part} (h : p.Lawful) (t : Trk) (g : Grp) (w : Waypoint) :
    (p.segmentPlan t g w).length = (p.group g).lanes.length := by
  simp [Part.segmentPlan, h.originsOf_length t g]

theorem Part.Upholds.retarget {p : Part} {g : Grp} {plan : List (Int × Nat)} (active : (p.group g).active = true)
    (length : p.Lawful → plan.length = (p.group g).lanes.length) : p.Upholds (p.retarget g plan) := by
  unfold Part.retarget
  split
  · exact .refl p
  · next m hm =>
    refine .ite (fun _ => .refl p) fun _ => ?_
    refine Part.Upholds.orderLanes (g := g) (lane := fun lr : Lane × LaneRecord => lr.1)
      (f := fun lr => Channel.follow lr.2) (.regroup fun h => ?_) ?_ _ (fun x hx => ?_) fun r x _ moved => .follow moved _
    · refine ⟨rfl, rfl, ?_, rfl, by simp [hm], fun n hn => ⟨m, hm, ?_⟩⟩
      · by_cases all : (p.retargetLanes g plan m).all (·.confirmed) = true
        · exact .inl (if_pos all)
        · exact .inr ⟨.inl active, .inl (if_neg all)⟩
      · cases hn
        exact ⟨rfl, rfl, fun h' => by simp [Part.retargetLanes, length h, h']⟩
    · refine .inl ?_
      rw [Part.setGroup_group, if_pos rfl]
      rw [Group.active_iff] at active ⊢
      dsimp only
      split
      · exact active
      · exact .inl rfl
    · rw [Part.setGroup_group, if_pos rfl]
      exact (List.of_mem_zip hx).1

theorem Part.Upholds.startSegment (p : Part) (t : Trk) : p.Upholds (p.startSegment t) := by
  unfold Part.startSegment
  split
  · exact .refl p
  · obtain ⟨bound, owner, origins⟩ := Track.takeHead_keeps (p.track t)
    refine .forEach (.modTrack Track.takeHead_law bound owner (.inl origins)) _ _ fun q g _ => ?_
    exact .ite (fun active => .retarget active fun h => h.segmentPlan_length t g _) fun _ => .refl q

theorem Part.Upholds.judgeLag (p : Part) (t : Trk) (w : Waypoint) (g : Grp) : p.Upholds (p.judgeLag t w g) := by
  refine .ite (fun active => ?_) fun _ => .refl p
  split
  · exact (Part.Upholds.raiseGroupFault (.inl active) _ _ _).trans (.raise _ _ _)
  · exact .refl p

theorem Part.Upholds.afterSegment (p : Part) (t : Trk) (w : Waypoint) : p.Upholds (p.afterSegment t w) := by
  unfold Part.afterSegment
  split
  · have closing : p.Upholds (p.modTrack t fun x => { x with closing := true }) := .modTrack id rfl rfl (.inl rfl)
    dsimp only
    split
    · exact closing.trans (.endPlay _ t _)
    · exact closing
  · refine .ite (fun _ => .trans (.modTrack id rfl rfl (.inl rfl)) (.raise _ _ _)) fun _ => .startSegment p t

theorem Part.Upholds.segmentExpires (p : Part) (t : Trk) (w : Waypoint) : p.Upholds (p.segmentExpires t w) := by
  have judged : p.Upholds ((p.modTrack t fun x => { x with segmentTimer := none }).forEach (p.track t).playing fun p g =>
      p.judgeLag t w g) :=
    .forEach (.modTrack id rfl rfl (.inl rfl)) _ _ fun q g _ => .judgeLag q t w g
  unfold Part.segmentExpires
  dsimp only
  split
  · exact judged.trans (.afterSegment _ t w)
  · exact judged

/-! ### Binding (R137, R138) -/

theorem mem_addGroup (g h : Grp) (l : List Grp) : h ∈ addGroup g l ↔ h = g ∨ h ∈ l := by simp [addGroup]
theorem addGroup_nodup (g : Grp) (l : List Grp) : (addGroup g l).Nodup := allGroups_nodup.filter _
theorem mem_dropGroup (g h : Grp) (l : List Grp) : h ∈ dropGroup g l ↔ h ∈ l ∧ h ≠ g := by simp [dropGroup]

theorem Part.sharedLane_none {p : Part} {t : Trk} {g : Grp} (h : p.sharedLane t g = none) :
    ∀ ln ∈ (p.group g).lanes, ∀ k ∈ (p.track t).bound, ∀ m ∈ (p.group k).lanes, ln.channel ≠ m.channel := by
  simp only [Part.sharedLane, Option.map_eq_none_iff, List.findIdx?_eq_none_iff, List.any_eq_false] at h
  intro ln hl k hk m hm e
  exact h ln hl k hk (List.any_eq_true.mpr ⟨m, hm, beq_iff_eq.mpr e.symm⟩)

theorem Part.Upholds.bind {p : Part} {t : Trk} {g : Grp} (idle : (p.group g).state = .idle)
    (unbound : (p.group g).boundTrack = none) (apart : p.sharedLane t g = none) (l : Link) : p.Upholds (p.bind l t g) := by
  refine .trans (.rebind (y := { p.track t with
    bound := addGroup g (p.track t).bound
    owner := if (p.track t).bound.isEmpty then some l else (p.track t).owner }) (b := some t) id (fun _ => idle) (fun _ u _ => by simp [unbound]) (.inr rfl) (fun h k => ?_)
    (fun _ => addGroup_nodup _ _) (fun h => ?_) (fun _ _ k hk _ ln hl m hm => Part.sharedLane_none apart ln hl k hk m hm)
    fun k o ho => ⟨ho, fun _ => rfl⟩) (.modQueue CueQueue.disarm_law)
  · show k ∈ addGroup g _ ↔ _
    rw [mem_addGroup]
    by_cases e : k = g <;> simp [e]
  · obtain ⟨-, -, owner, -⟩ := h.binding t
    have ne : addGroup g (p.track t).bound ≠ [] := fun e => by
      have := (mem_addGroup g g (p.track t).bound).mpr (.inl rfl)
      simp [e] at this
    by_cases e : (p.track t).bound = []
    · simp [e]
      simpa [e] using ne
    · simp [e, ne, owner]

theorem Vector.getElem_set_grp {α : Type} (v : Vector α 8) (g k : Grp) (x : α) :
    (v.set g x)[k] = if k = g then x else v[k] := by
  by_cases h : k = g
  · subst h; simp
  · have : g.val ≠ k.val := fun e => h (Fin.ext e.symm)
    simp [h, this]

theorem Track.dropBound_keeps (g : Grp) (x : Track) :
    (x.dropBound g).bound = dropGroup g x.bound ∧ (x.dropBound g).origins = x.origins.set g none
      ∧ ((x.dropBound g).waypoints = x.waypoints ∨ (x.dropBound g).waypoints = [])
      ∧ (x.dropBound g).owner = if dropGroup g x.bound = [] then none else x.owner := by
  unfold dropBound
  dsimp only
  split
  · next e => exact ⟨rfl, rfl, .inr rfl, (if_pos (List.isEmpty_iff.mp e)).symm⟩
  · next e => exact ⟨rfl, rfl, .inl rfl, (if_neg fun e' => e (List.isEmpty_iff.mpr e')).symm⟩

theorem Track.dropBound_law {x : Track} (h : x.Law) (g : Grp) : (x.dropBound g).Law := by
  obtain ⟨-, -, hw, -⟩ := dropBound_keeps g x
  rcases hw with e | e
  · unfold Track.Law; rw [e]; exact h
  · unfold Track.Law; simp [e]

theorem Part.UpholdsEach.unbind (p : Part) (t : Trk) (g : Grp) : p.UpholdsEach (p.unbind t g) :=
  ((Part.UpholdsEach.setTrack fun h => Track.dropBound_law h g).trans (.setGroup _ g _)).trans
    (Part.Upholds.arm _ _ g).toUpholdsEach

theorem Part.Upholds.unbind {p : Part} {t : Trk} {g : Grp} (idle : (p.group g).state = .idle)
    (bound : p.Lawful → (p.group g).boundTrack = some t) : p.Upholds (p.unbind t g) := by
  obtain ⟨hb, ho, -, howner⟩ := Track.dropBound_keeps g (p.track t)
  refine .trans (.rebind (fun h => Track.dropBound_law h g) (fun _ => idle) (fun h u hu e => hu ?_) (.inl rfl) (fun h k => ?_) (fun h => ?_)
    (fun h => ?_) (fun _ e => nomatch e) fun k o hk => ?_) (.arm _ _ g)
  · rw [bound h] at e
    exact (Option.some.inj e).symm
  · rw [hb, mem_dropGroup]; simp [and_comm]
  · obtain ⟨-, nodup, -⟩ := h.binding t
    rw [hb]
    exact nodup.filter _
  · obtain ⟨-, -, owner, -⟩ := h.binding t
    rw [howner, hb]
    split
    · next e => simp [e]
    · next e =>
      rw [owner]
      refine ⟨fun e' => ?_, fun e' => absurd e' e⟩
      rw [e']; rfl
  · rw [ho, Vector.getElem_set_grp] at hk
    split at hk
    · cases hk
    · next ne => exact ⟨hk, fun e => absurd e ne⟩

/-! ### Feeding and playing (R139 to R143) -/

theorem Part.Upholds.feed {p : Part} {t : Trk} {batch : List Waypoint}
    (law : (p.track t).Law → (p.track t).waypoints.length + batch.length ≤ 32
      ∧ ∀ w ∈ ((p.track t).waypoints ++ batch).dropLast, w.last = false) : p.Upholds (p.feed t batch) := by
  have fed : p.Upholds (p.modTrack t fun x =>
      { x with waypoints := x.waypoints ++ batch, state := if x.state = .empty then .loaded else x.state }) :=
    .modTrack (fun h => ⟨by simpa using (law h).1, (law h).2⟩) rfl rfl (.inl rfl)
  unfold Part.feed
  dsimp only
  split
  · exact (fed.trans (.modTrack (f := fun x => { x with starvationTimer := none }) id rfl rfl (.inl rfl))).trans
      (.startSegment _ t)
  · exact fed

theorem Part.Upholds.takeOrigins {p : Part} {t : Trk} {g : Grp} (bound : g ∈ (p.track t).bound) :
    p.Upholds (p.takeOrigins t g) := by
  refine .setTrack id rfl rfl fun h k o hk => ?_
  dsimp only at hk
  rw [Vector.getElem_set_grp] at hk
  split at hk
  · next e =>
    cases hk
    exact .inr ⟨e ▸ bound, by rw [e]; exact h.originsOf_length t g⟩
  · exact .inl hk

/-- R66: a channel that may be reserved is so after the start of a move. -/
theorem Part.startMove_reservable {p : Part} {c : Chan} (h : (p.chan c).Reservable) (g : Grp) (tier : Nat) (l : Link)
    (src : MoveSource) (v : Option Nat) (plan : List (Int × Nat)) :
    ((p.startMove g tier l src v plan).chan c).Reservable :=
  Part.forEach_inv (P := fun q => (q.chan c).Reservable) h fun q lr _ hq => by
    rw [Part.modChan_chan]
    split
    · exact Channel.reserve_reservable g lr.2 _
    · exact hq

theorem Part.startMove_lanes (p : Part) (g k : Grp) (tier : Nat) (l : Link) (src : MoveSource) (v : Option Nat)
    (plan : List (Int × Nat)) : ((p.startMove g tier l src v plan).group k).lanes = (p.group k).lanes := by
  rw [Part.startMove_group]
  split
  · next e => rw [e]
  · rfl

/-- R142, R143: the groups of a track, whose channels are apart, start their moves one after the other. -/
theorem Part.Lawful.startMoves {t : Trk} {l : Link} (tier : Nat) (w : Waypoint) (groups : List Grp) (p : Part)
    (h : p.Lawful) (nodup : groups.Nodup) (bound : ∀ g ∈ groups, g ∈ (p.track t).bound)
    (idle : ∀ g ∈ groups, (p.group g).state = .idle)
    (free : ∀ g ∈ groups, ∀ ln ∈ (p.group g).lanes,
      (p.chan ln.channel).state = .idle ∧ (p.chan ln.channel).mover = .none ∧ (p.chan ln.channel).owner = some l) :
    (p.forEach groups fun p g => p.startMove g tier l (.track t) none (p.segmentPlan t g w)).Lawful := by
  induction groups generalizing p with
  | nil => exact h
  | cons g groups ih =>
    obtain ⟨new, nodup⟩ := List.nodup_cons.mp nodup
    obtain ⟨names, -, -, -, apart, -⟩ := h.binding t
    have hg := bound g (List.mem_cons_self ..)
    have started : p.Upholds (p.startMove g tier l (.track t) none (p.segmentPlan t g w)) :=
      Part.Upholds.startMove (src := .track t) (fun ln hl => by simp [Channel.Reservable, (free g (List.mem_cons_self ..) ln hl).1])
        (fun h => ⟨.inl (idle g (List.mem_cons_self ..)), (names g).mp hg, h.segmentPlan_length t g w,
          free g (List.mem_cons_self ..)⟩) _ _
    have other {k} (hk : k ∈ groups) : k ≠ g := fun e => new (e ▸ hk)
    have group {k} (hk : k ∈ groups) :
        (p.startMove g tier l (.track t) none (p.segmentPlan t g w)).group k = p.group k := by
      rw [Part.startMove_group, if_neg (other hk)]
    refine ih _ (started.lawful h) nodup (fun k hk => ?_) (fun k hk => ?_) fun k hk ln hl => ?_
    · have := bound k (List.mem_cons_of_mem _ hk)
      simpa only [Part.track, Part.startMove_tracks] using this
    · rw [group hk]
      exact idle k (List.mem_cons_of_mem _ hk)
    · rw [group hk] at hl
      rw [Part.startMove_chan_out _ _ _ _ _ _ _ _ fun m hm =>
        apart g hg k (bound k (List.mem_cons_of_mem _ hk)) (other hk).symm m hm ln hl]
      exact free k (List.mem_cons_of_mem _ hk) ln hl

/-- R142, R143: an accepted PLAY_TRACK. -/
theorem Part.Upholds.play {p : Part} {t : Trk} {l : Link} {w : Waypoint} {tier : Nat}
    (idle : ∀ g ∈ (p.track t).bound, (p.group g).state = .idle)
    (free : ∀ g ∈ (p.track t).bound, ∀ ln ∈ (p.group g).lanes,
      (p.chan ln.channel).state = .idle ∧ (p.chan ln.channel).mover = .none ∧ (p.chan ln.channel).owner = some l) :
    p.Upholds (p.play l tier t w) := by
  have same : ∀ q : Part, q = p.forEach (p.track t).bound (fun p g => p.takeOrigins t g) →
      q.groups = p.groups ∧ q.channels = p.channels ∧ (q.track t).bound = (p.track t).bound := by
    rintro q rfl
    refine ⟨Part.forEach_keeps (fun q => q.groups) _ _ fun _ _ _ => rfl,
      Part.forEach_keeps (fun q => q.channels) _ _ fun _ _ _ => rfl,
      Part.forEach_keeps (fun q => (q.track t).bound) _ _ fun _ _ _ => ?_⟩
    simp [Part.takeOrigins]
  have taken : p.Upholds (p.forEach (p.track t).bound fun p g => p.takeOrigins t g) :=
    .forEach_inv (fun q => (q.track t).bound = (p.track t).bound) (.refl p) _ _ rfl fun q g hg hq =>
      ⟨.takeOrigins (hq ▸ hg), by simpa [Part.takeOrigins] using hq⟩
  obtain ⟨groups, channels, bound⟩ := same _ rfl
  unfold Part.play
  dsimp only
  generalize p.forEach (p.track t).bound (fun p g => p.takeOrigins t g) = q at taken groups channels bound
  obtain ⟨hb, ho, hor⟩ := Track.takeHead_keeps ({ q.track t with tier := some tier, playing := (q.track t).bound, arrived := [] })
  have begun : p.Upholds (q.modTrack t (Track.beginPlay tier)) :=
    taken.trans (.modTrack (fun h => Track.takeHead_law h) hb ho (.inl hor))
  have group (g) : (q.modTrack t (Track.beginPlay tier)).group g = p.group g := congrArg (fun v => v[g]) groups
  have chan (c) : (q.modTrack t (Track.beginPlay tier)).chan c = p.chan c := congrArg (fun v => v[c]) channels
  have nowBound : ((q.modTrack t (Track.beginPlay tier)).track t).bound = (p.track t).bound := by
    rw [Part.modTrack_track_self]; exact hb.trans bound
  generalize q.modTrack t (Track.beginPlay tier) = r at begun group chan nowBound
  refine begun.trans ⟨?_, fun h => ?_⟩
  · refine (Part.forEach_inv (P := fun s => r.UpholdsEach s ∧ ∀ g ∈ (p.track t).bound, ∀ ln ∈ (s.group g).lanes,
      (s.chan ln.channel).Reservable) ⟨.refl r, fun g hg ln hl => ?_⟩ fun s g hg hs => ⟨hs.1.trans
        (.startMove _ _ _ (hs.2 g hg) _ _), fun k hk ln hl => ?_⟩).1
    · rw [group] at hl
      rw [chan]
      simp [Channel.Reservable, (free g hg ln hl).1]
    · rw [Part.startMove_lanes] at hl
      exact Part.startMove_reservable (hs.2 k hk ln hl) g _ _ _ _ _
  · obtain ⟨-, nodup, -⟩ := h.binding t
    refine h.startMoves tier w _ r (nowBound ▸ nodup) (fun g hg => nowBound.symm ▸ hg) (fun g hg => ?_) fun g hg ln hl => ?_
    · rw [group]; exact idle g hg
    · rw [group] at hl
      rw [chan]
      exact free g hg ln hl

end Sys2Proof.Machine
end

section
set_option Elab.async false
/-! PROOFS. What the judges can say: a refusal carries the code of a check, never OK or LATE (R26, R27), and what an acceptance
leaves upholds the laws. -/

namespace Sys2Proof.Machine

/-! ### Verdicts -/

/-- A refusal carries the code of a check, and what an acceptance leaves has a property. -/
def Verdict.Leaves (A : Part → Prop) : Verdict → Prop
  | .refused code _ => code ≠ .ok ∧ code ≠ .late
  | .accepted _ q => A q

theorem Verdict.Leaves.mono {A B : Part → Prop} {v : Verdict} (h : v.Leaves A) (weaker : ∀ q, A q → B q) : v.Leaves B := by
  cases v with
  | refused code i => exact h
  | accepted data q => exact weaker q h

theorem Verdict.leaves_refuseIf {A : Part → Prop} {bad : Bool} {code : Result} {i : Byte} {v : Verdict}
    (h : bad = false → v.Leaves A) (sound : code ≠ .ok ∧ code ≠ .late := by decide) : (refuseIf bad code i v).Leaves A := by
  cases bad with
  | true => exact sound
  | false => exact h rfl

theorem Verdict.leaves_check {A : Part → Prop} {bad : Option Byte} {code : Result} {v : Verdict}
    (h : bad = none → v.Leaves A) (sound : code ≠ .ok ∧ code ≠ .late := by decide) : (check code bad v).Leaves A := by
  cases bad with
  | some i => exact sound
  | none => exact h rfl

theorem Verdict.leaves_misfit {A : Part → Prop} : misfit.Leaves A := ⟨by decide, by decide⟩

theorem Verdict.leaves_refused {A : Part → Prop} {code : Result} {i : Byte}
    (sound : code ≠ .ok ∧ code ≠ .late := by decide) : (Verdict.refused code i).Leaves A := sound

theorem Part.hasChan_of_chanOf {p : Part} {b : Byte} {c : Chan} (h : p.chanOf b = some c) : p.hasChan c = true := by
  unfold Part.chanOf at h
  split at h
  · split at h
    · next there => exact Option.some.inj h ▸ there
    · cases h
  · cases h

theorem Verdict.leaves_withChan {A : Part → Prop} {p : Part} {b : Byte} {rest : Chan → Verdict}
    (h : ∀ c, p.hasChan c = true → (rest c).Leaves A) : (p.withChan b rest).Leaves A := by
  unfold Part.withChan
  split
  · exact leaves_refused
  · next c hc => exact h c (Part.hasChan_of_chanOf hc)

theorem Verdict.leaves_withSpan {A : Part → Prop} {p : Part} {a b : Byte} {rest : List Chan → Verdict}
    (h : ∀ members, (rest members).Leaves A) : (p.withSpan a b rest).Leaves A := by
  unfold Part.withSpan
  split
  · exact leaves_refused
  · exact h _

theorem Verdict.leaves_withGrp {A : Part → Prop} {b : Byte} {rest : Grp → Verdict} (h : ∀ g, (rest g).Leaves A) :
    (withGrp b rest).Leaves A := by
  unfold withGrp
  split
  · exact leaves_refused
  · exact h _

theorem Verdict.leaves_withTrk {A : Part → Prop} {b : Byte} {rest : Trk → Verdict} (h : ∀ t, (rest t).Leaves A) :
    (withTrk b rest).Leaves A := by
  unfold withTrk
  split
  · exact leaves_refused
  · exact h _

theorem Verdict.leaves_andThen {A : Part → Prop} {v : Verdict} {f : Part → Part} (h : v.Leaves fun q => A (f q)) :
    (v.andThen f).Leaves A := by
  cases v with
  | refused code i => exact h
  | accepted data q => exact h

/-- R26: the codes of a fire's refusal. -/
theorem Part.fire_leaves {p : Part} {g : Grp} {tier : Nat} {l : Link} {bad : Bool} {src : MoveSource} {v : Option Nat}
    {plan : List (Int × Nat)} {A : Part → Prop} (h : ∀ data q, p.fire g tier l bad src v plan = .accepted data q → A q) :
    (p.fire g tier l bad src v plan).Leaves A := by
  have codes : (p.fire g tier l bad src v plan).Leaves fun _ => True :=
    Verdict.leaves_refuseIf fun _ => Verdict.leaves_check fun _ => Verdict.leaves_check fun _ =>
      Verdict.leaves_check fun _ => Verdict.leaves_refuseIf fun _ => Verdict.leaves_check fun _ =>
      Verdict.leaves_check fun _ => trivial
  cases e : p.fire g tier l bad src v plan with
  | refused code i => rw [e] at codes; exact codes
  | accepted data q => exact h data q e

/-! ### The requests that name one channel (R18 to R23) -/

/-- R18, R19: a change of kind that no lane forbids. -/
theorem Part.configureBad_false {p : Part} {c : Chan} {kind : ChannelKind} (h : p.configureBad c kind = false) :
    (p.chan c).mover = .none ∧ (p.chan c).state ∈ [ChannelState.idle, .faulted, .absent]
      ∧ (kind = .absent → p.inLane c (fun _ => true) = false ∧ (p.chan c).fault = none)
      ∧ (kind = .fixedSpeed → p.inLane c Lane.partRatio = false) := by
  simp only [Part.configureBad, Bool.or_eq_false_iff, bne_eq_false_iff_eq, Bool.not_eq_false', Bool.or_eq_true, beq_iff_eq,
    Bool.and_eq_false_iff] at h
  obtain ⟨⟨⟨⟨still, state⟩, lane⟩, fault⟩, ratio⟩ := h
  refine ⟨still, by simpa [or_assoc] using state, fun e => ⟨?_, ?_⟩, fun e => ?_⟩
  · rcases lane with h | h
    · simp [e] at h
    · exact h
  · rcases fault with h | h
    · simp [e] at h
    · simpa using h
  · rcases ratio with h | h
    · simp [e] at h
    · exact h

theorem Part.inLane_false {p : Part} {c : Chan} {test : Lane → Bool} (h : p.inLane c test = false) {g : Grp}
    (defined : (p.group g).state ≠ .empty) {ln : Lane} (hl : ln ∈ (p.group g).lanes) (hc : ln.channel = c) :
    test ln = false := by
  simp only [Part.inLane, List.any_eq_false, Bool.not_eq_true, Bool.and_eq_false_iff] at h
  rcases h g (mem_allGroups g) with h | h
  · simp [defined] at h
  · simpa [hc] using h ln hl

theorem Channel.configure_keeps (mode : DeviceMode) (kind : ChannelKind) (config : ChannelConfig) (x : Channel) :
    (x.configure mode kind config).kind = kind ∧ (x.configure mode kind config).fault = x.fault
      ∧ (x.configure mode kind config).mover = x.mover ∧ (x.configure mode kind config).jog = x.jog
      ∧ (x.configure mode kind config).owner = x.owner
      ∧ (x.configure mode kind config).pendingRelease = x.pendingRelease := by
  unfold configure
  dsimp only
  split
  · split <;> exact ⟨rfl, rfl, rfl, rfl, rfl, rfl⟩
  · split <;> exact ⟨rfl, rfl, rfl, rfl, rfl, rfl⟩

theorem Channel.configure_state (mode : DeviceMode) (kind : ChannelKind) (config : ChannelConfig) (x : Channel) :
    (x.configure mode kind config).state =
      if kind = .absent then .absent else if x.state = .absent then .idle else x.state := by
  unfold configure
  by_cases gone : x.state = .absent <;> by_cases e : kind = .absent <;> simp [gone, e]

/-- R18, R19: an accepted CONFIGURE_CHANNEL. -/
theorem Part.Upholds.configure {p : Part} {c : Chan} {kind : ChannelKind} (h : p.configureBad c kind = false)
    (config : ChannelConfig) : p.Upholds (p.modChan c (Channel.configure p.ctl.mode kind config)) := by
  obtain ⟨still, state, absent, fixed⟩ := Part.configureBad_false h
  obtain ⟨hk, hf, hm, hj, ho, hr⟩ := (p.chan c).configure_keeps p.ctl.mode kind config
  have hs := (p.chan c).configure_state p.ctl.mode kind config
  simp only [List.mem_cons, List.not_mem_nil, or_false] at state
  refine .setChan (fun law => ?_) fun law => law.rekindChan (fun g hg ln hl e => ?_) ?_ (by simp [hm]) (by simp [still])
  · obtain ⟨-, faulted, record, further⟩ := law
    by_cases e : kind = .absent
    · have none := (absent e).2
      unfold Channel.RecordLaw
      rw [hk, hs, hf, none, if_pos e]
      exact ⟨by simp [e], by simp, by simp, by simp⟩
    · have present : (p.chan c).fault.isSome = true → (p.chan c).state = .faulted := fun h => by
        rcases state with e | e | e <;> simp [e] at record ⊢ <;> simp [record] at h
      refine ⟨?_, ?_, ?_, by rw [hf]; exact further⟩
      · rw [hk, hs, if_neg e]
        split <;> simp_all
      · rw [hs, hf, if_neg e]
        split
        · simp
        · exact faulted
      · rw [hs, hf, if_neg e]
        intro h
        simp [present h]
  · rw [hk]
    refine ⟨fun e' => ?_, fun e' => ?_⟩
    · simpa using Part.inLane_false (absent e').1 hg hl e
    · have := Part.inLane_false (fixed e') hg hl e
      simp only [Lane.partRatio, Bool.and_eq_false_iff, decide_eq_false_iff_not] at this
      omega
  · obtain ⟨-, -, release, jog, -⟩ := law.standing c
    have none : ¬(p.chan c).pendingRelease.isSome = true := fun hp => by
      have := (release hp).2
      exact this still
    refine ⟨fun h => ?_, fun h => absurd (hm.trans still) h, fun h => absurd (hr ▸ h) none, by rw [hj, hm]; exact jog, ?_⟩
    · rw [hs] at h
      by_cases e : kind = .absent
      · simp [e] at h
      · rcases state with e' | e' | e' <;> simp [e, e'] at h
    · simp [hm, still]

theorem judgeConfigureChannel_leaves (l : Link) (tier : Nat) (body : List Byte) (p : Part) :
    (judgeConfigureChannel l tier body p).Leaves p.Upholds := by
  unfold judgeConfigureChannel
  split
  · refine Verdict.leaves_withChan fun c _ => ?_
    split
    · exact Verdict.leaves_refused
    · exact Verdict.leaves_refuseIf fun _ => Verdict.leaves_refuseIf fun _ => Verdict.leaves_refuseIf fun _ =>
        Verdict.leaves_refuseIf fun _ => Verdict.leaves_refuseIf fun _ => Verdict.leaves_refuseIf fun free =>
        .configure free _
  · exact Verdict.leaves_misfit

theorem judgeSetPosition_leaves (l : Link) (tier : Nat) (body : List Byte) (p : Part) :
    (judgeSetPosition l tier body p).Leaves p.Upholds := by
  unfold judgeSetPosition
  split
  · exact Verdict.leaves_withChan fun c _ => Verdict.leaves_refuseIf fun _ => Verdict.leaves_refuseIf fun _ =>
      Verdict.leaves_refuseIf fun _ => Verdict.leaves_refuseIf fun _ => Verdict.leaves_refuseIf fun _ =>
      Verdict.leaves_refuseIf fun _ => .modAlike ⟨rfl, rfl, rfl, rfl, rfl, rfl, rfl⟩
  · exact Verdict.leaves_misfit

/-- R21: what a JOG that passes its checks meets on a channel without a mover. -/
theorem Part.jogChecks_leaves {A : Part → Prop} {p : Part} {c : Chan} {b : Byte} {dir : Option Dir} {rest : Verdict}
    (h : (∀ d, dir = some d → (p.chan c).mover = .none → (p.chan c).state = .idle) → rest.Leaves A) :
    (p.jogChecks c b dir rest).Leaves A := by
  unfold Part.jogChecks
  split
  · split
    · exact Verdict.leaves_refuseIf fun idle => Verdict.leaves_refuseIf fun _ => h fun _ _ _ => by simpa using idle
    · next moved => exact h fun _ _ e => absurd e moved
  · exact h fun _ e => nomatch e

/-- R21: an accepted JOG. -/
theorem Part.Upholds.jog {p : Part} {l : Link} {c : Chan} {dir : Option Dir} (there : p.hasChan c = true)
    (owner : (p.chan c).owner = some l) (ungrouped : (p.chan c).groupMoved = false)
    (idle : ∀ d, dir = some d → (p.chan c).mover = .none → (p.chan c).state = .idle) : p.Upholds (p.jog l c dir).2 := by
  unfold Part.jog
  split
  · next m d hm =>
    split
    · exact .setChan id fun h => by
        obtain ⟨moving, moved, release, jog, own⟩ := h.standing c
        exact h.setChan rfl ⟨moving, moved, release, by simpa [Channel.renewJog] using jog, own⟩ (fun _ => Iff.rfl)
          fun _ _ => rfl
    · exact .endJog fun _ => ⟨m, hm⟩
  · next m hm => exact .endJog fun _ => ⟨m, hm⟩
  · next d notJog =>
    have still : (p.chan c).mover = .none := by
      cases e : (p.chan c).mover with
      | none => rfl
      | group g => simp [Channel.groupMoved, e] at ungrouped
      | jog k => exact absurd e (notJog k)
    exact .startJog there owner (idle d rfl still) still d
  · exact .refl p

theorem judgeJog_leaves (l : Link) (tier : Nat) (body : List Byte) (p : Part) :
    (judgeJog l tier body p).Leaves p.Upholds := by
  unfold judgeJog
  split
  · refine Verdict.leaves_withChan fun c there => ?_
    split
    · exact Verdict.leaves_refused
    · exact Verdict.leaves_refuseIf fun _ => Verdict.leaves_refuseIf fun _ => Verdict.leaves_refuseIf fun owned =>
        Verdict.leaves_refuseIf fun ungrouped => Part.jogChecks_leaves fun idle =>
        .jog there (by simpa [notOwnedBy] using owned) ungrouped idle
  · exact Verdict.leaves_misfit

/-! ### Claims and faults (R39 to R42, R104 to R106) -/

theorem Part.Upholds.setOwners {p : Part} {members : List Chan} {test : Channel → Bool} (owner : Option Link)
    (still : ∀ (q : Part) (c : Chan), q.Lawful → (∀ d, (q.chan d).mover = (p.chan d).mover) → c ∈ members →
      test (q.chan c) = true → (q.chan c).mover = .none) : p.Upholds (p.setOwners members test owner) :=
  .forEach_inv (fun q => ∀ d, (q.chan d).mover = (p.chan d).mover) (.refl p) members _ (fun _ => rfl) fun q c hc same => by
    have movers : ∀ d, ((q.modChan c fun x => if test x then { x with owner := owner } else x).chan d).mover
        = (p.chan d).mover := fun d => by
      rw [Part.modChan_chan]
      split
      · next e =>
        subst e
        split <;> exact same _
      · exact same d
    refine ⟨?_, movers⟩
    by_cases on : test (q.chan c) = true
    · have : q.modChan c (fun x => if test x then { x with owner := owner } else x)
          = q.modChan c fun x => { x with owner := owner } := by simp only [Part.modChan, if_pos on]
      rw [this]
      exact .setOwner owner fun law => still q c law same hc on
    · exact .modAlike (by rw [if_neg on]; exact Channel.Alike.refl _)

theorem judgeClaim_leaves (l : Link) (tier : Nat) (body : List Byte) (p : Part) :
    (judgeClaim l tier body p).Leaves p.Upholds := by
  unfold judgeClaim
  split
  · refine Verdict.leaves_withSpan fun members => Verdict.leaves_check fun _ => Verdict.leaves_check fun _ =>
      .setOwners _ fun q c law _ _ un => ?_
    obtain ⟨-, -, -, -, jogger⟩ := law.standing c
    have un : (q.chan c).owner = none := by simpa [unowned] using un
    cases e : (q.chan c).mover with
    | none => rfl
    | jog k => simp [jogger k e] at un
    | group g =>
      obtain ⟨-, -, -, movers, -, -⟩ := law.move g
      obtain ⟨hs, ln, hl, hc⟩ := movers c e
      obtain ⟨m, -, moved⟩ := law.record (g := g) hs
      have := (moved ln hl).2
      rw [hc, un] at this
      cases this
  · exact Verdict.leaves_misfit

theorem Part.releaseSpan_leaves {p : Part} {l : Link} {tier : Nat} {force : Bool} {members : List Chan} :
    (p.releaseSpan l tier force members).Leaves p.Upholds := by
  refine Verdict.leaves_refuseIf fun _ => Verdict.leaves_check fun _ => Verdict.leaves_check fun still =>
    .forEach_inv (fun q => ∀ d, (q.chan d).mover = (p.chan d).mover ∧ ((q.chan d).owner = (p.chan d).owner ∨
      (q.chan d).owner = none)) (.refl p) members _ (fun _ => ⟨rfl, .inl rfl⟩) fun q c hc same => ?_
  have still := (p.firstChan_none members _).mp still c hc
  obtain ⟨mover, owner⟩ := same c
  refine ⟨?_, fun d => ?_⟩
  · by_cases on : released l force (q.chan c) = true
    · have : q.modChan c (fun x => if released l force x then { x with owner := none } else x)
          = q.modChan c fun x => { x with owner := none } := by simp only [Part.modChan, if_pos on]
      rw [this]
      refine .setOwner none fun _ => ?_
      rw [mover]
      rcases owner with e | e
      · have old : released l force (p.chan c) = true := by simpa [released, e] using on
        simpa [old] using still
      · simp [released, e] at on
    · exact .modAlike (by rw [if_neg on]; exact Channel.Alike.refl _)
  · rw [Part.modChan_chan]
    split
    · next e =>
      subst e
      split
      · exact ⟨mover, .inr rfl⟩
      · exact ⟨mover, owner⟩
    · exact same d

theorem judgeRelease_leaves (l : Link) (tier : Nat) (body : List Byte) (p : Part) :
    (judgeRelease l tier body p).Leaves p.Upholds := by
  unfold judgeRelease
  split
  · exact Verdict.leaves_withSpan fun _ => Verdict.leaves_refuseIf fun _ => Part.releaseSpan_leaves
  · exact Verdict.leaves_misfit

theorem Part.Upholds.clearSpan (p : Part) (members : List Chan) : p.Upholds (p.clearSpan members) := by
  refine .forEach (.refl p) _ _ fun q c _ => ?_
  by_cases faulted : (q.chan c).fault.isSome = true
  · have : q.modChan c (fun x => if x.fault.isSome then x.clearFault else x) = q.modChan c Channel.clearFault := by
      simp only [Part.modChan, if_pos faulted]
    rw [this]
    exact .clearFault q c
  · exact .modAlike (by rw [if_neg faulted]; exact Channel.Alike.refl _)

/-- R69: no control period runs at a group that is HELD or FAULTED. -/
theorem Part.Lawful.untimed {p : Part} (h : p.Lawful) {g : Grp}
    (rest : (p.group g).state = .held ∨ (p.group g).state = .faulted) : (p.group g).controlTimer = none := by
  obtain ⟨-, -, -, -, -, timer⟩ := h.move g
  cases e : (p.group g).controlTimer with
  | none => rfl
  | some n =>
    rw [e] at timer
    rcases rest with e | e <;> simp [e] at timer

/-- R90: an accepted CLEAR_FAULT on a group. -/
theorem Part.Upholds.clearGroup {p : Part} {g : Grp} (faulted : (p.group g).state = .faulted) :
    p.Upholds (p.clearGroup g) := by
  unfold Part.clearGroup
  split
  · next t ht =>
    have settled : p.Upholds (p.modGroup g fun x => { x with fault := none, move := none, state := .idle }) :=
      .settleMove (fun _ => .inr faulted) fun h => ⟨rfl, rfl, .inl ⟨rfl, rfl⟩, h.untimed (.inr faulted)⟩
    refine ⟨settled.toUpholdsEach.trans (.unbind _ t g), fun h => (Part.Upholds.unbind ?_ fun _ => ?_).lawful (settled.lawful h)⟩
    · rw [Part.modGroup_group_self]
    · rw [Part.modGroup_group_self]
      obtain ⟨-, -, entries, -⟩ := h.move g
      unfold Group.trackOf at ht
      split at ht
      · next m hm =>
        rw [(entries m hm).2]
        exact ht
      · cases ht
  · exact .settleMove (fun _ => .inr faulted) fun h => ⟨rfl, rfl, .inr ⟨.inl rfl, rfl⟩, h.untimed (.inr faulted)⟩

end Sys2Proof.Machine
end

section
set_option Elab.async false
/-! PROOFS. What the judges of faults, groups, cues, tracks, links and modes leave upholds the laws. -/

namespace Sys2Proof.Machine

/-! ### Faults (R90, R104 to R106) -/

theorem Part.clearGroupFault_leaves {p : Part} {l : Link} {tier : Nat} {g : Grp} :
    (p.clearGroupFault l tier g).Leaves p.Upholds :=
  Verdict.leaves_check fun _ => Verdict.leaves_check fun _ => Verdict.leaves_check fun _ =>
    Verdict.leaves_refuseIf fun faulted => Verdict.leaves_check fun _ => .clearGroup (by simpa using faulted)

theorem Part.clearFaults_leaves {p : Part} {l : Link} {tier : Nat} {members : List Chan} :
    (p.clearFaults l tier members).Leaves p.Upholds :=
  Verdict.leaves_check fun _ => Verdict.leaves_check fun _ => Verdict.leaves_check fun _ => Verdict.leaves_check fun _ =>
    .clearSpan p members

theorem judgeClearFault_leaves (l : Link) (tier : Nat) (body : List Byte) (p : Part) :
    (judgeClearFault l tier body p).Leaves p.Upholds := by
  unfold judgeClearFault
  split
  · split
    · exact Verdict.leaves_withSpan fun _ => Part.clearFaults_leaves
    · split
      · exact Verdict.leaves_withGrp fun _ => Part.clearGroupFault_leaves
      · exact Verdict.leaves_refused
  · exact Verdict.leaves_misfit

/-! ### Groups (R54 to R57, R86 to R89, R124) -/

/-- R54: a lane entry that RANGE lets pass, after the lanes before it. -/
theorem Part.laneOf_some {p : Part} {earlier : List Lane} {b s r : Byte} {lane : Lane} (h : p.laneOf earlier b s r = some lane) :
    p.hasChan lane.channel = true ∧ lane.ratio ≤ 15 ∧ lane.channel ∉ earlier.map (·.channel)
      ∧ (earlier = [] → lane.sign ≠ .hold)
      ∧ ((p.chan lane.channel).kind = .fixedSpeed → lane.ratio = 0 ∨ 8 ≤ lane.ratio) := by
  unfold Part.laneOf at h
  split at h
  · next c sign hc _ =>
    dsimp only at h
    split at h
    · cases h
    · next ok =>
      cases h
      simp only [Bool.or_eq_true, decide_eq_true_eq, Bool.and_eq_true, beq_iff_eq, List.isEmpty_iff, not_or, not_and,
        List.any_eq_true, not_exists] at ok
      obtain ⟨⟨⟨ratio, other⟩, first⟩, fixed⟩ := ok
      refine ⟨Part.hasChan_of_chanOf hc, Nat.not_lt.mp ratio, ?_, first, fun e => ?_⟩
      · simpa using fun x hx => other x hx
      · by_cases one : 1 ≤ r.toNat
        · have := fixed ⟨e, one⟩
          exact .inr (by dsimp only; omega)
        · exact .inl (by dsimp only; omega)
  · cases h

/-- R54: what every lane of an accepted list meets; whether its channel is ABSENT is judged after. -/
def Part.RangedLanes (p : Part) (lanes : List Lane) : Prop :=
  (lanes.map (·.channel)).Nodup ∧ (∀ ln, lanes.head? = some ln → ln.sign ≠ .hold)
    ∧ ∀ ln ∈ lanes, p.hasChan ln.channel = true ∧ ln.ratio ≤ 15
        ∧ ((p.chan ln.channel).kind = .fixedSpeed → ln.ratio = 0 ∨ 8 ≤ ln.ratio)

theorem Part.lanesOf_ok {p : Part} {entries : List (Byte × Byte × Byte)} {earlier lanes : List Lane}
    (h : p.lanesOf earlier entries = .ok lanes) (before : p.RangedLanes earlier) :
    p.RangedLanes lanes ∧ lanes.length = earlier.length + entries.length := by
  induction entries generalizing earlier with
  | nil => cases h; exact ⟨before, rfl⟩
  | cons e rest ih =>
    rw [Part.lanesOf] at h
    split at h
    · cases h
    · next lane hl =>
      obtain ⟨there, ratio, new, first, fixed⟩ := Part.laneOf_some hl
      obtain ⟨distinct, head, each⟩ := before
      refine (ih h ⟨?_, fun ln hln => ?_, fun ln hln => ?_⟩).imp id fun length => by simp at length ⊢; omega
      · rw [List.map_append, List.nodup_append]
        refine ⟨distinct, by simp, fun a ha b hb => ?_⟩
        simp only [List.map_cons, List.map_nil, List.mem_singleton] at hb
        exact fun e => new (hb ▸ e ▸ ha)
      · cases earlier with
        | nil => cases hln; exact first rfl
        | cons x xs => exact head ln hln
      · rcases List.mem_append.mp hln with hln | hln
        · exact each ln hln
        · rw [List.mem_singleton.mp hln]
          exact ⟨there, ratio, fixed⟩

theorem triples_length : ∀ (body : List Byte) (n : Nat), body.length = 3 * n → (triples body).length = n
  | [], n, h => by simp at h; simp [triples, h]
  | [_], n, h => by simp at h; omega
  | [_, _], n, h => by simp at h; omega
  | _ :: _ :: _ :: rest, n, h => by
    cases n with
    | zero => simp at h
    | succ n =>
      simp only [List.length_cons] at h
      rw [triples, List.length_cons, triples_length rest n (by omega)]

theorem Part.firstAbsentLane_none {p : Part} {lanes : List Lane} (h : p.firstAbsentLane lanes = none) :
    ∀ ln ∈ lanes, (p.chan ln.channel).kind ≠ .absent := by
  simpa [Part.firstAbsentLane, Channel.configured] using h

theorem Part.definitionInUse_false {p : Part} {g : Grp} (h : p.definitionInUse g = false) :
    (p.group g).boundTrack = none := by
  simp [Part.definitionInUse] at h
  exact h.2

/-- R69: no control period runs at a group without a move. -/
theorem Part.Lawful.unmoving {p : Part} (h : p.Lawful) {g : Grp}
    (rest : (p.group g).state = .empty ∨ (p.group g).state = .idle) :
    (p.group g).controlTimer = none ∧ (p.group g).move = none := by
  obtain ⟨none, -, -, -, -, timer⟩ := h.move g
  refine ⟨?_, none.mpr rest⟩
  cases e : (p.group g).controlTimer with
  | none => rfl
  | some n =>
    rw [e] at timer
    rcases rest with e | e <;> simp [e] at timer

theorem judgeDefineGroup_leaves (l : Link) (tier : Nat) (body : List Byte) (p : Part)
    (fits : countedLength 1 8 3 body = true) : (judgeDefineGroup l tier body p).Leaves p.Upholds := by
  unfold judgeDefineGroup
  split
  · next b n sw ll1 ll2 lt lg1 lg2 rest =>
    refine Verdict.leaves_withGrp fun g => Verdict.leaves_refuseIf fun count => Verdict.leaves_refuseIf fun _ => ?_
    split
    · exact Verdict.leaves_refused
    · next lanes hlanes =>
      obtain ⟨⟨distinct, first, each⟩, length⟩ := Part.lanesOf_ok hlanes ⟨by simp, by simp, by simp⟩
      simp only [countedLength, List.getElem?_cons_succ, List.getElem?_cons_zero, List.length_cons, beq_iff_eq] at fits
      rw [triples_length rest n.toNat (by omega)] at length
      simp only [Bool.or_eq_false_iff, decide_eq_false_iff_not, List.length_nil] at count length
      refine Verdict.leaves_refuseIf fun _ => Verdict.leaves_refuseIf fun state => Verdict.leaves_refuseIf fun unused =>
        Verdict.leaves_check fun present => ?_
      have state : (p.group g).state = .empty ∨ (p.group g).state = .idle := by simpa [Bool.and_eq_false_imp, ← or_iff_not_imp_left] using state
      have present := Part.firstAbsentLane_none present
      have one : 1 ≤ lanes.length := by omega
      have eight : lanes.length ≤ 8 := by omega
      refine .redefine (fun _ => state) (fun _ => Part.definitionInUse_false unused) fun h =>
        ⟨.inr ⟨rfl, one, eight, distinct, first, fun ln hl => ?_⟩, rfl, rfl, (h.unmoving state).1⟩
      obtain ⟨there, ratio, fixed⟩ := each ln hl
      exact ⟨there, present ln hl, ratio, fixed⟩
  · exact Verdict.leaves_misfit

theorem judgeDeleteGroup_leaves (l : Link) (tier : Nat) (body : List Byte) (p : Part) :
    (judgeDeleteGroup l tier body p).Leaves p.Upholds := by
  unfold judgeDeleteGroup
  split
  · refine Verdict.leaves_withGrp fun g => Verdict.leaves_refuseIf fun _ => Verdict.leaves_refuseIf fun idle =>
      Verdict.leaves_refuseIf fun unused => ?_
    have idle : (p.group g).state = .idle := by simpa using idle
    have unbound := Part.definitionInUse_false unused
    exact .redefine (fun _ => .inr idle) (fun _ => unbound) fun h =>
      ⟨.inl ⟨rfl, rfl⟩, unbound, (h.unmoving (.inr idle)).2, (h.unmoving (.inr idle)).1⟩
  · exact Verdict.leaves_misfit

/-- R87, R88: what follows an accepted fire by GO: the queue is told, and the fire's taking goes on. -/
theorem Part.Upholds.goFired {p q : Part} {g : Grp} {tier : Nat} {l : Link} {bad : Bool} {src : MoveSource}
    {v : Option Nat} {plan : List (Int × Nat)} {data : List Byte} (h : p.fire g tier l bad src v plan = .accepted data q)
    (fired : p.Upholds q) {f : CueQueue → CueQueue} (law : ∀ x : CueQueue, x.Law → (f x).Law) (n : Nat) :
    p.Upholds ((q.modQueue g f).afterFire g n) :=
  (fired.trans (.modQueue (law _))).trans (.afterFire h f n)

theorem Part.refire_leaves {p : Part} {l : Link} {tier : Nat} {g : Grp} {m : MoveRecord} (held : (p.group g).state = .held)
    (hm : (p.group g).move = some m) : (p.refire l tier g m).Leaves p.Upholds := by
  refine Verdict.leaves_andThen (Part.fire_leaves fun data q h => .goFired h (.fire h fun unbound law => ?_)
    (fun _ => CueQueue.unblock_law) _)
  obtain ⟨-, -, entries, -⟩ := law.move g
  obtain ⟨length, bound⟩ := entries m hm
  refine ⟨.inr held, ?_, by simp [Part.heldPlan, length]⟩
  rw [bound]
  cases m.source <;> rfl

theorem CueQueue.takeByGo_law {x : CueQueue} (h : x.Law) : x.takeByGo.Law := CueQueue.unblock_law (CueQueue.pop_law h)

theorem Part.goHead_leaves {p : Part} {l : Link} {tier : Nat} {g : Grp} : (p.goHead l tier g).Leaves p.Upholds := by
  unfold Part.goHead
  split
  · refine Part.fire_leaves fun data q h => ?_
    obtain ⟨barred, -⟩ := Part.fire_inv h
    cases barred
  · exact Verdict.leaves_andThen (Part.fire_leaves fun data q h => .goFired h (.fireCue h) (fun _ => CueQueue.takeByGo_law) _)

theorem judgeGo_leaves (l : Link) (tier : Nat) (body : List Byte) (p : Part) : (judgeGo l tier body p).Leaves p.Upholds := by
  unfold judgeGo
  split
  · refine Verdict.leaves_withGrp fun g => ?_
    split
    · next m held hm => exact Part.refire_leaves held hm
    · exact Part.goHead_leaves
  · exact Verdict.leaves_misfit

theorem CueQueue.stopped_law {x : CueQueue} (h : x.Law) : x.stopped.Law := by
  unfold stopped
  split
  · exact h
  · exact block_law (disarm_law h)

theorem Part.Upholds.stopRequest (p : Part) (g : Grp) : p.Upholds (p.stopRequest g) :=
  .ite (fun _ => .modQueue CueQueue.stopped_law) fun _ => .stopGroup p g _

theorem judgeStop_leaves (l : Link) (tier : Nat) (body : List Byte) (p : Part) :
    (judgeStop l tier body p).Leaves p.Upholds := by
  unfold judgeStop
  split
  · refine Verdict.leaves_refuseIf fun _ => ?_
    split
    · exact Verdict.leaves_refused
    · exact .forEach (.refl p) _ _ fun q g _ => .stopRequest q g
  · exact Verdict.leaves_misfit

theorem Part.Upholds.cancel (p : Part) (g : Grp) : p.Upholds (p.cancel g) := by
  refine .ite (fun held => ?_) fun _ => .refl p
  have settled : p.Upholds (p.modGroup g fun x => { x with state := .idle, move := none, held := false }) :=
    .settleMove (fun _ => .inl held) fun h => ⟨rfl, rfl, .inl ⟨rfl, rfl⟩, h.untimed (.inl held)⟩
  exact settled.trans (.modQueue CueQueue.block_law)

theorem judgeCancel_leaves (l : Link) (tier : Nat) (body : List Byte) (p : Part) :
    (judgeCancel l tier body p).Leaves p.Upholds := by
  unfold judgeCancel
  split
  · exact Verdict.leaves_withGrp fun g => Verdict.leaves_check fun _ => Verdict.leaves_check fun _ =>
      Verdict.leaves_refuseIf fun _ => .cancel p g
  · exact Verdict.leaves_misfit

/-! ### Cues and the show clock (R112 to R131) -/

theorem CueQueue.append_law {x : CueQueue} (h : x.Law) {cue : Cue} (new : ∀ c ∈ x.cues, c.number ≠ cue.number)
    (room : x.cues.length < 8) : ({ x with cues := x.cues ++ [cue] } : CueQueue).Law := by
  obtain ⟨-, distinct, -, dwell⟩ := h
  refine ⟨by simp; omega, ?_, by simp, dwell⟩
  rw [List.map_append, List.nodup_append]
  refine ⟨distinct, by simp, fun a ha b hb => ?_⟩
  obtain ⟨c, hc, rfl⟩ := List.mem_map.mp ha
  simp only [List.map_cons, List.map_nil, List.mem_singleton] at hb
  exact hb ▸ new c hc

theorem Part.queueChecked_leaves {p : Part} {l : Link} {tier : Nat} {g : Grp} {cue : Cue} :
    (p.queueChecked l tier g cue).Leaves p.Upholds := by
  refine Verdict.leaves_refuseIf fun _ => Verdict.leaves_check fun _ => Verdict.leaves_check fun _ =>
    Verdict.leaves_check fun _ => Verdict.leaves_refuseIf fun _ => Verdict.leaves_refuseIf fun new =>
    Verdict.leaves_refuseIf fun room => ?_
  have room : (p.queue g).cues.length < 8 := Nat.lt_of_not_le (of_decide_eq_false room)
  have appended : p.Upholds (p.modQueue g fun x => { x with cues := x.cues ++ [cue] }) :=
    .modQueue fun h => CueQueue.append_law h (by simpa using new) room
  exact .ite (fun _ => appended.trans (.arm _ _ g)) fun _ => appended

theorem judgeQueueCue_leaves (l : Link) (tier : Nat) (body : List Byte) (p : Part) :
    (judgeQueueCue l tier body p).Leaves p.Upholds := by
  unfold judgeQueueCue
  split
  · refine Verdict.leaves_withGrp fun g => ?_
    split
    · exact Verdict.leaves_refuseIf fun _ => Verdict.leaves_refuseIf fun _ => Part.queueChecked_leaves
    · exact Verdict.leaves_refused
  · exact Verdict.leaves_misfit

theorem judgeFlushCues_leaves (l : Link) (tier : Nat) (body : List Byte) (p : Part) :
    (judgeFlushCues l tier body p).Leaves p.Upholds := by
  unfold judgeFlushCues
  split
  · exact Verdict.leaves_withGrp fun g => Verdict.leaves_refuseIf fun _ => Verdict.leaves_check fun _ =>
      Verdict.leaves_check fun _ => .setQueue fun _ => CueQueue.clear_law
  · exact Verdict.leaves_misfit

theorem Part.Upholds.startClock (p : Part) : p.Upholds p.startClock := by
  have judged : p.Upholds (p.setClock p.clock.value true).judgeAll := (Part.Upholds.setClock p _ _).trans (.judgeAll _)
  exact .ite (fun _ => .refl p) fun _ => .ite (fun _ => judged.trans (.setClock _ _ _)) fun _ => judged

theorem judgeSetClock_leaves (l : Link) (tier : Nat) (body : List Byte) (p : Part) :
    (judgeSetClock l tier body p).Leaves p.Upholds := by
  unfold judgeSetClock
  split
  · split
    · exact Verdict.leaves_refuseIf fun _ => .setClock p _ _
    · split
      · exact .startClock p
      · split
        · exact .setClock p _ _
        · exact Verdict.leaves_refused
  · exact Verdict.leaves_misfit

/-! ### Tracks (R137 to R148) -/

theorem judgeBindTrack_leaves (l : Link) (tier : Nat) (body : List Byte) (p : Part) :
    (judgeBindTrack l tier body p).Leaves p.Upholds := by
  unfold judgeBindTrack
  split
  · exact Verdict.leaves_withTrk fun t => Verdict.leaves_withGrp fun g => Verdict.leaves_refuseIf fun _ =>
      Verdict.leaves_refuseIf fun _ => Verdict.leaves_refuseIf fun idle => Verdict.leaves_refuseIf fun unbound =>
      Verdict.leaves_refuseIf fun _ => Verdict.leaves_check fun apart =>
      .bind (by simpa using idle) (by simpa using unbound) apart l
  · exact Verdict.leaves_misfit

theorem judgeUnbindTrack_leaves (l : Link) (tier : Nat) (body : List Byte) (p : Part) :
    (judgeUnbindTrack l tier body p).Leaves p.Upholds := by
  unfold judgeUnbindTrack
  split
  · refine Verdict.leaves_withTrk fun t => Verdict.leaves_withGrp fun g => Verdict.leaves_refuseIf fun _ =>
      Verdict.leaves_refuseIf fun bound => Verdict.leaves_refuseIf fun idle =>
      .unbind (by simpa using idle) fun h => ?_
    obtain ⟨names, -⟩ := h.binding t
    exact (names g).mp (by simpa using bound)
  · exact Verdict.leaves_misfit

/-- R139: only the last waypoint of a batch that RANGE lets pass carries END. -/
theorem firstBadWaypoint_none {batch : List Waypoint} (h : firstBadWaypoint batch = none) :
    ∀ w ∈ batch.dropLast, w.last = false := by
  simp only [firstBadWaypoint, List.findIdx?_eq_none_iff] at h
  intro w hw
  obtain ⟨i, hi, rfl⟩ := List.mem_iff_getElem.mp hw
  rw [List.length_dropLast] at hi
  have inner := h (batch[i], i) (List.mem_zipIdx_iff_getElem?.mpr (by simp))
  have notLast : ¬i + 1 = batch.length := by omega
  rw [List.getElem_dropLast]
  simp [waypointBad, notLast] at inner
  exact inner.2

theorem Part.feedChecked_leaves {p : Part} {l : Link} {t : Trk} {batch : List Waypoint}
    (ends : ∀ w ∈ batch.dropLast, w.last = false) : (p.feedChecked l t batch).Leaves p.Upholds := by
  refine Verdict.leaves_refuseIf fun _ => Verdict.leaves_refuseIf fun _ => Verdict.leaves_refuseIf fun open_ =>
    Verdict.leaves_refuseIf fun room => .feed fun law => ?_
  refine ⟨Nat.le_of_not_lt (of_decide_eq_false room), fun w hw => ?_⟩
  simp only [List.any_eq_false, Bool.not_eq_true] at open_
  cases batch with
  | nil => rw [List.append_nil] at hw; exact law.2 w hw
  | cons x xs =>
    rw [List.dropLast_append_of_ne_nil (by simp)] at hw
    rcases List.mem_append.mp hw with hw | hw
    · exact open_ w hw
    · exact ends w hw

theorem judgeFeedTrack_leaves (l : Link) (tier : Nat) (body : List Byte) (p : Part) :
    (judgeFeedTrack l tier body p).Leaves p.Upholds := by
  unfold judgeFeedTrack
  split
  · exact Verdict.leaves_withTrk fun t => Verdict.leaves_refuseIf fun _ => Verdict.leaves_check fun good =>
      Part.feedChecked_leaves (firstBadWaypoint_none (by simpa using good))
  · exact Verdict.leaves_misfit

theorem Part.firstBound_none {p : Part} {t : Trk} {bad : Channel → Bool} (h : p.firstBound t bad = none) {g : Grp}
    (bound : g ∈ (p.track t).bound) {ln : Lane} (hl : ln ∈ (p.group g).lanes) : bad (p.chan ln.channel) = false := by
  simp only [Part.firstBound, Option.map_eq_none_iff, List.find?_eq_none, Part.boundLanes, List.mem_flatMap] at h
  simpa using h ln ⟨g, bound, hl⟩

theorem Part.playChecked_leaves {p : Part} {l : Link} {tier : Nat} {t : Trk} :
    (p.playChecked l tier t).Leaves p.Upholds := by
  refine Verdict.leaves_refuseIf fun _ => Verdict.leaves_check fun _ => Verdict.leaves_refuseIf fun _ =>
    Verdict.leaves_check fun owned => Verdict.leaves_check fun _ => Verdict.leaves_refuseIf fun _ => ?_
  split
  · exact Verdict.leaves_refused
  · refine Verdict.leaves_refuseIf fun idle => Verdict.leaves_check fun free => Verdict.leaves_check fun _ =>
      .play (by simpa using idle) fun g hg ln hl => ?_
    have ho := Part.firstBound_none owned hg hl
    have hf := Part.firstBound_none free hg hl
    simp only [notOwnedBy, bne_eq_false_iff_eq] at ho
    simp only [unreservable, Bool.or_eq_false_iff, bne_eq_false_iff_eq] at hf
    exact ⟨hf.1, hf.2, ho⟩

theorem judgePlayTrack_leaves (l : Link) (tier : Nat) (body : List Byte) (p : Part) :
    (judgePlayTrack l tier body p).Leaves p.Upholds := by
  unfold judgePlayTrack
  split
  · exact Verdict.leaves_withTrk fun t => Part.playChecked_leaves
  · exact Verdict.leaves_misfit

theorem judgeStopTrack_leaves (l : Link) (tier : Nat) (body : List Byte) (p : Part) :
    (judgeStopTrack l tier body p).Leaves p.Upholds := by
  unfold judgeStopTrack
  split
  · exact Verdict.leaves_withTrk fun t => .haltTrack p t
  · exact Verdict.leaves_misfit

/-! ### Links, modes and readback (R152 to R166, R173 to R185) -/

theorem judgeHeartbeat_leaves (l : Link) (tier : Nat) (body : List Byte) (p : Part) :
    (judgeHeartbeat l tier body p).Leaves p.Upholds := by
  unfold judgeHeartbeat
  split
  · exact .refl p
  · exact .modLink ⟨fun h => ⟨rfl, h.2.filter _⟩, id⟩

theorem judgeSetWatchdog_leaves (l : Link) (tier : Nat) (body : List Byte) (p : Part) :
    (judgeSetWatchdog l tier body p).Leaves p.Upholds := by
  unfold judgeSetWatchdog
  split
  · exact Verdict.leaves_refuseIf fun _ => Verdict.leaves_refuseIf fun _ => .modLink ⟨id, id⟩
  · exact Verdict.leaves_misfit

theorem judgeSetNotices_leaves (l : Link) (tier : Nat) (body : List Byte) (p : Part) :
    (judgeSetNotices l tier body p).Leaves p.Upholds := by
  unfold judgeSetNotices
  split
  · exact Verdict.leaves_refuseIf fun _ => Verdict.leaves_refuseIf fun _ =>
      .trans (.modLink ⟨fun h => ⟨rfl, h.2.filter _⟩, id⟩) (.modCtl rfl rfl fun _ => id)
  · exact Verdict.leaves_misfit

/-- R153: what the STATE step of SET_MODE can say. -/
theorem Part.modeStateChecks_leaves {A : Part → Prop} {p : Part} {target : DeviceMode} {rest : Verdict} (h : rest.Leaves A) :
    (p.modeStateChecks target rest).Leaves A := by
  unfold Part.modeStateChecks
  split
  · exact Verdict.leaves_refuseIf fun _ => Verdict.leaves_refuseIf fun _ => Verdict.leaves_check fun _ => h
  · exact Verdict.leaves_check fun _ => h
  · exact h

theorem Part.Upholds.setMode {p : Part} {target : DeviceMode} (leaving : p.ctl.mode ≠ .halted) : p.Upholds (p.setMode target) := by
  refine .ite (fun _ => .refl p) fun _ => (Part.Upholds.silenceDisarm p false).trans ?_
  exact .changeMode (p := p.modCtl fun m => { m with silenceDisarm := false }) (.inr (.inl leaving)) _

theorem judgeSetMode_leaves (l : Link) (tier : Nat) (body : List Byte) (p : Part) :
    (judgeSetMode l tier body p).Leaves p.Upholds := by
  unfold judgeSetMode
  split
  · split
    · exact Verdict.leaves_refused
    · exact Verdict.leaves_refuseIf fun fair => Part.modeStateChecks_leaves (.setMode fun e => by simp [Part.modePairBad, e] at fair)
  · exact Verdict.leaves_misfit

theorem judgeResume_leaves (l : Link) (tier : Nat) (body : List Byte) (p : Part) :
    (judgeResume l tier body p).Leaves p.Upholds :=
  Verdict.leaves_refuseIf fun _ => Verdict.leaves_refuseIf fun released => Verdict.leaves_check fun _ =>
    Verdict.leaves_check fun _ => .changeMode (.inr (.inr released)) _

theorem judgeReset_leaves (l : Link) (tier : Nat) (body : List Byte) (p : Part) :
    (judgeReset l tier body p).Leaves p.Upholds :=
  Verdict.leaves_refuseIf fun _ => .modCtl rfl rfl fun _ => id

theorem Verdict.leaves_withSelector {A : Part → Prop} {b : Byte} {rest : Bool → Bool → Verdict}
    (h : ∀ st po, (rest st po).Leaves A) : (withSelector b rest).Leaves A := by
  unfold withSelector
  split
  · exact h _ _
  · exact leaves_refused

theorem Part.latch_leaves {p : Part} {targets : List Chan} {st po : Bool} : (p.latch targets st po).Leaves p.Upholds :=
  .forEach (.refl p) _ _ fun _ _ _ => .modAlike ⟨rfl, rfl, rfl, rfl, rfl, rfl, rfl⟩

theorem judgeLatch_leaves (l : Link) (tier : Nat) (body : List Byte) (p : Part) :
    (judgeLatch l tier body p).Leaves p.Upholds := by
  unfold judgeLatch
  split
  · split
    · exact Verdict.leaves_withSpan fun _ => Verdict.leaves_withSelector fun _ _ => Part.latch_leaves
    · split
      · exact Verdict.leaves_withGrp fun _ => Verdict.leaves_withSelector fun _ _ => Verdict.leaves_refuseIf fun _ =>
          Part.latch_leaves
      · exact Verdict.leaves_refused
  · exact Verdict.leaves_misfit

theorem judgeReadSnapshot_leaves (l : Link) (tier : Nat) (body : List Byte) (p : Part) :
    (judgeReadSnapshot l tier body p).Leaves p.Upholds := by
  unfold judgeReadSnapshot
  split
  · exact Verdict.leaves_withSpan fun _ => Verdict.leaves_refuseIf fun _ =>
      .forEach (.refl p) _ _ fun _ _ _ => .modAlike ⟨rfl, rfl, rfl, rfl, rfl, rfl, rfl⟩
  · exact Verdict.leaves_misfit

theorem judgeReadGroup_leaves (l : Link) (tier : Nat) (body : List Byte) (p : Part) :
    (judgeReadGroup l tier body p).Leaves (· = p) := by
  unfold judgeReadGroup
  split
  · exact Verdict.leaves_withGrp fun _ => rfl
  · exact Verdict.leaves_misfit

theorem judgeReadCues_leaves (l : Link) (tier : Nat) (body : List Byte) (p : Part) :
    (judgeReadCues l tier body p).Leaves (· = p) := by
  unfold judgeReadCues
  split
  · exact Verdict.leaves_withGrp fun _ => rfl
  · exact Verdict.leaves_misfit

theorem judgeReadTrack_leaves (l : Link) (tier : Nat) (body : List Byte) (p : Part) :
    (judgeReadTrack l tier body p).Leaves (· = p) := by
  unfold judgeReadTrack
  split
  · exact Verdict.leaves_withTrk fun _ => rfl
  · exact Verdict.leaves_misfit

end Sys2Proof.Machine
end

section
set_option Elab.async false
/-! PROOFS. Frames, requests, link silence and the takings of expiries uphold the laws. -/

namespace Sys2Proof.Machine

/-! ### Frames and requests (R160, R169 to R172) -/

theorem Part.Upholds.assembler (p : Part) (l : Link) : p.Upholds (p.assembler l .hunting) := .modLink ⟨id, fun _ => rfl⟩

theorem Part.Upholds.frameTaken (p : Part) (l : Link) : p.Upholds (p.frameTaken l) :=
  .trans (.modLink ⟨id, fun _ => rfl⟩) (.silenceDisarm _ false)

theorem Part.Upholds.overrunFrame (p : Part) (l : Link) : p.Upholds (p.overrunFrame l) :=
  (Part.Upholds.frameTaken p l).trans (.modLink ⟨id, id⟩)

theorem Part.Upholds.answer (p : Part) (l : Link) (kind : Byte) (code : Result) (index : Byte) (data : List Byte) :
    p.Upholds (p.answer l kind code index data) := .modLink ⟨id, id⟩

theorem Part.Upholds.awake {p : Part} {f : Part → Part} (h : p.Upholds (f p)) : p.Upholds (p.awake f) :=
  .ite (fun _ => .refl p) fun _ => h

theorem Part.Upholds.frame {p : Part} {l : Link} {body : List Byte} {f : Part → Part} (h : p.Upholds (f p)) :
    p.Upholds (p.frame l body f) :=
  .awake (.ite (fun _ => .assembler p l) fun _ => h)

/-- R26, R28, R29: what is judged before a request's own conditions refuses with FORMAT or RANGE. -/
theorem Part.verdictOf_leaves {A : Part → Prop} {p : Part} {l : Link} {tier : Byte} {body : List Byte}
    {fits : List Byte → Bool} {judge : Judge} (h : fits body = true → (judge l (p.effectiveTier l tier) body p).Leaves A) :
    (p.verdictOf l tier body fits judge).Leaves A :=
  Verdict.leaves_refuseIf fun fit => Verdict.leaves_refuseIf fun _ => h (by simpa using fit)

theorem Judge.driven_leaves {judge : Judge} {l : Link} {tier : Nat} {body : List Byte} {p : Part}
    (h : (judge l tier body p).Leaves p.Upholds) : (judge.driven l tier body p).Leaves p.Upholds :=
  Verdict.leaves_andThen (h.mono fun q hq => hq.trans (.drive q))

/-- A judge whose verdicts on fitting bodies refuse with the code of a check, or uphold the laws. -/
def Judge.Upright (judge : Judge) (fits : List Byte → Bool) : Prop :=
  ∀ l tier body p, fits body = true → (judge l tier body p).Leaves p.Upholds

theorem Judge.Upright.driven {judge : Judge} {fits : List Byte → Bool} (h : judge.Upright fits) : judge.driven.Upright fits :=
  fun l tier body p fit => Judge.driven_leaves (h l tier body p fit)

theorem Part.Upholds.request {p : Part} {l : Link} {kind tier : Byte} {body : List Byte} {fits : List Byte → Bool}
    {judge : Judge} (h : judge.Upright fits) : p.Upholds (p.request l kind tier body fits judge) := by
  refine .frame (.ite (fun _ => .overrunFrame p l) fun _ => ?_)
  have judged := Part.verdictOf_leaves (tier := tier) fun fit => h l _ body (p.frameTaken l) fit
  split
  · exact (Part.Upholds.frameTaken p l).trans (.answer _ l _ _ _ _)
  · next q e =>
    rw [e] at judged
    exact ((Part.Upholds.frameTaken p l).trans judged).trans (.answer _ l _ _ _ _)

theorem Part.Upholds.broadcast {p : Part} {l : Link} {tier : Byte} {body : List Byte} {fits : List Byte → Bool}
    {judge : Judge} (h : judge.Upright fits) : p.Upholds (p.broadcast l tier body fits judge) := by
  refine .frame (.ite (fun _ => .overrunFrame p l) fun _ => ?_)
  have judged := Part.verdictOf_leaves (tier := tier) fun fit => h l _ body (p.frameTaken l) fit
  split
  · exact .frameTaken p l
  · next q e =>
    rw [e] at judged
    exact (Part.Upholds.frameTaken p l).trans judged

theorem Part.Upholds.unknown (p : Part) (l : Link) (kind : Byte) (body : List Byte) : p.Upholds (p.unknown l kind body) :=
  .frame (.ite (fun _ => .overrunFrame p l) fun _ => (Part.Upholds.frameTaken p l).trans (.answer _ l _ _ _ _))

/-! ### Link silence (R162 to R164) -/

theorem Part.Upholds.silenceGroup (p : Part) (l : Link) (g : Grp) : p.Upholds (p.silenceGroup l g) :=
  .ite (fun _ => .stopGroup p g _) fun _ => .refl p

theorem Part.Upholds.silenceChan (p : Part) (l : Link) (c : Chan) : p.Upholds (p.modChan c (Channel.silence l)) := by
  by_cases mine : (p.chan c).owner = some l
  · by_cases still : (p.chan c).mover = .none
    · have : p.modChan c (Channel.silence l) = p.modChan c fun x => { x with owner := none } := by
        simp only [Part.modChan, Channel.silence, if_pos mine, if_pos still]
      rw [this]
      exact .setOwner none fun _ => still
    · exact .modAlike (by rw [Channel.silence, if_pos mine, if_neg still]; exact ⟨rfl, rfl, rfl, rfl, rfl, rfl, rfl⟩)
  · exact .modAlike (by rw [Channel.silence, if_neg mine]; exact Channel.Alike.refl _)

theorem Part.Upholds.judgeSilence (p : Part) (l : Link) : p.Upholds (p.judgeSilence l) :=
  .ite (fun _ => (Part.Upholds.silenceDisarm p true).trans (.judgeDisarm _)) fun _ => .refl p

theorem Part.Upholds.linkSilence (p : Part) (l : Link) : p.Upholds (p.linkSilence l) := by
  have expired : p.Upholds (p.modLink l fun x => { x with watchdog := { x.watchdog with state := .expired, timer := none } }) :=
    .modLink ⟨id, id⟩
  have stopped := expired.forEach allGroups (fun p g => p.silenceGroup l g) fun q g _ => .silenceGroup q l g
  have released := (stopped.trans (.endJogs _ fun k => k == l)).forEach allChans (fun p c => p.modChan c (Channel.silence l))
    fun q c _ => .silenceChan q l c
  exact (released.trans (.raiseLink _ _)).trans (.judgeSilence _ l)

/-! ### Expiries and levels -/

/-- A fault that a channel timer's end brings. -/
theorem Part.Upholds.expires {p : Part} {c : Chan} {f : Channel → Channel} (alike : (p.chan c).Alike (f (p.chan c)))
    (k : FaultKind) : p.Upholds ((p.modChan c f).faultReaches c k) :=
  (Part.Upholds.modAlike alike).trans (.faultReaches _ c k)

theorem Part.Upholds.jogLeaseExpires {p : Part} {c : Chan} (out : (p.chan c).jog.map (·.lease) = some 0) :
    p.Upholds (p.endJog c) := by
  refine .endJog fun h => h.jogged ?_
  obtain ⟨j, hj, -⟩ := Option.map_eq_some_iff.mp out
  rw [hj]
  rfl

theorem ModeCtl.Law.powerGoodLost {m : ModeCtl} (h : m.Law) : m.powerGoodLost.Law := by
  obtain ⟨power, stop, timer⟩ := h
  refine ⟨power, stop, fun ht => ⟨?_, rfl⟩⟩
  dsimp only [ModeCtl.powerGoodLost] at ht ⊢
  split at ht
  · next on => simp at on; exact on.2
  · exact (timer ht).1

end Sys2Proof.Machine
end

section
set_option Elab.async false
/-! PROOFS. The output law of the drive ports (R7): a drive establishes it, and what leaves channel states, the mode and the outputs
alone keeps it. -/

namespace Sys2Proof.Machine

/-- R7: the outputs follow at the end of a taking. -/
theorem Part.drive_outputLaw (p : Part) : p.drive.OutputLaw := by
  intro c
  have drives : p.drive.drives c ↔ p.releases c = true := by
    simp [Part.drives, Part.releases, Channel.live, and_assoc]
  rw [drives, Part.drive_port, Part.drive_chan]
  refine ⟨fun on => ?_, fun off => ?_⟩
  · rw [Part.outputOf_released on]
    exact ⟨rfl, rfl, fun d hd => by simp [hd], by simp⟩
  · exact (PortOutput.isSafe_iff _).mp (Part.outputOf_safe (by simpa using off))

/-- Nothing changes that the outputs of the drive ports go by, nor the outputs. -/
structure Part.Still (p q : Part) : Prop where
  mode : q.ctl.mode = p.ctl.mode
  held : q.ctl.held = p.ctl.held
  state : ∀ c, (q.chan c).state = (p.chan c).state
  direction : ∀ c, (q.chan c).direction = (p.chan c).direction
  kind : ∀ c, (q.chan c).kind = (p.chan c).kind
  demand : ∀ c, (q.chan c).demand = (p.chan c).demand
  output : ∀ c, (q.port c).output = (p.port c).output

theorem Part.Still.refl (p : Part) : p.Still p := ⟨rfl, rfl, fun _ => rfl, fun _ => rfl, fun _ => rfl, fun _ => rfl, fun _ => rfl⟩

theorem Part.Still.trans {p q r : Part} (h : p.Still q) (k : q.Still r) : p.Still r :=
  ⟨k.mode.trans h.mode, k.held.trans h.held, fun c => (k.state c).trans (h.state c),
    fun c => (k.direction c).trans (h.direction c), fun c => (k.kind c).trans (h.kind c),
    fun c => (k.demand c).trans (h.demand c), fun c => (k.output c).trans (h.output c)⟩

theorem Part.Still.of_eq {p q : Part} (h : q = p) : p.Still q := h ▸ .refl p

theorem Part.Still.of_same {p q : Part} (mode : q.ctl.mode = p.ctl.mode) (held : q.ctl.held = p.ctl.held)
    (channels : q.channels = p.channels) (ports : q.ports = p.ports) : p.Still q := by
  have chan (c) : q.chan c = p.chan c := by simp only [Part.chan, channels]
  have port (c) : q.port c = p.port c := by simp only [Part.port, ports]
  exact ⟨mode, held, fun c => by rw [chan], fun c => by rw [chan], fun c => by rw [chan], fun c => by rw [chan],
    fun c => by rw [port]⟩

theorem Part.Still.outputLaw {p q : Part} (h : p.Still q) (law : p.OutputLaw) : q.OutputLaw := by
  intro c
  have drives : q.drives c ↔ p.drives c := by rw [Part.drives, h.mode, h.held, h.state]
  rw [drives, h.output, h.direction, h.kind, h.demand]
  exact law c

theorem Part.Still.modChan {p : Part} {c : Chan} {f : Channel → Channel} (state : (f (p.chan c)).state = (p.chan c).state)
    (direction : (f (p.chan c)).direction = (p.chan c).direction) (kind : (f (p.chan c)).kind = (p.chan c).kind)
    (demand : (f (p.chan c)).demand = (p.chan c).demand) : p.Still (p.modChan c f) := by
  refine ⟨rfl, rfl, fun d => ?_, fun d => ?_, fun d => ?_, fun d => ?_, fun _ => rfl⟩
  all_goals
    rw [Part.modChan_chan]
    split
    · next e => subst e; assumption
    · rfl

theorem Part.Still.forEach {α : Type} {p q : Part} (h : p.Still q) (l : List α) (f : Part → α → Part)
    (turn : ∀ (q : Part) x, q.Still (f q x)) : p.Still (q.forEach l f) :=
  Part.forEach_inv (P := fun r => p.Still r) h fun q x _ hq => hq.trans (turn q x)

theorem Part.Still.modLink (p : Part) (l : Link) (f : LinkIf → LinkIf) : p.Still (p.modLink l f) := by
  cases l <;> exact .of_same rfl rfl rfl rfl

theorem Part.Still.ite {p q r : Part} {b : Prop} [Decidable b] (h : p.Still q) (k : p.Still r) : p.Still (if b then q else r) := by
  split
  · exact h
  · exact k

/-! ### Judges that need no drive -/

/-- What a judge accepts keeps the output law: the judge drives the outputs, or changes nothing that they go by. -/
def Judge.KeepsOutputs (judge : Judge) : Prop :=
  ∀ l tier body p data q, judge l tier body p = .accepted data q → p.OutputLaw → q.OutputLaw

theorem Judge.driven_keepsOutputs (judge : Judge) : judge.driven.KeepsOutputs := by
  intro l tier body p data q h _
  unfold Judge.driven at h
  cases e : judge l tier body p with
  | refused code i => rw [e] at h; cases h
  | accepted data' q' =>
    rw [e] at h
    cases h
    exact q'.drive_outputLaw

theorem Judge.keepsOutputs_of {judge : Judge} (h : ∀ l tier body p, (judge l tier body p).Leaves p.Still) :
    judge.KeepsOutputs := fun l tier body p data q e law => by
  have still := h l tier body p
  rw [e] at still
  exact Part.Still.outputLaw still law

theorem judgeIdentify_still (l : Link) (tier : Nat) (body : List Byte) (p : Part) :
    (judgeIdentify l tier body p).Leaves p.Still := Part.Still.refl p

theorem judgeHeartbeat_still (l : Link) (tier : Nat) (body : List Byte) (p : Part) :
    (judgeHeartbeat l tier body p).Leaves p.Still := by
  unfold judgeHeartbeat
  split
  · exact .refl p
  · exact .modLink p l _

theorem judgeSetWatchdog_still (l : Link) (tier : Nat) (body : List Byte) (p : Part) :
    (judgeSetWatchdog l tier body p).Leaves p.Still := by
  unfold judgeSetWatchdog
  split
  · exact Verdict.leaves_refuseIf fun _ => Verdict.leaves_refuseIf fun _ => .modLink p l _
  · exact Verdict.leaves_misfit

theorem judgeSetNotices_still (l : Link) (tier : Nat) (body : List Byte) (p : Part) :
    (judgeSetNotices l tier body p).Leaves p.Still := by
  unfold judgeSetNotices
  split
  · exact Verdict.leaves_refuseIf fun _ => Verdict.leaves_refuseIf fun _ =>
      (Part.Still.modLink p l _).trans (.of_same rfl rfl rfl rfl)
  · exact Verdict.leaves_misfit

theorem judgeReset_still (l : Link) (tier : Nat) (body : List Byte) (p : Part) :
    (judgeReset l tier body p).Leaves p.Still :=
  Verdict.leaves_refuseIf fun _ => .of_same rfl rfl rfl rfl

theorem judgeSetPosition_still (l : Link) (tier : Nat) (body : List Byte) (p : Part) :
    (judgeSetPosition l tier body p).Leaves p.Still := by
  unfold judgeSetPosition
  split
  · exact Verdict.leaves_withChan fun c _ => Verdict.leaves_refuseIf fun _ => Verdict.leaves_refuseIf fun _ =>
      Verdict.leaves_refuseIf fun _ => Verdict.leaves_refuseIf fun _ => Verdict.leaves_refuseIf fun _ =>
      Verdict.leaves_refuseIf fun _ => .modChan rfl rfl rfl rfl
  · exact Verdict.leaves_misfit

theorem Part.Still.setOwners (p : Part) (members : List Chan) (test : Channel → Bool) (owner : Option Link) :
    p.Still (p.setOwners members test owner) :=
  .forEach (.refl p) _ _ fun q c => .modChan (by split <;> rfl) (by split <;> rfl) (by split <;> rfl) (by split <;> rfl)

theorem judgeClaim_still (l : Link) (tier : Nat) (body : List Byte) (p : Part) :
    (judgeClaim l tier body p).Leaves p.Still := by
  unfold judgeClaim
  split
  · exact Verdict.leaves_withSpan fun _ => Verdict.leaves_check fun _ => Verdict.leaves_check fun _ => .setOwners p _ _ _
  · exact Verdict.leaves_misfit

theorem judgeRelease_still (l : Link) (tier : Nat) (body : List Byte) (p : Part) :
    (judgeRelease l tier body p).Leaves p.Still := by
  unfold judgeRelease
  split
  · exact Verdict.leaves_withSpan fun _ => Verdict.leaves_refuseIf fun _ => Verdict.leaves_refuseIf fun _ =>
      Verdict.leaves_check fun _ => Verdict.leaves_check fun _ => .setOwners p _ _ _
  · exact Verdict.leaves_misfit

theorem judgeDefineGroup_still (l : Link) (tier : Nat) (body : List Byte) (p : Part) :
    (judgeDefineGroup l tier body p).Leaves p.Still := by
  unfold judgeDefineGroup
  split
  · refine Verdict.leaves_withGrp fun g => Verdict.leaves_refuseIf fun _ => Verdict.leaves_refuseIf fun _ => ?_
    split
    · exact Verdict.leaves_refused
    · exact Verdict.leaves_refuseIf fun _ => Verdict.leaves_refuseIf fun _ => Verdict.leaves_refuseIf fun _ =>
        Verdict.leaves_check fun _ => .of_same rfl rfl rfl rfl
  · exact Verdict.leaves_misfit

theorem judgeDeleteGroup_still (l : Link) (tier : Nat) (body : List Byte) (p : Part) :
    (judgeDeleteGroup l tier body p).Leaves p.Still := by
  unfold judgeDeleteGroup
  split
  · exact Verdict.leaves_withGrp fun _ => Verdict.leaves_refuseIf fun _ => Verdict.leaves_refuseIf fun _ =>
      Verdict.leaves_refuseIf fun _ => .of_same rfl rfl rfl rfl
  · exact Verdict.leaves_misfit

theorem judgeCancel_still (l : Link) (tier : Nat) (body : List Byte) (p : Part) :
    (judgeCancel l tier body p).Leaves p.Still := by
  unfold judgeCancel
  split
  · exact Verdict.leaves_withGrp fun _ => Verdict.leaves_check fun _ => Verdict.leaves_check fun _ =>
      Verdict.leaves_refuseIf fun _ => .ite (.of_same rfl rfl rfl rfl) (.refl p)
  · exact Verdict.leaves_misfit

theorem judgeFlushCues_still (l : Link) (tier : Nat) (body : List Byte) (p : Part) :
    (judgeFlushCues l tier body p).Leaves p.Still := by
  unfold judgeFlushCues
  split
  · exact Verdict.leaves_withGrp fun _ => Verdict.leaves_refuseIf fun _ => Verdict.leaves_check fun _ =>
      Verdict.leaves_check fun _ => .of_same rfl rfl rfl rfl
  · exact Verdict.leaves_misfit

theorem judgeBindTrack_still (l : Link) (tier : Nat) (body : List Byte) (p : Part) :
    (judgeBindTrack l tier body p).Leaves p.Still := by
  unfold judgeBindTrack
  split
  · exact Verdict.leaves_withTrk fun _ => Verdict.leaves_withGrp fun _ => Verdict.leaves_refuseIf fun _ =>
      Verdict.leaves_refuseIf fun _ => Verdict.leaves_refuseIf fun _ => Verdict.leaves_refuseIf fun _ =>
      Verdict.leaves_refuseIf fun _ => Verdict.leaves_check fun _ => .of_same rfl rfl rfl rfl
  · exact Verdict.leaves_misfit

theorem Part.latch_still {p : Part} {targets : List Chan} {st po : Bool} : (p.latch targets st po).Leaves p.Still :=
  .forEach (.refl p) _ _ fun _ _ => .modChan rfl rfl rfl rfl

theorem judgeLatch_still (l : Link) (tier : Nat) (body : List Byte) (p : Part) :
    (judgeLatch l tier body p).Leaves p.Still := by
  unfold judgeLatch
  split
  · split
    · exact Verdict.leaves_withSpan fun _ => Verdict.leaves_withSelector fun _ _ => Part.latch_still
    · split
      · exact Verdict.leaves_withGrp fun _ => Verdict.leaves_withSelector fun _ _ => Verdict.leaves_refuseIf fun _ =>
          Part.latch_still
      · exact Verdict.leaves_refused
  · exact Verdict.leaves_misfit

theorem judgeReadSnapshot_still (l : Link) (tier : Nat) (body : List Byte) (p : Part) :
    (judgeReadSnapshot l tier body p).Leaves p.Still := by
  unfold judgeReadSnapshot
  split
  · exact Verdict.leaves_withSpan fun _ => Verdict.leaves_refuseIf fun _ =>
      .forEach (.refl p) _ _ fun _ _ => .modChan rfl rfl rfl rfl
  · exact Verdict.leaves_misfit

theorem judgeReadGroup_still (l : Link) (tier : Nat) (body : List Byte) (p : Part) :
    (judgeReadGroup l tier body p).Leaves p.Still := (judgeReadGroup_leaves l tier body p).mono fun _ => .of_eq
theorem judgeReadCues_still (l : Link) (tier : Nat) (body : List Byte) (p : Part) :
    (judgeReadCues l tier body p).Leaves p.Still := (judgeReadCues_leaves l tier body p).mono fun _ => .of_eq
theorem judgeReadTrack_still (l : Link) (tier : Nat) (body : List Byte) (p : Part) :
    (judgeReadTrack l tier body p).Leaves p.Still := (judgeReadTrack_leaves l tier body p).mono fun _ => .of_eq

end Sys2Proof.Machine
end

section
set_option Elab.async false
/-! PROOFS. Every command but the resets, the emergency stop and the start of a frame upholds the laws. -/

namespace Sys2Proof.Machine

theorem Judge.upright_of {judge : Judge} {fits : List Byte → Bool}
    (h : ∀ l tier body p, (judge l tier body p).Leaves p.Upholds) : judge.Upright fits :=
  fun l tier body p _ => h l tier body p

theorem judgeIdentify_upright (fits : List Byte → Bool) : judgeIdentify.Upright fits := Judge.upright_of fun _ _ _ p => .refl p
theorem judgeHalt_upright (fits : List Byte → Bool) : judgeHalt.Upright fits := Judge.upright_of fun _ _ _ p => .halt p _
theorem judgeReadGroup_upright (fits : List Byte → Bool) : judgeReadGroup.Upright fits :=
  Judge.upright_of fun l tier body p => (judgeReadGroup_leaves l tier body p).mono fun _ => .of_eq
theorem judgeReadCues_upright (fits : List Byte → Bool) : judgeReadCues.Upright fits :=
  Judge.upright_of fun l tier body p => (judgeReadCues_leaves l tier body p).mono fun _ => .of_eq
theorem judgeReadTrack_upright (fits : List Byte → Bool) : judgeReadTrack.Upright fits :=
  Judge.upright_of fun l tier body p => (judgeReadTrack_leaves l tier body p).mono fun _ => .of_eq

/-- The commands that are no reset, do not take one, and are neither the emergency stop nor the start of a frame. -/
def Ordinary : Instr → Prop
  | .frameStart _ | .powerOnReset _ _ _ | .lineResetAssert | .lineResetRelease | .commandReset | .replySent _ | .emergencyStopAssert => False
  | _ => True

/-- The taking of an event that may change channel states or the mode, in line reset or not. -/
theorem Gives.take {i : Instr} {s : State} {f : Part → Part} (taking : exec i s = s.take fun p => p.awake f)
    (h : s.part.Upholds (f s.part)) : Gives i s s.part.Upholds :=
  ⟨_, taking, (Part.Upholds.awake h).trans (.drive _)⟩

/-- R188: a command's request is taken, judged by the shape and the judge of its kind, and answered. The judge upholds the laws of
the part and that of the outputs. -/
structure Handles (i : Instr) (r : Request) (fits : List Byte → Bool) (judge : Judge) : Prop where
  taking : ∀ s, exec i s = s.note fun p => p.request r.link r.kind r.tier r.body fits judge
  upright : judge.Upright fits
  outputs : judge.KeepsOutputs
  shape : ∀ body, fits body = true ↔ FitsKind r.kind body

/-- A request whose judge changes nothing that the outputs go by. -/
theorem Handles.noted {i : Instr} {r : Request} {fits : List Byte → Bool} {judge : Judge}
    (taking : ∀ s, exec i s = s.note fun p => p.request r.link r.kind r.tier r.body fits judge) (upright : judge.Upright fits)
    (still : ∀ l tier body p, (judge l tier body p).Leaves p.Still) (shape : ∀ body, fits body = true ↔ FitsKind r.kind body) :
    Handles i r fits judge := ⟨taking, upright, Judge.keepsOutputs_of still, shape⟩

/-- A request whose judge drives the outputs. -/
theorem Handles.driven {i : Instr} {r : Request} {fits : List Byte → Bool} {judge : Judge}
    (taking : ∀ s, exec i s = s.note fun p => p.request r.link r.kind r.tier r.body fits judge.driven)
    (upright : judge.Upright fits) (shape : ∀ body, fits body = true ↔ FitsKind r.kind body) :
    Handles i r fits judge.driven := ⟨taking, upright.driven, judge.driven_keepsOutputs, shape⟩

theorem lengthIs_iff (n : Nat) (body : List Byte) : lengthIs n body = true ↔ body.length = n := by simp [lengthIs]

theorem countedLength_iff (place fixed entry : Nat) (body : List Byte) : countedLength place fixed entry body = true ↔
    ∃ n, body[place]? = some n ∧ body.length = fixed + entry * n.toNat := by
  unfold countedLength
  split
  · next n h => simp [h]
  · next h => simp [h]

/-- The request of a known kind that a command carries is taken by the judge of its kind. -/
theorem handled {i : Instr} {r : Request} (h : i.request = some r) (known : knownKind r.kind = true) :
    ∃ fits judge, Handles i r fits judge := by
  cases i with
  | unknownKind l kind tier body =>
    simp only [Instr.request] at h
    split at h
    · cases h
    · next un => cases h; exact absurd known un
  | broadcastHalt | frameCrcError | frameLengthError | frameGapTimeout | frameIgnored | frameOverrun | replySent
  | watchdogExpiry | frameStart | feedbackArrival | feedbackTimerExpiry | confirmTimerExpiry | standstillTimerExpiry
  | settleTimerExpiry | progressTimerExpiry | jogLeaseExpiry | controlPeriod | dwellExpiry
  | markReached | showClockSaturate | segmentTimerExpiry | starvationTimerExpiry | emergencyStopAssert
  | emergencyStopRelease | powerGoodAbsent | powerGoodPresent | powerGoodTimerExpiry | powerOnReset
  | lineResetAssert | lineResetRelease | commandReset => cases h
  | identify =>
    cases h
    exact ⟨_, _, .noted (fun _ => rfl) (judgeIdentify_upright _) judgeIdentify_still (fun body => lengthIs_iff _ body)⟩
  | heartbeat =>
    cases h
    exact ⟨_, _, .noted (fun _ => rfl) (Judge.upright_of judgeHeartbeat_leaves) judgeHeartbeat_still (fun body => lengthIs_iff _ body)⟩
  | setWatchdog =>
    cases h
    exact ⟨_, _, .noted (fun _ => rfl) (Judge.upright_of judgeSetWatchdog_leaves) judgeSetWatchdog_still (fun body => lengthIs_iff _ body)⟩
  | setMode =>
    cases h
    exact ⟨_, _, .driven (fun _ => rfl) (Judge.upright_of judgeSetMode_leaves) (fun body => lengthIs_iff _ body)⟩
  | halt =>
    cases h
    exact ⟨_, _, .driven (fun _ => rfl) (judgeHalt_upright _) (fun body => lengthIs_iff _ body)⟩
  | resume =>
    cases h
    exact ⟨_, _, .driven (fun _ => rfl) (Judge.upright_of judgeResume_leaves) (fun body => lengthIs_iff _ body)⟩
  | reset =>
    cases h
    exact ⟨_, _, .noted (fun _ => rfl) (Judge.upright_of judgeReset_leaves) judgeReset_still (fun body => lengthIs_iff _ body)⟩
  | setNotices =>
    cases h
    exact ⟨_, _, .noted (fun _ => rfl) (Judge.upright_of judgeSetNotices_leaves) judgeSetNotices_still (fun body => lengthIs_iff _ body)⟩
  | configureChannel =>
    cases h
    exact ⟨_, _, .driven (fun _ => rfl) (Judge.upright_of judgeConfigureChannel_leaves) (fun body => lengthIs_iff _ body)⟩
  | setPosition =>
    cases h
    exact ⟨_, _, .noted (fun _ => rfl) (Judge.upright_of judgeSetPosition_leaves) judgeSetPosition_still (fun body => lengthIs_iff _ body)⟩
  | claim =>
    cases h
    exact ⟨_, _, .noted (fun _ => rfl) (Judge.upright_of judgeClaim_leaves) judgeClaim_still (fun body => lengthIs_iff _ body)⟩
  | release =>
    cases h
    exact ⟨_, _, .noted (fun _ => rfl) (Judge.upright_of judgeRelease_leaves) judgeRelease_still (fun body => lengthIs_iff _ body)⟩
  | releaseForce =>
    cases h
    exact ⟨_, _, .noted (fun _ => rfl) (Judge.upright_of judgeRelease_leaves) judgeRelease_still (fun body => lengthIs_iff _ body)⟩
  | jog =>
    cases h
    exact ⟨_, _, .driven (fun _ => rfl) (Judge.upright_of judgeJog_leaves) (fun body => lengthIs_iff _ body)⟩
  | clearFaultSpan =>
    cases h
    exact ⟨_, _, .driven (fun _ => rfl) (Judge.upright_of judgeClearFault_leaves) (fun body => lengthIs_iff _ body)⟩
  | clearFaultGroup =>
    cases h
    exact ⟨_, _, .driven (fun _ => rfl) (Judge.upright_of judgeClearFault_leaves) (fun body => lengthIs_iff _ body)⟩
  | defineGroup =>
    cases h
    exact ⟨_, _, .noted (fun _ => rfl) judgeDefineGroup_leaves judgeDefineGroup_still (fun body => countedLength_iff _ _ _ body)⟩
  | deleteGroup =>
    cases h
    exact ⟨_, _, .noted (fun _ => rfl) (Judge.upright_of judgeDeleteGroup_leaves) judgeDeleteGroup_still (fun body => lengthIs_iff _ body)⟩
  | queueCue =>
    cases h
    exact ⟨_, _, .driven (fun _ => rfl) (Judge.upright_of judgeQueueCue_leaves) (fun body => lengthIs_iff _ body)⟩
  | go =>
    cases h
    exact ⟨_, _, .driven (fun _ => rfl) (Judge.upright_of judgeGo_leaves) (fun body => lengthIs_iff _ body)⟩
  | stop =>
    cases h
    exact ⟨_, _, .driven (fun _ => rfl) (Judge.upright_of judgeStop_leaves) (fun body => countedLength_iff _ _ _ body)⟩
  | cancel =>
    cases h
    exact ⟨_, _, .noted (fun _ => rfl) (Judge.upright_of judgeCancel_leaves) judgeCancel_still (fun body => lengthIs_iff _ body)⟩
  | flushCues =>
    cases h
    exact ⟨_, _, .noted (fun _ => rfl) (Judge.upright_of judgeFlushCues_leaves) judgeFlushCues_still (fun body => lengthIs_iff _ body)⟩
  | setClockSet =>
    cases h
    exact ⟨_, _, .driven (fun _ => rfl) (Judge.upright_of judgeSetClock_leaves) (fun body => lengthIs_iff _ body)⟩
  | setClockStart =>
    cases h
    exact ⟨_, _, .driven (fun _ => rfl) (Judge.upright_of judgeSetClock_leaves) (fun body => lengthIs_iff _ body)⟩
  | setClockHold =>
    cases h
    exact ⟨_, _, .driven (fun _ => rfl) (Judge.upright_of judgeSetClock_leaves) (fun body => lengthIs_iff _ body)⟩
  | bindTrack =>
    cases h
    exact ⟨_, _, .noted (fun _ => rfl) (Judge.upright_of judgeBindTrack_leaves) judgeBindTrack_still (fun body => lengthIs_iff _ body)⟩
  | unbindTrack =>
    cases h
    exact ⟨_, _, .driven (fun _ => rfl) (Judge.upright_of judgeUnbindTrack_leaves) (fun body => lengthIs_iff _ body)⟩
  | feedTrack =>
    cases h
    exact ⟨_, _, .driven (fun _ => rfl) (Judge.upright_of judgeFeedTrack_leaves) (fun body => countedLength_iff _ _ _ body)⟩
  | playTrack =>
    cases h
    exact ⟨_, _, .driven (fun _ => rfl) (Judge.upright_of judgePlayTrack_leaves) (fun body => lengthIs_iff _ body)⟩
  | stopTrack =>
    cases h
    exact ⟨_, _, .driven (fun _ => rfl) (Judge.upright_of judgeStopTrack_leaves) (fun body => lengthIs_iff _ body)⟩
  | latch =>
    cases h
    exact ⟨_, _, .noted (fun _ => rfl) (Judge.upright_of judgeLatch_leaves) judgeLatch_still (fun body => lengthIs_iff _ body)⟩
  | readSnapshot =>
    cases h
    exact ⟨_, _, .noted (fun _ => rfl) (Judge.upright_of judgeReadSnapshot_leaves) judgeReadSnapshot_still (fun body => lengthIs_iff _ body)⟩
  | readGroup =>
    cases h
    exact ⟨_, _, .noted (fun _ => rfl) (judgeReadGroup_upright _) judgeReadGroup_still (fun body => lengthIs_iff _ body)⟩
  | readCues =>
    cases h
    exact ⟨_, _, .noted (fun _ => rfl) (judgeReadCues_upright _) judgeReadCues_still (fun body => lengthIs_iff _ body)⟩
  | readTrack =>
    cases h
    exact ⟨_, _, .noted (fun _ => rfl) (judgeReadTrack_upright _) judgeReadTrack_still (fun body => lengthIs_iff _ body)⟩

/-- A request of no known kind is that of an unknown kind's frame. -/
theorem request_unknown {i : Instr} {r : Request} (h : i.request = some r) (un : knownKind r.kind = false) :
    i = .unknownKind r.link r.kind r.tier r.body := by
  cases i with
  | unknownKind l kind tier body =>
    simp only [Instr.request] at h
    split at h
    · cases h
    · cases h; rfl
  | broadcastHalt | frameCrcError | frameLengthError | frameGapTimeout | frameIgnored | frameOverrun | replySent
  | watchdogExpiry | frameStart | feedbackArrival | feedbackTimerExpiry | confirmTimerExpiry | standstillTimerExpiry
  | settleTimerExpiry | progressTimerExpiry | jogLeaseExpiry | controlPeriod | dwellExpiry
  | markReached | showClockSaturate | segmentTimerExpiry | starvationTimerExpiry | emergencyStopAssert
  | emergencyStopRelease | powerGoodAbsent | powerGoodPresent | powerGoodTimerExpiry | powerOnReset
  | lineResetAssert | lineResetRelease | commandReset => cases h
  | _ =>
    cases h
    cases un

/-- Every ordinary command that carries no request of a known kind upholds the laws. -/
theorem exec_upholds_other {i : Instr} (h : Ordinary i) (none : ∀ r, i.request = some r → knownKind r.kind = false) (s : State) :
    Gives i s s.part.Upholds := by
  cases i with
  | broadcastHalt l tier body => exact ⟨_, rfl, .broadcast (judgeHalt_upright _).driven⟩
  | unknownKind l kind tier body => exact ⟨_, rfl, .ite (fun _ => .refl _) fun _ => .unknown _ l kind body⟩
  | frameCrcError l => exact ⟨_, rfl, .awake (.assembler _ l)⟩
  | frameLengthError l => exact ⟨_, rfl, .awake (.assembler _ l)⟩
  | frameGapTimeout l => exact ⟨_, rfl, .awake (.assembler _ l)⟩
  | frameIgnored l => exact ⟨_, rfl, .awake (.assembler _ l)⟩
  | frameOverrun l => exact ⟨_, rfl, .awake (.ite (fun _ => .overrunFrame _ l) fun _ => .refl _)⟩
  | watchdogExpiry l => exact Gives.take rfl (.ite (fun _ => .linkSilence _ l) fun _ => .refl _)
  | feedbackArrival c sample => exact Gives.take rfl (.sampleArrives _ c _)
  | feedbackTimerExpiry c => exact Gives.take rfl (.ite (fun _ => .feedbackLost _ c) fun _ => .refl _)
  | confirmTimerExpiry c =>
    exact Gives.take rfl (.ite (fun _ => .expires ⟨rfl, rfl, rfl, rfl, rfl, rfl, rfl⟩ _) fun _ => .refl _)
  | standstillTimerExpiry c =>
    exact Gives.take rfl (.ite (fun _ => .expires ⟨rfl, rfl, rfl, rfl, rfl, rfl, rfl⟩ _) fun _ => .refl _)
  | settleTimerExpiry c =>
    exact Gives.take rfl (.ite (fun _ => .expires ⟨rfl, rfl, rfl, rfl, rfl, rfl, rfl⟩ _) fun _ => .refl _)
  | progressTimerExpiry c =>
    refine ⟨_, rfl, .awake (.modAlike ?_)⟩
    split <;> exact ⟨rfl, rfl, rfl, rfl, rfl, rfl, rfl⟩
  | jogLeaseExpiry c => exact Gives.take rfl (.ite (fun out => .jogLeaseExpires out) fun _ => .refl _)
  | controlPeriod g =>
    refine Gives.take rfl (.ite (fun out => .period ?_) fun _ => .refl _)
    simp [Timer.out] at out
    simp [out]
  | dwellExpiry g => exact Gives.take rfl (.ite (fun _ => .dwellExpires _ g) fun _ => .refl _)
  | markReached g => exact Gives.take rfl (.judgeHead _ g)
  | showClockSaturate =>
    exact Gives.take rfl (.ite (fun _ => (Part.Upholds.judgeAll _).trans (.setClock _ _ _)) fun _ => .refl _)
  | segmentTimerExpiry t =>
    refine Gives.take rfl ?_
    split
    · exact .ite (fun _ => .segmentExpires _ t _) fun _ => .refl _
    · exact .refl _
  | starvationTimerExpiry t => exact Gives.take rfl (.ite (fun _ => .endPlay _ t _) fun _ => .refl _)
  | emergencyStopRelease => exact ⟨_, rfl, .modCtl rfl rfl fun _ ⟨power, _, timer⟩ => ⟨power, nofun, timer⟩⟩
  | powerGoodAbsent => exact ⟨_, rfl, .modCtl rfl rfl fun _ => ModeCtl.Law.powerGoodLost⟩
  | powerGoodPresent => exact ⟨_, rfl, .modCtl rfl rfl fun _ ⟨power, stop, _⟩ => ⟨power, stop, nofun⟩⟩
  | powerGoodTimerExpiry =>
    refine Gives.take rfl (.ite (fun _ => .trans (.modCtl rfl rfl fun _ law => ?_) (.halt _ _)) fun _ => .refl _)
    obtain ⟨power, stop, -⟩ := law
    exact ⟨power, stop, nofun⟩
  | frameStart l => exact h.elim
  | powerOnReset straps estop good => exact h.elim
  | lineResetAssert => exact h.elim
  | lineResetRelease => exact h.elim
  | commandReset => exact h.elim
  | replySent l => exact h.elim
  | emergencyStopAssert => exact h.elim
  | _ => cases none _ rfl

theorem exec_upholds {i : Instr} (h : Ordinary i) (s : State) : Gives i s s.part.Upholds := by
  by_cases known : ∃ r, i.request = some r ∧ knownKind r.kind = true
  · obtain ⟨r, hr, known⟩ := known
    obtain ⟨fits, judge, taken⟩ := handled hr known
    exact ⟨_, taken.taking s, .request taken.upright⟩
  · exact exec_upholds_other h (fun r hr => by simpa using fun k => known ⟨r, hr, k⟩) s

end Sys2Proof.Machine
end

section
set_option Elab.async false
/-! PROOFS. What a taking leaves alone, block by block. -/

namespace Sys2Proof.Machine

theorem Kept.nil (p q : Part) : Kept p q [] := fun _ h => nomatch h

theorem Kept.cons_iff {p q : Part} {b : Block} {bs : List Block} : Kept p q (b :: bs) ↔ b.Kept p q ∧ Kept p q bs := by
  simp [Kept]

theorem Kept.cons {p q : Part} {b : Block} {bs : List Block} (h : b.Kept p q) (hs : Kept p q bs) : Kept p q (b :: bs) :=
  Kept.cons_iff.mpr ⟨h, hs⟩

theorem Kept.mono {p q : Part} {bs cs : List Block} (h : Kept p q bs) (fewer : cs ⊆ bs := by decide) : Kept p q cs :=
  fun b hb => h b (fewer hb)

/-- A taking that does nothing keeps every block, the silence-disarm flag apart, which a frame's taking clears. -/
theorem Kept.refl (p : Part) (bs : List Block) (untaken : .taken ∉ bs := by decide) : Kept p p bs := by
  intro b hb
  cases b with
  | taken => exact absurd hb untaken
  | ports => exact ⟨rfl, rfl⟩
  | samples => exact fun _ => rfl
  | channels | groups | queues | clock | tracks | codes | ctl | link l => exact rfl

theorem Block.Kept.trans {p q r : Part} {b : Block} (h : b.Kept p q) (k : b.Kept q r) : b.Kept p r := by
  cases b with
  | ports => exact ⟨k.1.trans h.1, k.2.trans h.2⟩
  | samples =>
    intro c
    have e : { r.port c with output := (p.port c).output } =
      { ({ r.port c with output := (q.port c).output } : Port) with output := (p.port c).output } := rfl
    rw [e, k c, h c]
  | taken =>
    show r.ctl = _
    rw [show r.ctl = _ from k, show q.ctl = _ from h]
  | channels | groups | queues | clock | tracks | codes | ctl | link l => exact Eq.trans k h

theorem Kept.trans {p q r : Part} {bs : List Block} (h : Kept p q bs) (k : Kept q r bs) : Kept p r bs :=
  fun b hb => (h b hb).trans (k b hb)

/-- A taking that keeps a block after one that clears the silence-disarm flag. -/
theorem Kept.taken_trans {p q r : Part} {bs : List Block} (h : Kept p q (.taken :: bs)) (k : Kept q r (.ctl :: bs)) :
    Kept p r (.taken :: bs) := by
  rw [Kept.cons_iff] at h k ⊢
  refine ⟨?_, h.2.trans k.2⟩
  show r.ctl = _
  rw [show r.ctl = _ from k.1, show q.ctl = _ from h.1]

/-- R7: a drive changes the outputs of the ports alone. -/
theorem Kept.of_drive (p : Part) (bs : List Block) (ports : .ports ∉ bs := by decide) (untaken : .taken ∉ bs := by decide) :
    Kept p p.drive bs := by
  intro b hb
  cases b with
  | taken => exact absurd hb untaken
  | ports => exact absurd hb ports
  | samples => exact fun c => by rw [Part.drive_port]
  | link l => exact p.drive_link l
  | channels => exact p.drive_channels
  | groups => exact p.drive_groups
  | queues => exact p.drive_queues
  | clock => exact p.drive_clock
  | tracks => exact p.drive_tracks
  | codes => exact p.drive_codes
  | ctl => exact p.drive_ctl

theorem Kept.drive {p q : Part} {bs : List Block} (h : Kept p q bs) (ports : .ports ∉ bs := by decide) :
    Kept p q.drive bs := by
  intro b hb
  cases b with
  | taken => exact q.drive_ctl.trans (h .taken hb)
  | ports => exact absurd hb ports
  | samples => exact fun c => by rw [Part.drive_port]; exact h .samples hb c
  | link l => exact (q.drive_link l).trans (h (.link l) hb)
  | channels => exact q.drive_channels.trans (h .channels hb)
  | groups => exact q.drive_groups.trans (h .groups hb)
  | queues => exact q.drive_queues.trans (h .queues hb)
  | clock => exact q.drive_clock.trans (h .clock hb)
  | tracks => exact q.drive_tracks.trans (h .tracks hb)
  | codes => exact q.drive_codes.trans (h .codes hb)
  | ctl => exact q.drive_ctl.trans (h .ctl hb)

end Sys2Proof.Machine
end

section
set_option Elab.async false
/-! PROOFS. Line reset (R166, R169): while it holds the part no frame, sample or expiry reaches it, and its taking stops power and
timers. -/

namespace Sys2Proof.Machine

theorem Part.frame_of_held {p : Part} (h : p.ctl.held = true) (l : Link) (body : List Byte) (f : Part → Part) :
    p.frame l body f = p := p.awake_of_held h _

/-- The blocks that a command held off leaves: all but the outputs of the drive ports. -/
def heldBlocks : List Block := [.channels, .samples, .groups, .queues, .clock, .tracks, .codes, .ctl, .link .a, .link .b]

/-- A noted command that awaits the end of the line reset. -/
theorem Gives.held_note {i : Instr} {s : State} (h : s.part.ctl.held = true) {f : Part → Part}
    (taking : exec i s = s.note fun p => p.awake f) : Gives i s fun q => Kept s.part q heldBlocks := by
  refine ⟨_, taking, ?_⟩
  dsimp only
  rw [Part.awake_of_held h]
  exact .refl _ _

/-- A taken command that awaits the end of the line reset. -/
theorem Gives.held_take {i : Instr} {s : State} (h : s.part.ctl.held = true) {f : Part → Part}
    (taking : exec i s = s.take fun p => p.awake f) : Gives i s fun q => Kept s.part q heldBlocks := by
  refine ⟨_, taking, ?_⟩
  dsimp only
  rw [Part.awake_of_held h]
  exact .of_drive _ _

theorem Part.request_of_held {p : Part} (h : p.ctl.held = true) (l : Link) (kind tier : Byte) (body : List Byte)
    (fits : List Byte → Bool) (judge : Judge) : p.request l kind tier body fits judge = p := Part.frame_of_held h l body _

theorem lineResetHoldsOffCommands : Claims.LineResetHoldsOffCommands := by
  intro i s h off
  by_cases known : ∃ r, i.request = some r ∧ knownKind r.kind = true
  · obtain ⟨r, hr, known⟩ := known
    obtain ⟨fits, judge, taken⟩ := handled hr known
    refine ⟨_, taken.taking s, ?_⟩
    dsimp only
    rw [Part.request_of_held h]
    exact .refl _ _
  · cases i with
    | powerOnReset | lineResetRelease | emergencyStopAssert | emergencyStopRelease | powerGoodAbsent | powerGoodPresent
    | commandReset | replySent => cases off
    | unknownKind l kind tier body =>
      refine ⟨_, rfl, ?_⟩
      dsimp only
      split
      · exact .refl _ _
      · rw [Part.unknown, Part.frame_of_held h]
        exact .refl _ _
    | broadcastHalt l tier body =>
      refine ⟨_, rfl, ?_⟩
      dsimp only
      rw [Part.broadcast, Part.frame_of_held h]
      exact .refl _ _
    | watchdogExpiry | feedbackArrival | feedbackTimerExpiry | confirmTimerExpiry | standstillTimerExpiry | settleTimerExpiry
    | jogLeaseExpiry | controlPeriod | dwellExpiry | markReached | showClockSaturate | segmentTimerExpiry
    | starvationTimerExpiry | powerGoodTimerExpiry | lineResetAssert => exact .held_take h rfl
    | frameStart | frameCrcError | frameLengthError | frameGapTimeout | frameIgnored | frameOverrun
    | progressTimerExpiry => exact .held_note h rfl
    | _ => exact absurd ⟨_, rfl, rfl⟩ known

end Sys2Proof.Machine
end

section
set_option Elab.async false
/-! PROOFS. The resets preserve the laws (R24, R25, R60, R61, R133, R134, R166, R167). -/

namespace Sys2Proof.Machine

/-- Every law but the power law that holds of p holds of q. -/
structure Part.Sustains (p q : Part) : Prop where
  record : p.RecordLaw → q.RecordLaw
  queue : p.QueueLaw → q.QueueLaw
  track : p.TrackLaw → q.TrackLaw
  attention : p.AttentionLaw → q.AttentionLaw
  lawful : p.Lawful → q.Lawful

/-- Every law that holds of p holds of q, in line reset or not. -/
structure Part.Preserves (p q : Part) : Prop extends p.Sustains q where
  power : p.ctl.Law → q.ctl.Law

theorem Part.Sustains.trans {p q r : Part} (h : p.Sustains q) (k : q.Sustains r) : p.Sustains r :=
  ⟨k.record ∘ h.record, k.queue ∘ h.queue, k.track ∘ h.track, k.attention ∘ h.attention, k.lawful ∘ h.lawful⟩

theorem Part.Preserves.refl (p : Part) : p.Preserves p := ⟨⟨id, id, id, id, id⟩, id⟩

theorem Part.Preserves.trans {p q r : Part} (h : p.Preserves q) (k : q.Preserves r) : p.Preserves r :=
  ⟨h.toSustains.trans k.toSustains, k.power ∘ h.power⟩

theorem Part.Upholds.sustains {p q : Part} (h : p.Upholds q) : p.Sustains q :=
  ⟨h.record, h.queue, h.track, h.attention, h.lawful⟩

/-- A taking that upholds the laws preserves them where it keeps the power law in line reset too. -/
theorem Part.Upholds.preserves {p q : Part} (h : p.Upholds q) (power : p.ctl.held = true → p.ctl.Law → q.ctl.Law) :
    p.Preserves q := by
  refine ⟨h.sustains, fun law => ?_⟩
  cases held : p.ctl.held with
  | true => exact power held law
  | false => exact h.power held law

theorem Part.Preserves.drive (p : Part) : p.Preserves p.drive :=
  (Part.Upholds.drive p).preserves fun _ law => by rw [Part.drive_ctl]; exact law

/-- The blocks that the laws of records, movers and lanes, queues, tracks and links do not read. -/
theorem Part.Sustains.modCtl {p : Part} {f : ModeCtl → ModeCtl} (straps : (f p.ctl).straps = p.ctl.straps) :
    p.Sustains (p.modCtl f) :=
  ⟨id, id, id, id, fun h => h.of_same rfl rfl rfl straps⟩

/-! ### The taking of a line or command reset -/

/-- The loops over channels, ports and groups with which a reset's taking begins. -/
def Part.resetRecords (p : Part) : Part :=
  ((p.eachChannel Channel.reset).forEach allChans fun p c => p.modPort c fun x => { x with feedbackTimer := none }).forEach
    allGroups fun p g => p.modGroup g Group.reset

/-- The blocks that a reset's taking replaces whole, and what it takes from the Mode Controller. -/
def Part.resetBlocks (p : Part) : Part :=
  ({ p with queues := Vector.replicate 8 CueQueue.clear, tracks := Vector.replicate 2 Track.clear
            clock := { p.clock with running := false }, linkA := p.linkA.reset, linkB := p.linkB.reset
            codes := EventCodes.none } : Part).modCtl fun m =>
    { m with mainPower := false, powerGoodTimer := none, silenceDisarm := false, resetDue := false }

theorem Part.takeReset_eq (p : Part) : p.takeReset = p.resetRecords.resetBlocks := rfl

theorem Part.resetBlocks_chan (p : Part) (c : Chan) : p.resetBlocks.chan c = p.chan c := rfl
theorem Part.resetBlocks_ctl (p : Part) : p.resetBlocks.ctl =
    { p.ctl with mainPower := false, powerGoodTimer := none, silenceDisarm := false, resetDue := false } := rfl
theorem Part.resetBlocks_link (p : Part) (l : Link) : p.resetBlocks.link l = (p.link l).reset := by cases l <;> rfl

/-- What no update of a channel, a port or a group touches. -/
theorem Part.resetRecords_keeps {β : Type} (r : Part → β) (hc : ∀ (q : Part) c f, r (q.modChan c f) = r q)
    (hp : ∀ (q : Part) c f, r (q.modPort c f) = r q) (hg : ∀ (q : Part) g f, r (q.modGroup g f) = r q) (p : Part) :
    r p.resetRecords = r p := by
  unfold Part.resetRecords
  rw [Part.forEach_keeps r _ _ fun q g _ => hg q g _, Part.forEach_keeps r _ _ fun q c _ => hp q c _,
    Part.eachChannel_keeps r hc]

theorem Part.resetRecords_chan (p : Part) (c : Chan) :
    p.resetRecords.chan c = if p.hasChan c then (p.chan c).reset else p.chan c := by
  unfold Part.resetRecords
  rw [Part.forEach_keeps (fun q => q.chan c) _ _ fun q g _ => q.modGroup_chan g _ c,
    Part.forEach_keeps (fun q => q.chan c) _ _ fun q d _ => q.modPort_chan d _ c, Part.eachChannel_chan]

theorem Part.takeReset_chan (p : Part) (c : Chan) :
    p.takeReset.chan c = if p.hasChan c then (p.chan c).reset else p.chan c := by
  rw [Part.takeReset_eq, Part.resetBlocks_chan, Part.resetRecords_chan]

theorem Part.takeReset_link (p : Part) (l : Link) : p.takeReset.link l = (p.link l).reset := by
  rw [Part.takeReset_eq, Part.resetBlocks_link, p.resetRecords_keeps (fun q => q.link l) (fun q c f => q.modChan_link c f l)
    (fun q c f => q.modPort_link c f l) fun q g f => q.modGroup_link g f l]

theorem Part.takeReset_ctl (p : Part) : p.takeReset.ctl =
    { p.ctl with mainPower := false, powerGoodTimer := none, silenceDisarm := false, resetDue := false } := by
  rw [Part.takeReset_eq, Part.resetBlocks_ctl, p.resetRecords_keeps (fun q => q.ctl) (fun _ _ _ => rfl) (fun _ _ _ => rfl)
    fun _ _ _ => rfl]

/-- R1: which channels exist is a matter of the straps. -/
theorem Part.hasChan_of_straps {p q : Part} (h : q.ctl.straps = p.ctl.straps) (c : Chan) : q.hasChan c = p.hasChan c := by
  unfold Part.hasChan Part.chanCount
  rw [h]

@[simp] theorem Part.takeReset_hasChan (p : Part) (c : Chan) : p.takeReset.hasChan c = p.hasChan c :=
  Part.hasChan_of_straps (by rw [Part.takeReset_ctl]) c

theorem FaultRecord.filter_keeps {r k : FaultRecord} (h : r.filter = some k) : k.first = r.first ∧ k.further.Sublist r.further := by
  unfold FaultRecord.filter at h
  split at h
  · cases h
    exact ⟨rfl, List.filter_sublist⟩
  · cases h

theorem Channel.reset_recordLaw {x : Channel} (h : x.RecordLaw) : x.reset.RecordLaw := by
  obtain ⟨kind, faulted, record, further⟩ := h
  by_cases there : x.configured = true
  · have present : x.kind ≠ .absent := by simpa [configured] using there
    have state : x.reset.state = if x.reset.fault.isSome then .faulted else .idle := if_pos there
    refine ⟨?_, fun e => ?_, fun e => ?_, fun k hk => ?_⟩
    · rw [state]
      refine ⟨fun e => absurd e present, fun e => ?_⟩
      split at e <;> cases e
    · rw [state] at e
      split at e
      · assumption
      · cases e
    · rw [state, if_pos e]
      exact .inl rfl
    · obtain ⟨r, hr, hk⟩ := Option.bind_eq_some_iff.mp hk
      obtain ⟨first, less⟩ := FaultRecord.filter_keeps hk
      obtain ⟨distinct, new⟩ := further r hr
      exact ⟨distinct.sublist less, first ▸ fun e => new (less.subset e)⟩
  · have gone : x.kind = .absent := by simpa [configured] using there
    have none : x.fault = none := by
      cases e : x.fault with
      | none => rfl
      | some r =>
        have := record (by rw [e]; rfl)
        rw [kind.mp gone] at this
        rcases this with e | e <;> cases e
    have state : x.reset.state = .absent := if_neg there
    have fault : x.reset.fault = .none := by simp [reset, none]
    refine ⟨⟨fun _ => state, fun _ => gone⟩, fun e => ?_, ?_, ?_⟩
    · rw [state] at e; cases e
    · simp [fault]
    · simp [fault]

theorem Channel.reset_standing (there : Bool) (x : Channel) : x.reset.Standing there := by
  have state : x.reset.state = .faulted ∨ x.reset.state = .idle ∨ x.reset.state = .absent := by
    unfold reset
    dsimp only
    split
    · split <;> simp
    · simp
  refine ⟨fun e => ?_, fun e => absurd rfl e, fun e => absurd e (by simp [reset]), by simp [reset], by simp [reset]⟩
  rcases state with s | s | s <;> simp [s] at e

theorem Part.takeReset_lawful {p : Part} (h : p.Lawful) : p.takeReset.Lawful := by
  have kinds (c) : (p.takeReset.chan c).kind = (p.chan c).kind := by
    rw [Part.takeReset_chan]; split <;> rfl
  have still (c) : (p.takeReset.chan c).mover = .none := by
    rw [Part.takeReset_chan]
    split
    · rfl
    · next gone =>
      obtain ⟨-, moved, -⟩ := h.standing c
      by_contra e
      exact gone (moved e).1
  have state (g) : (p.takeReset.group g).state = .empty ∧ (p.group g).state = .empty
      ∨ (p.takeReset.group g).state = .idle ∧ (p.group g).state ≠ .empty := by
    rw [Part.takeReset_group]
    by_cases e : (p.group g).state = .empty <;> simp [Group.reset, e]
  have lanes (g) : (p.takeReset.group g).lanes = (p.group g).lanes := by rw [Part.takeReset_group]; rfl
  have move (g) : (p.takeReset.group g).move = none ∧ (p.takeReset.group g).boundTrack = none
      ∧ (p.takeReset.group g).controlTimer = none := by rw [Part.takeReset_group]; exact ⟨rfl, rfl, rfl⟩
  refine .intro (fun g hg => ?_) (fun c => ?_) (fun g => ?_) fun t => ?_
  · have old : (p.group g).state ≠ .empty := (state g).elim (fun e => absurd e.1 hg) fun e => e.2
    obtain ⟨one, eight, distinct, first, each⟩ := h.lanes g old
    rw [lanes]
    refine ⟨one, eight, distinct, first, fun ln hl => ?_⟩
    rw [kinds, Part.takeReset_hasChan]
    exact each ln hl
  · rw [Part.takeReset_hasChan, Part.takeReset_chan]
    split
    · exact Channel.reset_standing _ _
    · exact h.standing c
  · obtain ⟨hm, hb, ht⟩ := move g
    obtain ⟨-, empty, -⟩ := h.move g
    have rest : (p.takeReset.group g).state = .empty ∨ (p.takeReset.group g).state = .idle := (state g).imp And.left And.left
    have no (m) : (p.takeReset.group g).move ≠ some m := by rw [hm]; nofun
    refine ⟨⟨fun _ => rest, fun _ => hm⟩, fun e => ?_, fun m e => absurd e (no m), by simp [still],
      fun _ m e => absurd e (no m), ?_⟩
    · rw [lanes]
      exact empty ((state g).elim And.right fun e' => by rw [e'.1] at e; cases e)
    · rw [ht]
      rcases rest with e | e <;> rw [e] <;> simp
  · unfold Part.BindingLaw
    rw [Part.takeReset_track]
    refine ⟨fun g => ?_, by simp [Track.clear], by simp [Track.clear], by simp [Track.clear], by simp [Track.clear],
      fun g o ho => by simp [Track.clear] at ho⟩
    rw [(move g).2.1]
    simp [Track.clear]

theorem Track.clear_law : Track.clear.Law := ⟨by decide, by decide⟩

theorem Part.Sustains.takeReset (p : Part) : p.Sustains p.takeReset where
  record h c := by
    rw [Part.takeReset_chan]
    split
    · exact Channel.reset_recordLaw (h c)
    · exact h c
  queue _ g := by rw [Part.takeReset_queue]; exact CueQueue.clear_law
  track _ t := by rw [Part.takeReset_track]; exact Track.clear_law
  attention _ l := by rw [Part.takeReset_link]; exact ⟨rfl, .nil⟩
  lawful := Part.takeReset_lawful

/-! ### The end of a reset -/

theorem Part.Upholds.restartWatchdog (p : Part) (l : Link) :
    p.Upholds (p.modLink l fun x => { x with watchdog := x.watchdog.restart }) := .modLink ⟨id, id⟩

theorem Part.Upholds.startTimers (p : Part) : p.Upholds p.startTimers := by
  rw [Part.startTimers_eq]
  have ports : p.Upholds (p.eachPort Port.startFeedback) :=
    .forEach (.refl p) _ _ fun q c _ => .ite (fun _ => .setPort q c _) fun _ => .refl q
  have settled : (p.eachPort Port.startFeedback).Upholds ((p.eachPort Port.startFeedback).eachChannel Channel.startSettle) :=
    .forEach (.refl _) _ _ fun q c _ => .ite (fun _ => .modAlike (by
      unfold Channel.startSettle
      split <;> exact ⟨rfl, rfl, rfl, rfl, rfl, rfl, rfl⟩)) fun _ => .refl q
  exact ((ports.trans settled).trans (.restartWatchdog _ .a)).trans (.restartWatchdog _ .b)

theorem Part.Sustains.endReset (p : Part) (cause : ResetCause) : p.Sustains (p.endReset cause) := by
  have timed := (Part.Upholds.startTimers p).sustains
  unfold Part.endReset
  dsimp only
  refine .trans ?_ (Part.Upholds.post _ _ _).sustains
  have set := timed.trans (.modCtl (f := fun m => ({ m with
    mode := p.modeAfterReset cause, resetCause := cause, fromParked := cause != .powerOn && p.ctl.mode == .parked
    held := false } : ModeCtl).setPower (p.modeAfterReset cause).powered) (by simp))
  split
  · exact set.trans (Part.Upholds.takeBaselines _).sustains
  · exact set

/-- R166: main power is off, and the power-good timer does not run. -/
def ModeCtl.Cold (m : ModeCtl) : Prop := m.mainPower = false ∧ m.powerGoodTimer = none

theorem ModeCtl.Law.cold {m : ModeCtl} (h : m.Law) (held : m.held = true) : m.Cold := by
  obtain ⟨power, -, timer⟩ := h
  have off : m.mainPower = false := by simpa [held] using power
  refine ⟨off, ?_⟩
  cases e : m.powerGoodTimer with
  | none => rfl
  | some n =>
    rw [e] at timer
    have := (timer rfl).1
    rw [off] at this
    cases this

@[simp] theorem Part.startTimers_ctl (p : Part) : p.startTimers.ctl = p.ctl :=
  p.startTimers_keeps (fun q => q.ctl) (fun _ _ _ => rfl) (fun _ _ _ => rfl) fun q l f => q.modLink_ctl l f

theorem Part.endReset_ctl (p : Part) (cause : ResetCause) : (p.endReset cause).ctl =
    ({ p.ctl with
      mode := p.modeAfterReset cause, resetCause := cause, fromParked := cause != .powerOn && p.ctl.mode == .parked
      held := false } : ModeCtl).setPower (p.modeAfterReset cause).powered := by
  unfold Part.endReset
  dsimp only
  rw [Part.post_ctl]
  split
  · rw [Part.takeBaselines_ctl, Part.modCtl_ctl, Part.startTimers_ctl]
  · rw [Part.modCtl_ctl, Part.startTimers_ctl]

/-- R167: the end of a reset turns main power on where it was off, by the mode that it establishes. -/
theorem ModeCtl.Cold.powered {m : ModeCtl} (h : m.Cold) (mode : DeviceMode) (cause : ResetCause) (parked : Bool) :
    (({ m with mode := mode, resetCause := cause, fromParked := parked, held := false } : ModeCtl).setPower mode.powered) =
      { m with
        mode := mode, resetCause := cause, fromParked := parked, held := false, mainPower := mode.powered
        powerGoodTimer := if mode.powered then (if m.powerGood then none else some Config.powerGoodMs) else none } := by
  obtain ⟨off, idle⟩ := h
  unfold ModeCtl.setPower
  cases mode.powered <;> simp [off, idle]

theorem Part.endReset_law {p : Part} (h : p.ctl.Cold) (cause : ResetCause) : (p.endReset cause).ctl.Law := by
  rw [Part.endReset_ctl, h.powered]
  refine ⟨?_, fun estop _ => ?_, fun running => ?_⟩
  · cases p.modeAfterReset cause <;> rfl
  · simp only [Part.modeAfterReset]
    exact if_pos (by simp [show p.ctl.estop = true from estop])
  · dsimp only at running ⊢
    split at running
    · next on =>
      split at running
      · cases running
      · next bad => exact ⟨on, by simpa using bad⟩
    · cases running

/-! ### The three resets (R166) -/

theorem Part.takeReset_cold (p : Part) : p.takeReset.ctl.Cold := by
  rw [Part.takeReset_ctl]
  exact ⟨rfl, rfl⟩

theorem Part.Preserves.commandReset (p : Part) : p.Preserves p.commandReset :=
  ⟨(Part.Sustains.takeReset p).trans (.endReset _ _), fun _ => Part.endReset_law p.takeReset_cold _⟩

theorem Part.Sustains.hold (p : Part) : p.Sustains (p.modCtl fun m => { m with held := true }) := .modCtl rfl

theorem Part.Preserves.lineReset (p : Part) : p.Preserves (p.takeReset.modCtl fun m => { m with held := true }) := by
  refine ⟨(Part.Sustains.takeReset p).trans (.hold _), fun _ => ?_⟩
  rw [Part.modCtl_ctl, Part.takeReset_ctl]
  exact ⟨rfl, nofun, nofun⟩

theorem Part.Preserves.lineRelease {p : Part} (held : p.ctl.held = true) : p.Preserves (p.endReset .line) :=
  ⟨.endReset p _, fun law => Part.endReset_law (law.cold held) _⟩

theorem Channel.powerOn_standing (there : Bool) : Channel.powerOn.Standing there := by
  refine ⟨by simp [Channel.powerOn], by simp [Channel.powerOn], by simp [Channel.powerOn], by simp [Channel.powerOn],
    by simp [Channel.powerOn]⟩

theorem LinkIf.powerOn_law (e : Enables) : (LinkIf.powerOn e).Law := ⟨rfl, .nil⟩

/-- The channels, groups, queues and tracks have their power-on values. -/
structure Part.Cleared (p : Part) : Prop where
  chan : ∀ c, p.chan c = Channel.powerOn
  group : ∀ g, p.group g = Group.powerOn
  queue : ∀ g, p.queue g = CueQueue.clear
  track : ∀ t, p.track t = Track.clear

theorem Part.Cleared.recordLaw {p : Part} (h : p.Cleared) : p.RecordLaw := by
  intro c
  rw [h.chan]
  exact ⟨by decide, by decide, by decide, by simp [Channel.powerOn]⟩

theorem Part.Cleared.queueLaw {p : Part} (h : p.Cleared) : p.QueueLaw := by
  intro g
  rw [h.queue]
  exact CueQueue.clear_law

theorem Part.Cleared.trackLaw {p : Part} (h : p.Cleared) : p.TrackLaw := by
  intro t
  rw [h.track]
  exact Track.clear_law

theorem Part.Cleared.lawful {p : Part} (h : p.Cleared) : p.Lawful := by
  have empty (g) : (p.group g).state = .empty := by rw [h.group]; rfl
  refine .intro (fun g hg => absurd (empty g) hg) (fun c => ?_) (fun g => ?_) fun t => ?_
  · rw [h.chan]
    exact Channel.powerOn_standing _
  · unfold Part.MoveLaw
    simp only [h.group, h.chan]
    exact ⟨by decide, fun _ => rfl, nofun, fun c => nofun, fun e => absurd e (by decide), by decide⟩
  · unfold Part.BindingLaw
    simp only [h.group, h.track]
    exact ⟨by simp [Track.clear, Group.powerOn], .nil, by simp [Track.clear], nofun, nofun, by simp [Track.clear]⟩

theorem Part.powerOn_cleared (straps : Straps) (estop good : Bool) (draws : Nat) :
    (Part.powerOn straps estop good draws).Cleared :=
  ⟨Part.powerOn_chan _ _ _ _, Part.powerOn_group _ _ _ _, Part.powerOn_queue _ _ _ _, Part.powerOn_track _ _ _ _⟩

/-- R24, R60, R133, R134: the laws hold of the power-on values. -/
theorem Part.Sustains.powerOn (p : Part) (straps : Straps) (estop good : Bool) (draws : Nat) :
    p.Sustains (Part.powerOn straps estop good draws) where
  record _ := (Part.powerOn_cleared straps estop good draws).recordLaw
  queue _ := (Part.powerOn_cleared straps estop good draws).queueLaw
  track _ := (Part.powerOn_cleared straps estop good draws).trackLaw
  attention _ l := by cases l <;> exact LinkIf.powerOn_law _
  lawful _ := (Part.powerOn_cleared straps estop good draws).lawful

theorem Part.Preserves.powerOn (p : Part) (straps : Straps) (estop good : Bool) (draws : Nat) :
    p.Preserves ((Part.powerOn straps estop good draws).endReset .powerOn) :=
  ⟨(Part.Sustains.powerOn p straps estop good draws).trans (.endReset _ _), fun _ => Part.endReset_law ⟨rfl, rfl⟩ _⟩

end Sys2Proof.Machine
end

section
set_option Elab.async false
/-! PROOFS. Every step keeps the laws (R8, R39, R47, R68, R101, R114, R135, R136, R151, R175): every command preserves them, and so
does a millisecond. -/

namespace Sys2Proof.Machine

/-! ### A millisecond -/

theorem tickTimer_isSome (t : Timer) : (tickTimer t).isSome = t.isSome := by cases t <;> rfl

theorem CueQueue.tick_law {x : CueQueue} (h : x.Law) : x.tick.Law := by
  obtain ⟨length, distinct, empty, dwell⟩ := h
  refine ⟨length, distinct, empty, ?_⟩
  rw [show x.tick.dwellTimer = tickTimer x.dwellTimer from rfl, tickTimer_isSome]
  exact dwell

/-- The loops over channels, groups and tracks with which a millisecond begins. -/
def Part.tickRecords (p : Part) : Part :=
  ((p.forEach allChans fun p c => (p.modChan c Channel.tick).modPort c Port.tick).forEach allGroups fun p g =>
    (p.modGroup g Group.tick).modQueue g CueQueue.tick).forEach allTracks fun p t => p.modTrack t Track.tick

/-- What a millisecond does to the clock, the links and the Mode Controller. -/
def Part.tickBlocks (p : Part) : Part :=
  { p with clock := p.clock.tick, linkA := p.linkA.tick, linkB := p.linkB.tick
           ctl := { p.ctl with powerGoodTimer := tickTimer p.ctl.powerGoodTimer } }

theorem Part.tick_eq (p : Part) : p.tick = p.tickRecords.tickBlocks := rfl

theorem Part.tickBlocks_link (p : Part) (l : Link) : p.tickBlocks.link l = (p.link l).tick := by cases l <;> rfl

theorem Part.Upholds.tickBlocks (p : Part) : p.Upholds p.tickBlocks := by
  refine .of_same rfl rfl rfl id (fun l => ?_) rfl rfl fun _ law => ?_
  · rw [Part.tickBlocks_link]
    exact ⟨id, id⟩
  · obtain ⟨power, stop, timer⟩ := law
    exact ⟨power, stop, fun e => timer (by rwa [← tickTimer_isSome])⟩

theorem Part.Upholds.tickChannel (p : Part) (c : Chan) : p.Upholds (p.modChan c Channel.tick) := by
  refine .setChan id fun h => ?_
  obtain ⟨moving, moved, release, jog, own⟩ := h.standing c
  exact h.setChan rfl ⟨moving, moved, release, by simpa [Channel.tick] using jog, own⟩ (fun _ => Iff.rfl) fun _ _ => rfl

theorem Part.Upholds.tickGroup (p : Part) (g : Grp) : p.Upholds (p.modGroup g Group.tick) :=
  .regroup fun _ => .of_same rfl rfl rfl (tickTimer_isSome (p.group g).controlTimer) rfl

theorem Part.Upholds.tick (p : Part) : p.Upholds p.tick := by
  rw [Part.tick_eq]
  refine .trans (.forEach (.forEach (.forEach (.refl p) _ _ fun q c _ => ?_) _ _ fun q g _ => ?_) _ _ fun q t _ => ?_)
    (.tickBlocks _)
  · exact (Part.Upholds.tickChannel q c).trans (.setPort _ c _)
  · exact (Part.Upholds.tickGroup q g).trans (.modQueue CueQueue.tick_law)
  · exact .modTrack id rfl rfl (.inl rfl)

theorem State.tick_preserves (s : State) : s.part.Preserves s.tick.part := by
  unfold State.tick
  split
  · exact .refl _
  · next free => exact ((Part.Upholds.tick s.part).trans (.draw _ _)).preserves fun held => absurd held free

/-! ### The commands -/

/-- R151: the change of a device that is not in line reset to HALTED establishes the power law. -/
theorem ModeCtl.halted_law {m : ModeCtl} (free : m.held = false) :
    (({ m with mode := .halted } : ModeCtl).setPower DeviceMode.halted.powered).Law := by
  unfold ModeCtl.setPower
  exact ⟨by simp [DeviceMode.powered, free], fun _ _ => rfl, by simp [DeviceMode.powered]⟩

/-- R155: a halt of a device that is not HALTED establishes the power law. -/
theorem Part.halt_law {p : Part} (free : p.ctl.held = false) (old : p.ctl.mode ≠ .halted) (cause : ModeCause) :
    (p.halt cause).ctl.Law := by
  unfold Part.halt
  rw [if_neg old]
  refine (Part.Upholds.handHalt _).power ?_ ?_
  · rw [Part.changeMode_ctl]
    simpa using free
  · rw [Part.changeMode_ctl]
    exact ModeCtl.halted_law free

theorem Part.Preserves.ite {p q r : Part} {b : Prop} [Decidable b] (h : b → p.Preserves q) (k : ¬b → p.Preserves r) :
    p.Preserves (if b then q else r) := by
  split
  · next hb => exact h hb
  · next hb => exact k hb

theorem Part.halt_of_halted {p : Part} (h : p.ctl.mode = .halted) (cause : ModeCause) : p.halt cause = p := if_pos h

/-- R156: the emergency-stop input is asserted. -/
def Part.assertStop (p : Part) : Part := p.modCtl fun m => { m with estop := true }

theorem Part.Sustains.assertStop (p : Part) : p.Sustains p.assertStop := .modCtl rfl

theorem Part.assertStop_ctl (p : Part) : p.assertStop.ctl = { p.ctl with estop := true } := rfl

/-- R156: the assertion of the emergency stop. -/
theorem Part.Preserves.emergencyStop (p : Part) : p.Preserves (p.assertStop.awake fun q => q.halt .emergencyStop) := by
  have asserted := Part.Sustains.assertStop p
  have ctl := p.assertStop_ctl
  generalize p.assertStop = q at asserted ctl
  cases held : q.ctl.held with
  | true =>
    rw [Part.awake_of_held held]
    refine ⟨asserted, fun law => ?_⟩
    obtain ⟨power, -, timer⟩ := law
    rw [ctl] at held ⊢
    exact ⟨power, fun _ free => absurd (held.symm.trans free) nofun, timer⟩
  | false =>
    rw [Part.awake_of_free held]
    refine ⟨asserted.trans (Part.Upholds.halt q _).sustains, fun law => ?_⟩
    by_cases old : q.ctl.mode = .halted
    · rw [Part.halt_of_halted old]
      obtain ⟨power, -, timer⟩ := law
      rw [ctl] at old ⊢
      exact ⟨power, fun _ _ => old, timer⟩
    · exact Part.halt_law held old _

/-- R171, R166: the last byte of a reply, which may take the command reset. -/
theorem Part.Preserves.replySent (p : Part) (l : Link) :
    p.Preserves (if (p.link l).answering.isSome then
      let q := p.modLink l LinkIf.replySent
      if p.ctl.resetDue && l == .a then q.commandReset else q
    else p) := by
  have sent : p.Preserves (p.modLink l LinkIf.replySent) :=
    (Part.Upholds.modLink ⟨id, id⟩).preserves fun _ law => by rwa [Part.modLink_ctl]
  split
  · dsimp only
    split
    · exact sent.trans (.commandReset _)
    · exact sent
  · exact .refl p

/-- In line reset a command that the hold does not keep off, and that is no reset, records a level. -/
theorem exec_power_of_held {i : Instr} (h : Ordinary i) {s : State} (held : s.part.ctl.held = true) :
    Gives i s fun q => s.part.ctl.Law → q.ctl.Law := by
  by_cases off : i.heldOff = true
  · obtain ⟨q, taking, kept⟩ := lineResetHoldsOffCommands i s held off
    exact ⟨q, taking, fun law => by rwa [show q.ctl = s.part.ctl from kept .ctl (by decide)]⟩
  · cases i with
    | emergencyStopRelease => exact ⟨_, rfl, fun ⟨power, _, timer⟩ => ⟨power, nofun, timer⟩⟩
    | powerGoodAbsent => exact ⟨_, rfl, fun law => ModeCtl.Law.powerGoodLost law⟩
    | powerGoodPresent => exact ⟨_, rfl, fun ⟨power, stop, _⟩ => ⟨power, stop, nofun⟩⟩
    | powerOnReset | lineResetRelease | commandReset | replySent | emergencyStopAssert => exact h.elim
    | _ => exact absurd rfl off

theorem Gives.and {i : Instr} {s : State} {P Q : Part → Prop} (h : Gives i s P) (k : Gives i s Q) :
    Gives i s fun q => P q ∧ Q q := by
  obtain ⟨q, taking, hp⟩ := h
  obtain ⟨r, taking', hq⟩ := k
  have same : q = r := by
    have e := taking.symm.trans taking'
    simp only [Host.Outcome.next.injEq, State.mk.injEq, and_true] at e
    exact e
  exact ⟨q, taking, hp, same ▸ hq⟩

theorem Gives.mono {i : Instr} {s : State} {P Q : Part → Prop} (h : Gives i s P) (weaker : ∀ q, P q → Q q) : Gives i s Q := by
  obtain ⟨q, taking, hp⟩ := h
  exact ⟨q, taking, weaker q hp⟩

theorem Part.Preserves.assembler (p : Part) (l : Link) (a : Assembler) : p.Preserves (p.assembler l a) := by
  unfold Part.assembler
  refine ⟨⟨fun law c => ?_, fun law g => ?_, fun law t => ?_, fun law m => ?_, fun law => ?_⟩, fun law => ?_⟩
  · simpa using law c
  · simpa using law g
  · simpa using law t
  · cases l <;> cases m
    · exact law .a
    · exact law .b
    · exact law .a
    · exact law .b
  · exact law.of_same (by simp) (by simp) (by simp) (by simp)
  · simpa using law

/-- Every command preserves the laws. -/
theorem exec_preserves (i : Instr) (s : State) : Gives i s s.part.Preserves := by
  by_cases h : Ordinary i
  · cases held : s.part.ctl.held with
    | true => exact ((exec_upholds h s).and (exec_power_of_held h held)).mono fun q ⟨upheld, power⟩ =>
        upheld.preserves fun _ => power
    | false => exact (exec_upholds h s).mono fun q upheld => upheld.preserves fun e => absurd (held.symm.trans e) nofun
  · cases i with
    | powerOnReset straps estop good => exact ⟨_, rfl, (Part.Preserves.powerOn _ straps estop good _).trans (.drive _)⟩
    | lineResetAssert =>
      refine ⟨_, rfl, .trans ?_ (.drive _)⟩
      exact .ite (fun _ => .refl _) fun _ => .lineReset _
    | lineResetRelease =>
      refine ⟨_, rfl, .trans ?_ (.drive _)⟩
      exact .ite (fun held => .lineRelease held) fun _ => .refl _
    | commandReset =>
      refine ⟨_, rfl, .trans ?_ (.drive _)⟩
      exact .ite (fun _ => .commandReset _) fun _ => .refl _
    | replySent l => exact ⟨_, rfl, (Part.Preserves.replySent _ l).trans (.drive _)⟩
    | emergencyStopAssert => exact ⟨_, rfl, (Part.Preserves.emergencyStop _).trans (.drive _)⟩
    | frameStart l => exact ⟨_, rfl, .ite (fun _ => .refl _) fun _ => .assembler _ l _⟩
    | _ => exact absurd trivial h

/-! ### A step -/

theorem step_preserves {s t : State} (taken : step s = .next t) : s.part.Preserves t.part := by
  unfold step at taken
  split at taken
  · cases taken
    exact s.tick_preserves
  · next c rest _ =>
    obtain ⟨q, taking, preserved⟩ := exec_preserves c { s with pending := rest }
    rw [taking] at taken
    cases taken
    exact preserved

/-- Settles O7, from the power law of the Mode Controller, which every command and every millisecond preserves. -/
theorem stepKeepsPowerLaw : Obligations.StepKeepsPowerLaw :=
  fun _ _ law taken => (step_preserves taken).power law

/-- Settles O8: a link's pending set changes with its attention line, and holds a pair once. -/
theorem stepKeepsAttentionLaw : Obligations.StepKeepsAttentionLaw :=
  fun _ _ law taken => (step_preserves taken).attention law

/-- Settles O9, from the law of one cue queue, which every operation on a queue keeps. -/
theorem stepKeepsQueueLaw : Obligations.StepKeepsQueueLaw :=
  fun _ _ law taken => (step_preserves taken).queue law

/-- Settles O10, from the law of one track, which every operation on a track keeps. -/
theorem stepKeepsTrackLaw : Obligations.StepKeepsTrackLaw :=
  fun _ _ law taken => (step_preserves taken).track law

/-- Settles O11, from the law of one fault record, which every operation on a channel keeps. -/
theorem stepKeepsRecordLaw : Obligations.StepKeepsRecordLaw :=
  fun _ _ law taken => (step_preserves taken).record law

/-- Settles O12: the lane lists are kept together with movers and owners. -/
theorem stepKeepsLaneListLaw : Obligations.StepKeepsLaneListLaw :=
  fun _ _ lanes ownership taken => ((step_preserves taken).lawful ⟨lanes, ownership⟩).lanes

/-- Settles O13: movers, owners, control periods and bound tracks are kept together with the lane lists. -/
theorem stepKeepsOwnershipLaw : Obligations.StepKeepsOwnershipLaw :=
  fun _ _ lanes ownership taken => ((step_preserves taken).lawful ⟨lanes, ownership⟩).2

end Sys2Proof.Machine
end

section
set_option Elab.async false
/-! PROOFS. Every step keeps the output law of the drive ports (R7): a taking ends with a drive, and what is noted changes nothing
that the outputs go by. -/

namespace Sys2Proof.Machine

theorem Part.Still.frameTaken (p : Part) (l : Link) : p.Still (p.frameTaken l) :=
  (Part.Still.modLink p l _).trans (.of_same rfl rfl rfl rfl)

theorem Part.Still.overrunFrame (p : Part) (l : Link) : p.Still (p.overrunFrame l) :=
  (Part.Still.frameTaken p l).trans (.modLink _ l _)

theorem Part.Still.answer (p : Part) (l : Link) (kind : Byte) (code : Result) (index : Byte) (data : List Byte) :
    p.Still (p.answer l kind code index data) := .modLink p l _

/-- A taking keeps the output law. -/
def Part.KeepsOutputs (p q : Part) : Prop := p.OutputLaw → q.OutputLaw

theorem Part.KeepsOutputs.frame {p : Part} {l : Link} {body : List Byte} {f : Part → Part} (h : p.KeepsOutputs (f p)) :
    p.KeepsOutputs (p.frame l body f) := by
  unfold Part.frame Part.awake
  split
  · exact id
  · split
    · exact (Part.Still.modLink p l _).outputLaw
    · exact h

theorem Part.KeepsOutputs.request {p : Part} {l : Link} {kind tier : Byte} {body : List Byte} {fits : List Byte → Bool}
    {judge : Judge} (h : judge.KeepsOutputs) : p.KeepsOutputs (p.request l kind tier body fits judge) := by
  refine .frame fun law => ?_
  have taken := (Part.Still.frameTaken p l).outputLaw law
  split
  · exact (Part.Still.overrunFrame p l).outputLaw law
  · split
    · exact (Part.Still.answer _ l _ _ _ _).outputLaw taken
    · next data q e =>
      obtain ⟨-, e⟩ := refuseIf_accepted e
      obtain ⟨-, e⟩ := refuseIf_accepted e
      exact (Part.Still.answer _ l _ _ _ _).outputLaw (h _ _ _ _ _ _ e taken)

theorem Part.KeepsOutputs.broadcast {p : Part} {l : Link} {tier : Byte} {body : List Byte} {fits : List Byte → Bool}
    {judge : Judge} (h : judge.KeepsOutputs) : p.KeepsOutputs (p.broadcast l tier body fits judge) := by
  refine .frame fun law => ?_
  have taken := (Part.Still.frameTaken p l).outputLaw law
  split
  · exact (Part.Still.overrunFrame p l).outputLaw law
  · split
    · exact taken
    · next data q e =>
      obtain ⟨-, e⟩ := refuseIf_accepted e
      obtain ⟨-, e⟩ := refuseIf_accepted e
      exact h _ _ _ _ _ _ e taken

theorem Part.KeepsOutputs.unknown (p : Part) (l : Link) (kind : Byte) (body : List Byte) :
    p.KeepsOutputs (p.unknown l kind body) := by
  refine .frame ?_
  split
  · exact (Part.Still.overrunFrame p l).outputLaw
  · exact ((Part.Still.frameTaken p l).trans (.answer _ l _ _ _ _)).outputLaw

theorem Part.Still.awake {p : Part} {f : Part → Part} (h : p.Still (f p)) : p.Still (p.awake f) := .ite (.refl p) h

theorem exec_keepsOutputs (i : Instr) (s : State) : Gives i s s.part.KeepsOutputs := by
  by_cases known : ∃ r, i.request = some r ∧ knownKind r.kind = true
  · obtain ⟨r, hr, known⟩ := known
    obtain ⟨fits, judge, taken⟩ := handled hr known
    exact ⟨_, taken.taking s, .request taken.outputs⟩
  · cases i with
    | broadcastHalt l tier body => exact ⟨_, rfl, .broadcast (Judge.driven_keepsOutputs _)⟩
    | unknownKind l kind tier body =>
      refine ⟨_, rfl, ?_⟩
      dsimp only
      split
      · exact id
      · exact .unknown _ l kind body
    | frameStart l => exact ⟨_, rfl, Part.Still.outputLaw (.awake (.modLink _ l _))⟩
    | frameCrcError l => exact ⟨_, rfl, Part.Still.outputLaw (.awake (.modLink _ l _))⟩
    | frameLengthError l => exact ⟨_, rfl, Part.Still.outputLaw (.awake (.modLink _ l _))⟩
    | frameGapTimeout l => exact ⟨_, rfl, Part.Still.outputLaw (.awake (.modLink _ l _))⟩
    | frameIgnored l => exact ⟨_, rfl, Part.Still.outputLaw (.awake (.modLink _ l _))⟩
    | frameOverrun l => exact ⟨_, rfl, Part.Still.outputLaw (.awake (.ite (.overrunFrame _ l) (.refl _)))⟩
    | progressTimerExpiry c =>
      exact ⟨_, rfl, Part.Still.outputLaw (.awake (.modChan (by split <;> rfl) (by split <;> rfl) (by split <;> rfl) (by split <;> rfl)))⟩
    | emergencyStopRelease => exact ⟨_, rfl, Part.Still.outputLaw (.of_same rfl rfl rfl rfl)⟩
    | powerGoodAbsent => exact ⟨_, rfl, Part.Still.outputLaw (.of_same rfl rfl rfl rfl)⟩
    | powerGoodPresent => exact ⟨_, rfl, Part.Still.outputLaw (.of_same rfl rfl rfl rfl)⟩
    | replySent | watchdogExpiry | feedbackArrival | feedbackTimerExpiry | confirmTimerExpiry | standstillTimerExpiry
    | settleTimerExpiry | jogLeaseExpiry | controlPeriod | dwellExpiry | markReached | showClockSaturate | segmentTimerExpiry
    | starvationTimerExpiry | emergencyStopAssert | powerGoodTimerExpiry | powerOnReset | lineResetAssert | lineResetRelease
    | commandReset => exact ⟨_, rfl, fun _ => Part.drive_outputLaw _⟩
    | _ => exact absurd ⟨_, rfl, rfl⟩ known

/-! ### A millisecond -/

theorem Part.Still.modPort {p : Part} {c : Chan} {f : Port → Port} (output : (f (p.port c)).output = (p.port c).output) :
    p.Still (p.modPort c f) := by
  refine ⟨rfl, rfl, fun _ => rfl, fun _ => rfl, fun _ => rfl, fun _ => rfl, fun d => ?_⟩
  rw [Part.modPort_port]
  split
  · next e => subst e; exact output
  · rfl

theorem Part.Still.tick (p : Part) : p.Still p.tick := by
  rw [Part.tick_eq]
  refine .trans (.forEach (.forEach (.forEach (.refl p) _ _ fun q c => ?_) _ _ fun q g => ?_) _ _ fun q t => ?_)
    (.of_same rfl rfl rfl rfl)
  · exact .trans (.modChan rfl rfl rfl rfl) (.modPort rfl)
  · exact .of_same rfl rfl rfl rfl
  · exact .of_same rfl rfl rfl rfl

theorem State.tick_still (s : State) : s.part.Still s.tick.part := by
  unfold State.tick
  split
  · exact .refl _
  · exact (Part.Still.tick s.part).trans (.of_same rfl rfl rfl rfl)

/-- Settles O6: a taking ends with a drive of the outputs; what is noted, and a millisecond, leave alone what they go by. -/
theorem stepKeepsOutputLaw : Obligations.StepKeepsOutputLaw := by
  intro s t law taken
  unfold step at taken
  split at taken
  · cases taken
    exact s.tick_still.outputLaw law
  · next c rest _ =>
    obtain ⟨q, taking, kept⟩ := exec_keepsOutputs c { s with pending := rest }
    rw [taking] at taken
    cases taken
    exact kept law

end Sys2Proof.Machine
end

section
set_option Elab.async false
/-! PROOFS. What the steps are, the laws at reset, and what every request comes to: format and tier field first, an answer to each,
and nothing changed by a refusal (R26 to R29, R160, R164, R172). -/

namespace Sys2Proof.Machine

/-! ### Steps -/

/-- Settles O2: a step is the execution of the front command, and every command gives a next state. -/
theorem everyStepIsTheFrontCommandAndGoesOn : Obligations.EveryStepIsTheFrontCommandAndGoesOn :=
  ⟨fun _ _ => rfl, fun c s => (exec_preserves c s).mono fun _ _ => trivial⟩

/-! ### The laws at reset -/

theorem Part.reset_cleared : Part.reset.Cleared :=
  ⟨fun c => by simp [Part.chan, Part.reset], fun g => by simp [Part.group, Part.reset], fun g => by simp [Part.queue, Part.reset],
    fun t => by simp [Part.track, Part.reset]⟩

theorem Part.reset_port (c : Chan) : Part.reset.port c = resetPort c.val := by
  fin_cases c <;> rfl

/-- No port of the part right after reset is released. -/
theorem Part.reset_outputLaw : Part.reset.OutputLaw := by
  intro c
  have output : (Part.reset.port c).output = PortOutput.safe c.val 0 := by rw [Part.reset_port]; rfl
  have still : ¬Part.reset.drives c := fun ⟨armed, _, _⟩ => nomatch armed
  rw [output]
  exact ⟨fun drives => absurd drives still, fun _ => ⟨rfl, rfl, rfl⟩⟩

/-- Settles O14: at reset the records have their power-on values, one pair is pending on each link, and main power is on in STANDBY. -/
theorem lawsHoldAtReset : Obligations.LawsHoldAtReset := by
  have cleared := Part.reset_cleared
  refine ⟨Part.reset_outputLaw, ⟨rfl, nofun, nofun⟩, fun l => ?_, cleared.queueLaw, cleared.trackLaw, cleared.recordLaw,
    cleared.lawful.lanes, cleared.lawful.2⟩
  cases l <;> exact ⟨rfl, by decide⟩

end Sys2Proof.Machine
end

section
set_option Elab.async false
/-! PROOFS. What every request comes to (R26 to R29, R160, R164, R170 to R172): format and tier field first, an answer to each, nothing
changed by a refusal, and an overrun while the link is answering. -/

namespace Sys2Proof.Machine

/-! ### Answers -/

/-- R172: a served request is answered with its code, index and data. -/
theorem Part.Served.replied {p q : Part} {l : Link} {kind : Byte} {code : Result} {index : Byte} {data : List Byte}
    (h : p.Served q l kind code index data) : q.Replied l kind code index data := by
  obtain ⟨link, -, ctl⟩ := h
  unfold Part.Replied
  rw [link, ctl]
  rfl

theorem Part.Refuses.replied {p q : Part} {l : Link} {kind : Byte} {code : Result} {index : Byte}
    (h : p.Refuses q l kind code index) : q.Replied l kind code index [] := h.1.replied

theorem Part.answer_accepted (p : Part) (l : Link) (kind : Byte) (data : List Byte) :
    (p.answer l kind .ok 0xFF data).Accepted l kind data := by
  unfold Part.Accepted Part.Replied
  rw [Part.answer_link_self, Part.answer_ctl, Part.answer_status]

/-- A link gives one answer at a time. -/
theorem Part.Replied.same {p : Part} {l : Link} {kind : Byte} {code code' : Result} {index index' : Byte} {data data' : List Byte}
    (h : p.Replied l kind code index data) (k : p.Replied l kind code' index' data') :
    code = code' ∧ index = index' ∧ data = data' := by
  have e := h.symm.trans k
  simp only [Option.some.injEq, Reply.mk.injEq, true_and] at e
  exact e

/-- R26, R27: what a request of this rack comes to: a refusal that changes nothing, or an acceptance. -/
def Part.Outcome (p q : Part) (l : Link) (kind : Byte) : Prop :=
  (∃ code index, code ≠ .ok ∧ code ≠ .late ∧ p.Refuses q l kind code index) ∨ ∃ data, q.Accepted l kind data

theorem Part.request_outcome {p : Part} {l : Link} (ready : p.Ready l) (kind tier : Byte) {body : List Byte}
    (short : body.length ≤ 240) {fits : List Byte → Bool} {judge : Judge} (upright : judge.Upright fits) :
    p.Outcome (p.request l kind tier body fits judge) l kind := by
  have judged := Part.verdictOf_leaves (tier := tier) fun fit => upright l _ body (p.frameTaken l) fit
  rw [Part.request_ready ready _ _ short]
  split
  · next code index e =>
    rw [e] at judged
    exact .inl ⟨code, index, judged.1, judged.2, p.answered_refuses l kind code index⟩
  · next data q _ => exact .inr ⟨data, q.answer_accepted l kind data⟩

/-- R28: a frame of no known kind that a ready link takes. -/
theorem Part.unknown_refuses {p : Part} {l : Link} (ready : p.Ready l) (kind : Byte) {body : List Byte}
    (short : body.length ≤ 240) : p.Refuses (p.unknown l kind body) l kind .unknown 0xFF := by
  unfold Part.unknown
  rw [Part.frame_valid ready.1 short, if_neg (by simp [ready.2])]
  exact p.answered_refuses l kind .unknown noIndex

/-- Every request that a ready link takes has an outcome. -/
theorem exec_outcome {i : Instr} {r : Request} {s : State} (h : i.request = some r) (ready : s.part.Ready r.link)
    (short : r.body.length ≤ 240) : Gives i s fun q => s.part.Outcome q r.link r.kind := by
  cases known : knownKind r.kind with
  | true =>
    obtain ⟨fits, judge, handles⟩ := handled h known
    exact ⟨_, handles.taking s, Part.request_outcome ready _ _ short handles.upright⟩
  | false =>
    rw [request_unknown h known]
    refine ⟨_, rfl, .inl ⟨.unknown, 0xFF, by decide, by decide, ?_⟩⟩
    dsimp only
    rw [if_neg (by simp [known])]
    exact Part.unknown_refuses ready _ short

/-- Settles O3: an outcome is an answer, and one that is no OK is a refusal. -/
theorem everyTakenRequestIsAnsweredAndRefusalsChangeNothing :
    Obligations.EveryTakenRequestIsAnsweredAndRefusalsChangeNothing := by
  constructor
  · intro i r s h ready short
    refine (exec_outcome h ready short).mono fun q outcome => ?_
    rcases outcome with ⟨code, index, notOk, notLate, refused⟩ | ⟨data, accepted⟩
    · exact ⟨code, index, [], refused.replied, fun ok => absurd ok notOk, fun _ => rfl, notLate⟩
    · exact ⟨.ok, 0xFF, data, accepted, fun _ => rfl, fun notOk => absurd rfl notOk, nofun⟩
  · intro i r s h ready short
    refine (exec_outcome h ready short).mono fun q outcome code index data replied notOk => ?_
    rcases outcome with ⟨code', index', -, -, refused⟩ | ⟨data', accepted⟩
    · obtain ⟨rfl, rfl, -⟩ := refused.replied.same replied
      exact refused
    · exact absurd (accepted.same replied).1.symm notOk

/-! ### Format and tier field -/

/-- R26, R28: a body whose length does not fit is refused FORMAT. -/
theorem Part.verdictOf_misfit {p : Part} {l : Link} {tier : Byte} {body : List Byte} {fits : List Byte → Bool} (judge : Judge)
    (h : ¬fits body = true) : p.verdictOf l tier body fits judge = .refused .format 0xFF := by
  rw [Bool.not_eq_true] at h
  unfold Part.verdictOf
  rw [h]
  rfl

/-- Settles O23: the shape of a kind is its body length, which is judged first, and the tier field next. -/
theorem admissionBeginsWithFormatAndTierField : Obligations.AdmissionBeginsWithFormatAndTierField := by
  constructor
  · intro i r s h ready short known
    obtain ⟨fits, judge, handles⟩ := handled h known
    refine ⟨fun misfit => ⟨_, handles.taking s, ?_⟩, fun fit above => ⟨_, handles.taking s, ?_⟩⟩
    · exact Part.request_refuses ready short (Part.verdictOf_misfit judge fun fit => misfit ((handles.shape _).mp fit))
    · exact Part.request_refuses ready short (Part.verdictOf_tier_above judge ((handles.shape _).mpr fit) above)
  · intro p tier
    exact ⟨Nat.max_eq_left (Nat.zero_le _), rfl⟩

/-! ### Overrun -/

/-- R171: what an overrun frame leaves, and what it makes of its link. -/
theorem Part.overrunFrame_leaves (p : Part) (l : Link) :
    Kept p (p.overrunFrame l) [.channels, .ports, .groups, .queues, .clock, .tracks, .codes, .taken, .link l.other]
      ∧ (p.overrunFrame l).link l = { p.link l with
          assembler := .hunting, watchdog := (p.link l).watchdog.restart, overrun := true, overrunSince := true } := by
  unfold Part.overrunFrame
  refine ⟨?_, by simp⟩
  simp [Kept, Block.Kept]

theorem Part.request_answering {p : Part} {l : Link} (free : p.ctl.held = false) (busy : (p.link l).answering.isSome = true)
    (kind tier : Byte) {body : List Byte} (short : body.length ≤ 240) (fits : List Byte → Bool) (judge : Judge) :
    p.request l kind tier body fits judge = p.overrunFrame l := by
  unfold Part.request
  rw [Part.frame_valid free short, if_pos busy]

theorem Part.broadcast_answering {p : Part} {l : Link} (free : p.ctl.held = false) (busy : (p.link l).answering.isSome = true)
    (tier : Byte) {body : List Byte} (short : body.length ≤ 240) (fits : List Byte → Bool) (judge : Judge) :
    p.broadcast l tier body fits judge = p.overrunFrame l := by
  unfold Part.broadcast
  rw [Part.frame_valid free short, if_pos busy]

theorem Part.unknown_answering {p : Part} {l : Link} (free : p.ctl.held = false) (busy : (p.link l).answering.isSome = true)
    (kind : Byte) {body : List Byte} (short : body.length ≤ 240) : p.unknown l kind body = p.overrunFrame l := by
  unfold Part.unknown
  rw [Part.frame_valid free short, if_pos busy]

/-- R171: every frame for this rack that an answering link completes is an overrun frame. -/
theorem exec_answering {i : Instr} {s : State} {l : Link}
    (frame : i = .frameOverrun l ∨ (∃ tier body, i = .broadcastHalt l tier body ∧ body.length ≤ 240)
      ∨ ∃ r, i.request = some r ∧ r.link = l ∧ r.body.length ≤ 240)
    (free : s.part.ctl.held = false) (busy : (s.part.link l).answering.isSome = true) :
    Gives i s fun q => q = s.part.overrunFrame l := by
  rcases frame with rfl | ⟨tier, body, rfl, short⟩ | ⟨r, h, rfl, short⟩
  · refine ⟨_, rfl, ?_⟩
    dsimp only
    rw [Part.awake_of_free free, if_pos busy]
  · exact ⟨_, rfl, Part.broadcast_answering free busy tier short _ _⟩
  · cases known : knownKind r.kind with
    | true =>
      obtain ⟨fits, judge, handles⟩ := handled h known
      exact ⟨_, handles.taking s, Part.request_answering free busy _ _ short _ _⟩
    | false =>
      rw [request_unknown h known]
      refine ⟨_, rfl, ?_⟩
      dsimp only
      rw [if_neg (by simp [known]), Part.unknown_answering free busy _ short]

/-- Settles O5: such a frame restarts the watchdog and sets the overrun flag, whatever it carries. -/
theorem answeringLinkDiscardsFrame : Obligations.AnsweringLinkDiscardsFrame :=
  fun _ s l frame free busy => (exec_answering frame free busy).mono fun _ same => same ▸ s.part.overrunFrame_leaves l

/-! ### Halts while HALTED, and the input levels -/

/-- A broadcast HALT that a ready link takes. -/
theorem Part.broadcast_ready {p : Part} {l : Link} (ready : p.Ready l) (tier : Byte) {body : List Byte}
    (short : body.length ≤ 240) (fits : List Byte → Bool) (judge : Judge) :
    p.broadcast l tier body fits judge =
      match (p.frameTaken l).verdictOf l tier body fits judge with
      | .refused _ _ => p.frameTaken l
      | .accepted _ q => q := by
  unfold Part.broadcast
  rw [Part.frame_valid ready.1 short]
  exact if_neg (by simp [ready.2])

theorem judgeHalt_halted {p : Part} (h : p.ctl.mode = .halted) (l : Link) (tier : Nat) (body : List Byte) :
    judgeHalt l tier body p = .accepted [modeCode .halted] p := by
  unfold judgeHalt
  rw [Part.halt_of_halted h, h]

/-- R7: what a drive after the taking of a frame leaves. -/
theorem Part.frameTaken_drive_kept (p : Part) (l : Link) :
    Kept p (p.frameTaken l).drive
      [.channels, .samples, .groups, .queues, .clock, .tracks, .codes, .taken, .link l.other] := by
  simp [Kept, Block.Kept, Part.drive_port]

theorem Part.assertStop_kept (p : Part) :
    Kept p p.assertStop [.channels, .samples, .groups, .queues, .clock, .tracks, .codes, .link .a, .link .b] := by
  simp [Kept, Block.Kept, Part.assertStop]

theorem exec_emergencyStopAssert (s : State) :
    exec .emergencyStopAssert s = s.take fun p => p.assertStop.awake fun q => q.halt .emergencyStop := rfl

theorem haltInHaltedChangesNothing : Claims.HaltInHaltedChangesNothing := by
  intro l tier s ready low halted
  have verdict : (s.part.frameTaken l).verdictOf l tier [] (lengthIs 0) judgeHalt.driven
      = .accepted [modeCode .halted] (s.part.frameTaken l).drive := by
    rw [Part.verdictOf_fits _ rfl low]
    exact Judge.driven_accepted (judgeHalt_halted (by simpa using halted) _ _ _)
  refine ⟨⟨_, rfl, ?_⟩, ⟨_, rfl, ?_⟩, ⟨_, exec_emergencyStopAssert s, ?_⟩⟩
  · dsimp only
    rw [Part.request_accepts ready (by simp) verdict]
    refine ⟨Part.answered_served _ _ (by simp) (by simp) (by simp), ?_⟩
    simp [Kept, Block.Kept, Part.drive_port]
  · dsimp only
    rw [Part.broadcast_ready ready tier (by simp), verdict]
    exact ⟨s.part.frameTaken_drive_kept l, by simp⟩
  · have same : (s.part.assertStop.awake fun q => q.halt .emergencyStop) = s.part.assertStop := by
      have ctl := s.part.assertStop_ctl
      generalize s.part.assertStop = q at ctl
      rw [Part.awake_of_free (by rw [ctl]; exact ready.1), Part.halt_of_halted (by rw [ctl]; exact halted)]
    dsimp only
    rw [same]
    exact ⟨s.part.assertStop_kept.drive, by rw [Part.drive_ctl, Part.assertStop_ctl]⟩

theorem inputLevelsAreRecorded : Claims.InputLevelsAreRecorded := by
  intro s
  refine ⟨⟨_, rfl, rfl⟩, ⟨_, rfl, rfl⟩, fun good power => ⟨_, rfl, ?_⟩, fun h => ⟨_, rfl, ?_⟩⟩
  · simp [Part.modCtl, ModeCtl.powerGoodLost, good, power, Config.powerGoodMs]
  · rcases h with h | h <;> simp [Part.modCtl, ModeCtl.powerGoodLost, h]

/-- Settles O31: a halt of a HALTED device does nothing, and the input levels are recorded. -/
theorem inputLevelsAndHaltsInHaltedChangeNoMode : Obligations.InputLevelsAndHaltsInHaltedChangeNoMode :=
  ⟨haltInHaltedChangesNothing, inputLevelsAreRecorded⟩

end Sys2Proof.Machine
end

section
set_option Elab.async false
/-! PROOFS. What the resets leave and establish (R4, R16, R25, R61, R108, R110, R129, R151, R166, R167, R171, R175). -/

namespace Sys2Proof.Machine

/-! ### The ports, the clock and the links at a reset -/

theorem Part.resetBlocks_port (p : Part) (c : Chan) : p.resetBlocks.port c = p.port c := rfl
theorem Part.resetBlocks_clock (p : Part) : p.resetBlocks.clock = { p.clock with running := false } := rfl

/-- R4: a reset stops every feedback timer, and leaves the rest of the ports. -/
theorem Part.takeReset_port (p : Part) (c : Chan) : p.takeReset.port c = { p.port c with feedbackTimer := none } := by
  rw [Part.takeReset_eq, Part.resetBlocks_port, Part.resetRecords,
    Part.forEach_keeps (fun q => q.port c) _ _ fun q g _ => q.modGroup_port g _ c,
    Part.forEach_allPorts _ fun _ x => { x with feedbackTimer := none },
    Part.eachChannel_keeps (fun q => q.port c) fun _ _ _ => rfl]

theorem Part.takeReset_clock (p : Part) : p.takeReset.clock = { p.clock with running := false } := by
  rw [Part.takeReset_eq, Part.resetBlocks_clock, p.resetRecords_keeps (fun q => q.clock) (fun _ _ _ => rfl) (fun _ _ _ => rfl)
    fun _ _ _ => rfl]

/-- R167: the watchdogs start again with the end of a reset. -/
theorem Part.startTimers_link (p : Part) (l : Link) :
    p.startTimers.link l = { p.link l with watchdog := (p.link l).watchdog.restart } := by
  have ports := Part.eachPort_keeps (fun q => q.link l) (fun q c f => q.modPort_link c f l) p Port.startFeedback
  have channels := Part.eachChannel_keeps (fun q => q.link l) (fun q c f => q.modChan_link c f l)
    (p.eachPort Port.startFeedback) Channel.startSettle
  rw [Part.startTimers_eq]
  generalize (p.eachPort Port.startFeedback).eachChannel Channel.startSettle = q at channels
  rw [← ports, ← channels]
  cases l <;> rfl

theorem Part.takeBaselines_link (p : Part) (l : Link) : p.takeBaselines.link l = p.link l :=
  Part.forEach_keeps (fun q => q.link l) _ _ fun q c _ => q.modChan_link c _ l

theorem Part.takeBaselines_clock (p : Part) : p.takeBaselines.clock = p.clock :=
  Part.forEach_keeps (fun q => q.clock) _ _ fun _ _ _ => rfl

/-- R167, R175: MODE is offered to each link once its watchdog has started. -/
theorem Part.endReset_link (p : Part) (cause : ResetCause) (l : Link) :
    (p.endReset cause).link l = ({ p.link l with watchdog := (p.link l).watchdog.restart } : LinkIf).offer .mode := by
  unfold Part.endReset
  dsimp only
  rw [Part.post_link]
  split
  · rw [Part.takeBaselines_link, Part.modCtl_link, Part.startTimers_link]
  · rw [Part.modCtl_link, Part.startTimers_link]

theorem Part.endReset_clock (p : Part) (cause : ResetCause) : (p.endReset cause).clock = p.clock := by
  have timers : p.startTimers.clock = p.clock :=
    p.startTimers_keeps (fun q => q.clock) (fun _ _ _ => rfl) (fun _ _ _ => rfl) fun q l f => q.modLink_clock l f
  unfold Part.endReset
  dsimp only
  rw [Part.post_clock]
  split
  · rw [Part.takeBaselines_clock, Part.modCtl_clock, timers]
  · rw [Part.modCtl_clock, timers]

/-- R110: the channel of a device that is PARKED takes a baseline of its load when it is configured. -/
def Channel.parkedBaseline (parked : Prop) [Decidable parked] (x : Channel) : Channel :=
  { x with watchBaseline := if parked ∧ x.configured then some x.load else x.watchBaseline }

theorem Channel.parkedBaseline_of_present {parked : Prop} [Decidable parked] {x : Channel} (h : parked) (there : x.kind ≠ .absent) :
    (x.parkedBaseline parked).watchBaseline = some (x.parkedBaseline parked).load := by
  unfold parkedBaseline
  exact if_pos ⟨h, by simpa [configured] using there⟩

theorem Channel.parkedBaseline_of_absent (parked : Prop) [Decidable parked] {x : Channel} (h : x.kind = .absent) :
    x.parkedBaseline parked = x := by
  unfold parkedBaseline
  rw [if_neg fun e => by simp [configured, h] at e]

/-- A reset's end starts the settle timers, and takes the baselines of a device that it leaves PARKED. -/
theorem Part.endReset_channel (p : Part) (cause : ResetCause) (c : Chan) :
    (p.endReset cause).chan c = (p.startTimers.chan c).parkedBaseline (p.modeAfterReset cause = .parked) := by
  unfold Part.endReset
  dsimp only
  rw [Part.post_chan]
  split
  · next parked =>
    rw [Part.takeBaselines_chan, Part.modCtl_chan]
    cases e : (p.startTimers.chan c).configured <;> simp [Channel.parkedBaseline, parked, e]
  · next other => simp [Channel.parkedBaseline, other]

theorem LinkIf.offer_keeps (x : LinkIf) (q : NoticePair) : (x.offer q).assembler = x.assembler
    ∧ (x.offer q).answering = x.answering ∧ (x.offer q).overrun = x.overrun ∧ (x.offer q).overrunSince = x.overrunSince
    ∧ (x.offer q).lastLink = x.lastLink ∧ (x.offer q).reports = x.reports ∧ (x.offer q).watchdog = x.watchdog := by
  rw [LinkIf.offer_eq]
  exact ⟨rfl, rfl, rfl, rfl, rfl, rfl, rfl⟩

theorem Watchdog.restart_period (w : Watchdog) : w.restart.period = w.period := by
  unfold Watchdog.restart
  split <;> rfl

/-! ### What is left after a line or command reset -/

/-- The part after a line or command reset, before its outputs follow: with the RESET input asserted, or once the mode is
established. -/
structure Part.AfterReset (p q : Part) : Prop where
  chan : ∀ c, ∃ timer, (p.hasChan c = false → timer = (p.chan c).settleTimer)
    ∧ q.chan c = ({ (if p.hasChan c then (p.chan c).reset else p.chan c) with settleTimer := timer } : Channel).parkedBaseline
        (q.ctl.held = false ∧ q.ctl.mode = .parked)
  port : ∀ c, (q.port c).sample = (p.port c).sample
  safe : ∀ c, q.releases c = false
  group : ∀ g, q.group g = (p.group g).reset
  clock : q.clock = { p.clock with running := false }
  link : ∀ l, (q.link l).assembler = .hunting ∧ (q.link l).answering = none ∧ (q.link l).overrun = false
    ∧ (q.link l).lastLink = none ∧ (q.link l).reports = (p.link l).reports
    ∧ (q.link l).watchdog.period = (p.link l).watchdog.period
  ctl : q.ctl.straps = p.ctl.straps ∧ q.ctl.wakes = p.ctl.wakes ∧ q.ctl.silenceDisarm = false

/-- R166: the part with the RESET input asserted. -/
def Part.holdReset (p : Part) : Part := p.takeReset.modCtl fun m => { m with held := true }

theorem Part.holdReset_after (p : Part) : p.AfterReset p.holdReset where
  chan c := by
    refine ⟨(p.takeReset.chan c).settleTimer, fun gone => ?_, ?_⟩
    · rw [Part.takeReset_chan, gone]
      rfl
    · rw [Part.holdReset, Part.modCtl_chan, Part.takeReset_chan]
      simp [Channel.parkedBaseline]
  port c := by rw [Part.holdReset, Part.modCtl_port, Part.takeReset_port]
  safe c := by simp [Part.holdReset, Part.releases]
  group g := by rw [Part.holdReset, Part.modCtl_group, Part.takeReset_group]
  clock := by rw [Part.holdReset, Part.modCtl_clock, Part.takeReset_clock]
  link l := by
    rw [Part.holdReset, Part.modCtl_link, Part.takeReset_link]
    exact ⟨rfl, rfl, rfl, rfl, rfl, rfl⟩
  ctl := by
    rw [Part.holdReset, Part.modCtl_ctl, Part.takeReset_ctl]
    exact ⟨rfl, rfl, rfl⟩

theorem ModeCtl.setPower_keeps (on : Bool) (m : ModeCtl) : (m.setPower on).straps = m.straps ∧ (m.setPower on).wakes = m.wakes
    ∧ (m.setPower on).silenceDisarm = m.silenceDisarm ∧ (m.setPower on).held = m.held
    ∧ (m.setPower on).resetCause = m.resetCause ∧ (m.setPower on).fromParked = m.fromParked
    ∧ (m.setPower on).resetDue = m.resetDue := by
  unfold setPower
  split
  · split <;> exact ⟨rfl, rfl, rfl, rfl, rfl, rfl, rfl⟩
  · exact ⟨rfl, rfl, rfl, rfl, rfl, rfl, rfl⟩

theorem Part.endReset_held (p : Part) (cause : ResetCause) : (p.endReset cause).ctl.held = false := by
  rw [Part.endReset_ctl, (ModeCtl.setPower_keeps _ _).2.2.2.1]

theorem Channel.startSettle_eq (x : Channel) : x.startSettle = { x with settleTimer := x.startSettle.settleTimer } := by
  unfold startSettle
  split <;> rfl

theorem Part.startTimers_channel (p : Part) (c : Chan) :
    p.startTimers.chan c = { p.chan c with settleTimer := (p.startTimers.chan c).settleTimer } := by
  rw [Part.startTimers_chan]
  split
  · exact Channel.startSettle_eq _
  · rfl

theorem Part.takeReset_endReset_after (p : Part) (cause : ResetCause) : p.AfterReset (p.takeReset.endReset cause) where
  chan c := by
    refine ⟨(p.takeReset.startTimers.chan c).settleTimer, fun gone => ?_, ?_⟩
    · rw [Part.startTimers_chan, Part.takeReset_hasChan, Part.takeReset_chan, gone]
      rfl
    · rw [Part.endReset_channel, Part.startTimers_channel, Part.endReset_mode, Part.endReset_held, Part.takeReset_chan]
      simp [Channel.parkedBaseline]
  port c := by
    rw [Part.endReset_port, Part.startTimers_port, Part.takeReset_port]
    split <;> rfl
  safe := p.takeReset.endReset_releases cause
  group g := by rw [Part.endReset_group, Part.takeReset_group]
  clock := by rw [Part.endReset_clock, Part.takeReset_clock]
  link l := by
    rw [Part.endReset_link, Part.takeReset_link]
    obtain ⟨assembler, answering, overrun, -, last, reports, watchdog⟩ := LinkIf.offer_keeps
      ({ (p.link l).reset with watchdog := (p.link l).reset.watchdog.restart } : LinkIf) .mode
    rw [assembler, answering, overrun, last, reports, watchdog]
    exact ⟨rfl, rfl, rfl, rfl, rfl, Watchdog.restart_period _⟩
  ctl := by
    obtain ⟨straps, wakes, silence, -⟩ := ModeCtl.setPower_keeps (p.takeReset.modeAfterReset cause).powered
      { p.takeReset.ctl with
        mode := p.takeReset.modeAfterReset cause, resetCause := cause
        fromParked := cause != .powerOn && p.takeReset.ctl.mode == .parked, held := false }
    rw [Part.endReset_ctl, straps, wakes, silence, Part.takeReset_ctl]
    exact ⟨rfl, rfl, rfl⟩

/-- R171: what the last byte of a reply does at its link, a reset forgets. -/
theorem Part.AfterReset.of_replySent {p q : Part} {l : Link} (h : (p.modLink l LinkIf.replySent).AfterReset q) : p.AfterReset q where
  chan c := by simpa [Part.hasChan_of_straps (p := p) (q := p.modLink l LinkIf.replySent) (by simp)] using h.chan c
  port c := by simpa using h.port c
  safe := h.safe
  group g := by simpa using h.group g
  clock := by simpa using h.clock
  link m := by
    have old : ((p.modLink l LinkIf.replySent).link m).reports = (p.link m).reports
        ∧ ((p.modLink l LinkIf.replySent).link m).watchdog = (p.link m).watchdog := by
      cases l <;> cases m <;> exact ⟨rfl, rfl⟩
    obtain ⟨reports, watchdog⟩ := old
    rw [← reports, ← watchdog]
    exact h.link m
  ctl := by simpa using h.ctl

/-- R166: every line or command reset's taking leaves such a part, whose outputs then follow. -/
theorem TakesReset.after {i : Instr} {s : State} {cause : ResetCause} (h : TakesReset i s cause) (warm : cause ≠ .powerOn) :
    Gives i s fun q => ∃ r, s.part.AfterReset r ∧ q = r.drive := by
  rcases h with ⟨_, _, _, -, e⟩ | ⟨rfl, free, -⟩ | ⟨rfl, due, -⟩ | ⟨rfl, answering, due, -⟩
  · exact absurd e warm
  · exact ⟨_, exec_lineResetAssert free, _, s.part.holdReset_after, rfl⟩
  · exact ⟨_, exec_commandReset due, _, s.part.takeReset_endReset_after _, rfl⟩
  · exact ⟨_, exec_replySent_of_resetDue answering due, _, (Part.takeReset_endReset_after _ _).of_replySent, rfl⟩

/-! ### The records that a reset keeps -/

/-- R25, R108: the kinds whose records survive. -/
theorem FaultKind.survives_iff (k : FaultKind) :
    k.survives = true ↔ k ∈ [FaultKind.overload, .reversed, .runaway, .finalLimit] := by cases k <;> decide

theorem FaultRecord.filter_of_survives {r : FaultRecord} (h : r.first ∈ [FaultKind.overload, .reversed, .runaway, .finalLimit]) :
    r.filter = some { r with
      further := r.further.filter fun k => k ∈ [FaultKind.overload, .reversed, .runaway, .finalLimit] } := by
  have same : FaultKind.survives = fun k => decide (k ∈ [FaultKind.overload, .reversed, .runaway, .finalLimit]) := by
    funext k
    rw [Bool.eq_iff_iff, FaultKind.survives_iff, decide_eq_true_iff]
  unfold filter
  rw [if_pos ((FaultKind.survives_iff _).mpr h), same]

theorem FaultRecord.filter_of_lost {r : FaultRecord} (h : r.first ∉ [FaultKind.overload, .reversed, .runaway, .finalLimit]) :
    r.filter = none := if_neg fun e => h ((FaultKind.survives_iff _).mp e)

theorem Channel.configured_iff (x : Channel) : x.configured = true ↔ x.kind ≠ .absent := by simp [configured]

theorem Channel.reset_configured {x : Channel} (h : x.kind ≠ .absent) :
    x.reset.state = (if x.reset.fault.isSome then .faulted else .idle) ∧ x.reset.settling = true ∧ x.reset.rest = x.raw := by
  have there := x.configured_iff.mpr h
  exact ⟨if_pos there, there, if_pos there⟩

theorem Channel.reset_absent {x : Channel} (h : x.kind = .absent) : x.reset.state = .absent :=
  if_neg fun e => x.configured_iff.mp e h

/-- Settles O19: the part after a line or command reset, read block by block. -/
theorem lineAndCommandResetKeepWhatTheyKeep : Obligations.LineAndCommandResetKeepWhatTheyKeep := by
  intro i s cause taken warm
  refine (taken.after warm).mono ?_
  rintro _ ⟨q, after, rfl⟩
  simp only [Part.drive_chan, Part.drive_group, Part.drive_clock, Part.drive_link, Part.drive_ctl, Part.drive_port]
  refine ⟨fun c => ?_, fun g => ?_, after.clock, fun l => ?_, after.ctl.1, after.ctl.2.1, after.ctl.2.2⟩
  · obtain ⟨brake, run, demand⟩ := (PortOutput.isSafe_iff _).mp (Part.outputOf_safe (after.safe c))
    obtain ⟨timer, kept, e⟩ := after.chan c
    refine ⟨brake, run, demand, after.port c, fun gone => ?_, fun there => ?_⟩
    · rw [gone, kept gone] at e
      refine ⟨by rw [e]; rfl, fun absent => ?_⟩
      rw [e]
      exact Channel.parkedBaseline_of_absent _ absent
    · rw [there] at e
      have baseline : (q.chan c).watchBaseline =
          if q.ctl.held = false ∧ q.ctl.mode = .parked ∧ (s.part.chan c).kind ≠ .absent then some (s.part.chan c).load
          else none := by
        rw [e]
        simp [Channel.parkedBaseline, Channel.reset, Channel.configured, and_assoc]
      rw [baseline, e]
      refine ⟨rfl, rfl, rfl, rfl, rfl, rfl, rfl, rfl, rfl, rfl, rfl, rfl, rfl, rfl, rfl, rfl, rfl, rfl, rfl, rfl, rfl, rfl, rfl,
        rfl, rfl, rfl, rfl, fun none => ?_, fun r record => ⟨fun survives => ?_, fun lost => ?_⟩, Channel.reset_absent,
        Channel.reset_configured⟩
      · show (s.part.chan c).fault.bind FaultRecord.filter = _
        rw [none]
        rfl
      · show (s.part.chan c).fault.bind FaultRecord.filter = _
        rw [record]
        exact FaultRecord.filter_of_survives survives
      · show (s.part.chan c).fault.bind FaultRecord.filter = _
        rw [record]
        exact FaultRecord.filter_of_lost lost
  · rw [after.group]
    simp [Group.reset]
  · obtain ⟨assembler, answering, overrun, last, reports, period⟩ := after.link l
    exact ⟨assembler, answering, overrun, last, reports, period⟩

/-! ### Line reset (R166) -/

/-- Settles O20: what is held off leaves the part alone, and the taking of the reset stops power and timers. -/
theorem lineResetHoldsThePart : Obligations.LineResetHoldsThePart := by
  refine ⟨lineResetHoldsOffCommands, fun s free => ⟨_, exec_lineResetAssert free, ?_⟩⟩
  simp only [Part.drive_chan, Part.drive_group, Part.drive_queue, Part.drive_track, Part.drive_link, Part.drive_ctl,
    Part.drive_port, Part.modCtl_chan, Part.modCtl_group, Part.modCtl_queue, Part.modCtl_track, Part.modCtl_link,
    Part.modCtl_port, Part.modCtl_ctl, Part.takeReset_ctl, Part.takeReset_port, Part.takeReset_group, Part.takeReset_queue,
    Part.takeReset_track, Part.takeReset_link]
  refine ⟨trivial, trivial, trivial, trivial, fun c => ⟨trivial, fun there => ?_⟩, fun g => ⟨rfl, rfl⟩, fun t => ⟨rfl, rfl⟩,
    fun l => ⟨rfl, rfl, rfl⟩⟩
  rw [Part.takeReset_chan, if_pos there]
  rfl

/-! ### The end of a reset (R167) -/

theorem Part.deviceFault_isSome (p : Part) : p.deviceFault.isSome = true ↔ ∃ c, (p.chan c).deviceFault = true := by
  simp [Part.deviceFault]

/-- R167: the mode that the end of a reset establishes. -/
theorem Part.modeAfterReset_eq (p : Part) (cause : ResetCause) :
    p.modeAfterReset cause = if p.ctl.estop = true ∨ p.deviceFault.isSome = true then .halted
      else if cause ≠ .powerOn ∧ p.ctl.mode = .parked then .parked else .standby := by
  simp [Part.modeAfterReset]

theorem DeviceMode.powered_of_ne_armed {m : DeviceMode} (h : m ≠ .armed) : m.powered = (m == .standby) := by
  cases m
  · rfl
  · rfl
  · exact absurd rfl h
  · rfl

/-- R175: what an offer makes of a link that reports the pair. -/
theorem LinkIf.offer_reported {x : LinkIf} {q : NoticePair} (h : x.reports.has q = true) :
    q ∈ (x.offer q).pending ∧ (x.offer q).attention = true := by
  have entered : q ∈ addPair q x.pending := (mem_addPair q q _).mpr (.inl rfl)
  unfold LinkIf.offer
  rw [if_pos h]
  refine ⟨entered, ?_⟩
  simpa using List.ne_nil_of_mem entered

/-- 8.6: a watchdog that starts. -/
theorem Watchdog.restart_state (w : Watchdog) :
    (w.restart.period ≠ 0 → w.restart.state = .running ∧ w.restart.timer = some w.restart.period)
      ∧ (w.restart.period = 0 → w.restart.state = .off ∧ w.restart.timer = none) := by
  rw [Watchdog.restart_period]
  unfold Watchdog.restart
  split
  · next zero => exact ⟨fun h => absurd zero h, fun _ => ⟨rfl, rfl⟩⟩
  · next period => exact ⟨fun _ => ⟨rfl, rfl⟩, fun h => absurd h period⟩

/-- What the end of a reset establishes, on a part with main power off. -/
theorem Part.endReset_establishes {p : Part} (cold : p.ctl.Cold) (cause : ResetCause) :
    let q := (p.endReset cause).drive
    q.ctl.mode = p.modeAfterReset cause
      ∧ q.ctl.mainPower = (q.ctl.mode == .standby)
      ∧ q.ctl.powerGoodTimer = (if q.ctl.mode = .standby ∧ p.ctl.powerGood = false then some 100 else none)
      ∧ q.ctl.resetCause = cause ∧ q.ctl.fromParked = (cause != .powerOn && p.ctl.mode == .parked) ∧ q.ctl.held = false
      ∧ q.codes.mode = some (.modeChange q.ctl.mode p.ctl.mode .reset)
      ∧ (∀ c, q.hasChan c = true → (q.port c).feedbackTimer = some 50
          ∧ ((q.chan c).settling = true → (q.chan c).settleTimer = some 2000)
          ∧ (q.ctl.mode = .parked → (q.chan c).kind ≠ .absent → (q.chan c).watchBaseline = some (q.chan c).load))
      ∧ ∀ l, ((q.link l).reports.mode = true → NoticePair.mode ∈ (q.link l).pending ∧ (q.link l).attention = true)
        ∧ ((q.link l).watchdog.period ≠ 0 →
            (q.link l).watchdog.state = .running ∧ (q.link l).watchdog.timer = some (q.link l).watchdog.period)
        ∧ ((q.link l).watchdog.period = 0 → (q.link l).watchdog.state = .off ∧ (q.link l).watchdog.timer = none) := by
  dsimp only
  have powered := DeviceMode.powered_of_ne_armed (p.modeAfterReset_ne_armed cause)
  have straps (c) : (p.endReset cause).drive.hasChan c = p.hasChan c := by
    refine Part.hasChan_of_straps ?_ c
    rw [Part.drive_ctl, Part.endReset_ctl, cold.powered]
  simp only [straps, Part.drive_chan, Part.drive_link, Part.drive_ctl, Part.drive_codes, Part.drive_port, Part.endReset_codes,
    Part.endReset_port, Part.endReset_link]
  rw [Part.endReset_ctl, cold.powered]
  refine ⟨rfl, powered, ?_, rfl, rfl, rfl, rfl, fun c there => ⟨?_, fun settles => ?_, fun parked present => ?_⟩, fun l => ?_⟩
  · rw [powered]
    by_cases standby : p.modeAfterReset cause = .standby <;> cases p.ctl.powerGood <;> simp [standby, Config.powerGoodMs]
  · rw [Part.startTimers_port, if_pos there]
    rfl
  · rw [Part.endReset_channel, Part.startTimers_chan, if_pos there] at settles ⊢
    show (p.chan c).startSettle.settleTimer = _
    have settling : (p.chan c).settling = true := by
      rw [Channel.startSettle_eq] at settles
      exact settles
    rw [Channel.startSettle, if_pos settling]
    rfl
  · rw [Part.endReset_channel] at present ⊢
    generalize p.startTimers.chan c = x at present ⊢
    exact Channel.parkedBaseline_of_present parked present
  · obtain ⟨-, -, -, -, -, reports, watchdog⟩ := LinkIf.offer_keeps
      ({ p.link l with watchdog := (p.link l).watchdog.restart } : LinkIf) .mode
    rw [reports, watchdog]
    exact ⟨fun reported => LinkIf.offer_reported (q := .mode) reported, Watchdog.restart_state _⟩

theorem exec_lineResetRelease {s : State} (held : s.part.ctl.held = true) :
    exec .lineResetRelease s = .next { s with part := (s.part.endReset .line).drive } := by
  show s.take _ = _
  rw [State.take_next, if_pos held]

/-- Settles O21: the release of a line reset, a command reset and a power-on reset end alike, on a part with main power off. -/
theorem resetEstablishesTheMode : Obligations.ResetEstablishesTheMode := by
  intro i s cause old stop good kept h
  rcases h with ⟨rfl, held, rfl, rfl, rfl, rfl, rfl, off, idle⟩ | ⟨rfl, due, rfl, rfl, rfl, rfl, fault⟩ |
    ⟨⟨straps, rfl⟩, rfl, rfl, rfl⟩
  · refine ⟨_, exec_lineResetRelease held, ?_⟩
    rw [← Part.modeAfterReset_eq]
    exact Part.endReset_establishes ⟨off, idle⟩ .line
  · refine ⟨_, exec_commandReset due, ?_⟩
    have established := Part.endReset_establishes s.part.takeReset_cold .command
    rw [Part.modeAfterReset_eq] at established
    rw [Part.takeReset_ctl, ← fault] at established
    exact established
  · refine ⟨_, exec_powerOnReset straps stop good s, ?_⟩
    have established := Part.endReset_establishes (p := Part.powerOn straps stop good s.part.draws) ⟨rfl, rfl⟩ .powerOn
    rw [Part.modeAfterReset_eq] at established
    have sound : (Part.powerOn straps stop good s.part.draws).deviceFault.isSome = false := by
      rw [← Bool.not_eq_true, Part.deviceFault_isSome]
      rintro ⟨c, e⟩
      rw [Part.powerOn_chan] at e
      exact absurd e (by decide)
    rw [sound] at established
    exact established

/-! ### The reply to RESET (R166, R171) -/

theorem exec_replySent {s : State} {l : Link} (busy : (s.part.link l).answering.isSome = true)
    (stays : s.part.ctl.resetDue = false ∨ l = .b) :
    exec (.replySent l) s = .next { s with part := (s.part.modLink l LinkIf.replySent).drive } := by
  have not : (s.part.ctl.resetDue && l == .a) = false := by
    rcases stays with due | rfl
    · simp [due]
    · simp
  show s.take _ = _
  rw [State.take_next, if_pos busy]
  dsimp only
  rw [if_neg (by simp [not])]

theorem replySentEndsAnswering : Claims.ReplySentEndsAnswering := by
  intro l s busy
  refine ⟨fun stays => ⟨_, exec_replySent busy stays, ?_, ?_⟩, fun due first => ?_⟩
  · exact Kept.drive (q := s.part.modLink l LinkIf.replySent) (by simp [Kept, Block.Kept]) (by simp)
  · rw [Part.drive_link, Part.modLink_link_self]
    rfl
  · subst first
    refine ⟨_, exec_replySent_of_resetDue busy due, ?_⟩
    have after := (s.part.modLink .a LinkIf.replySent).takeReset_endReset_after .command
    dsimp only
    rw [Part.drive_link, Part.drive_link, Part.drive_ctl]
    refine ⟨(after.link .a).2.1, (after.link .b).2.1, ?_⟩
    rw [Part.endReset_ctl, Part.takeReset_cold _ |>.powered, Part.takeReset_ctl]
    exact ⟨rfl, rfl⟩

/-- R172: the reply to an accepted request that leaves its link as the frame's taking does. -/
theorem Part.answered_link {p q : Part} {l : Link} (kind : Byte) (data : List Byte) (link : q.link l = (p.frameTaken l).link l)
    (straps : q.ctl.straps = p.ctl.straps) :
    (q.answer l kind .ok 0xFF data).link l = p.replyLink (q.answer l kind .ok 0xFF data) l kind .ok 0xFF data := by
  rw [Part.answer_link_self, link]
  simp [Part.replyLink, straps]

theorem resetRequestSchedulesTheReset : Claims.ResetRequestSchedulesTheReset := by
  intro l tier s ready low
  refine ⟨fun zero => ⟨_, rfl, ?_⟩, fun above => ⟨_, rfl, ?_⟩⟩
  · have verdict : (s.part.frameTaken l).verdictOf l tier [] (lengthIs 0) judgeReset
        = .accepted [] ((s.part.frameTaken l).modCtl fun m => { m with resetDue := true }) := by
      rw [Part.verdictOf_fits _ rfl low]
      simp [judgeReset, zero]
    dsimp only
    rw [Part.request_accepts ready (Nat.zero_le _) verdict]
    refine ⟨Part.answered_link _ _ (Part.modCtl_link _ _ l) (by simp), by simp, ?_⟩
    simp [Kept, Block.Kept]
  · refine Part.request_refuses ready (Nat.zero_le _) ?_
    rw [Part.verdictOf_fits _ rfl low, Part.frameTaken_effectiveTier]
    have bad : (s.part.effectiveTier l tier != 0) = true := by simpa using above
    rw [judgeReset, bad]
    rfl

/-- Settles O22: the last byte of a reply, and the reply to RESET that schedules the command reset. -/
theorem replySentEndsAnsweringAndResetIsScheduled : Obligations.ReplySentEndsAnsweringAndResetIsScheduled :=
  ⟨replySentEndsAnswering, resetRequestSchedulesTheReset⟩

end Sys2Proof.Machine
end

section
set_option Elab.async false
/-! PROOFS. Unknown kinds, frame events and the bytes of frames (R28, R169, R170, R186). -/

namespace Sys2Proof.Machine

/-! ### Kinds -/

/-- R28: the kinds the part knows are those of its requests. -/
theorem knownKind_iff (kind : Byte) : knownKind kind = true ↔ kind ∈ requestKinds := by
  revert kind
  decide

theorem unknownKindIsRefused : Claims.UnknownKindIsRefused := by
  intro l kind tier body s ready short
  refine ⟨fun un => ⟨_, rfl, ?_⟩, fun known => ⟨_, rfl, ?_⟩⟩
  · dsimp only
    rw [if_neg fun e => un ((knownKind_iff kind).mp e)]
    exact Part.unknown_refuses ready kind short
  · dsimp only
    rw [if_pos ((knownKind_iff kind).mpr known)]

/-! ### Frame events -/

theorem frameEventsMoveTheAssemblerAlone : Claims.FrameEventsMoveTheAssemblerAlone := by
  intro l s free
  refine ⟨⟨_, rfl, Part.awake_of_free free _⟩, fun i mem => ?_⟩
  simp only [List.mem_cons, List.not_mem_nil, or_false] at mem
  rcases mem with rfl | rfl | rfl | rfl <;> exact ⟨_, rfl, Part.awake_of_free free _⟩

theorem longFrameIsDiscarded : Claims.LongFrameIsDiscarded := by
  intro i l body s free long frame
  rcases frame with ⟨tier, rfl⟩ | ⟨r, h, rfl, rfl⟩
  · exact ⟨_, rfl, Part.frame_long free long _⟩
  · cases known : knownKind r.kind with
    | true =>
      obtain ⟨fits, judge, handles⟩ := handled h known
      exact ⟨_, handles.taking s, Part.frame_long free long _⟩
    | false =>
      rw [request_unknown h known]
      refine ⟨_, rfl, ?_⟩
      dsimp only
      rw [if_neg (by simp [known])]
      exact Part.frame_long free long _

/-! ### The command of a frame (R169, R170, R186) -/

theorem kind_of_toNat {kind : Byte} {n : Nat} (h : kind.toNat = n) : kind = BitVec.ofNat 8 n := by
  rw [← h, BitVec.ofNat_toNat, BitVec.setWidth_eq]

/-- R28: any other frame is one of an unknown kind. -/
theorem requestCommand_unknown (l : Link) {kind : Byte} (tier : Byte) (body : List Byte) (un : kind ∉ requestKinds) :
    requestCommand l kind tier body = .unknownKind l kind tier body := by
  have other (n : Nat) (known : BitVec.ofNat 8 n ∈ requestKinds) : kind.toNat ≠ n := fun e => un (kind_of_toNat e ▸ known)
  unfold requestCommand
  split
  case h_33 => rfl
  all_goals exact absurd ‹kind.toNat = _› (other _ (by decide))

theorem byteOf_toNat {n : Nat} (h : n ≤ 240) : (byteOf n).toNat = n := by
  simp only [byteOf, BitVec.toNat_ofNat]
  omega

/-- R186: the bytes of a frame before its CRC. -/
abbrev frameFields (address kind tier : Byte) (body : List Byte) : List Byte :=
  [address, byteOf body.length, kind, tier] ++ body

/-- R169: a length byte above 240 breaks a frame. -/
theorem frameCommand_lengthError (rack : Fin 16) (l : Link) (address : Byte) {n : Byte} (rest : List Byte) (h : 240 < n.toNat) :
    frameCommand rack l (address :: n :: rest) = some (.frameLengthError l) := if_pos h

/-- R169: fields and two more bytes are a whole frame, which its CRC breaks or makes valid. -/
theorem frameCommand_whole (rack : Fin 16) (l : Link) (address kind tier a b : Byte) {body : List Byte} (short : body.length ≤ 240) :
    frameCommand rack l (frameFields address kind tier body ++ [a, b]) =
      if frameFields address kind tier body ++ [a, b] = withCrc (frameFields address kind tier body) then
        some (validFrame rack l address kind tier body) else some (.frameCrcError l) := by
  have length := byteOf_toNat short
  have long : ¬Config.maxBody < (byteOf body.length).toNat := by rw [length]; simpa [Config.maxBody] using short
  have body_eq : (body ++ [a, b]).take body.length = body := by simp
  have tail_eq : (body ++ [a, b]).take (body.length + 2) = body ++ [a, b] := List.take_of_length_le (by simp)
  have whole : ¬(kind :: tier :: (body ++ [a, b])).length < (byteOf body.length).toNat + 4 := by simp [length]
  simp only [frameFields, List.cons_append, List.nil_append, frameCommand]
  rw [if_neg long, if_neg whole, length, body_eq, tail_eq]
  simp only [eq_comm (a := withCrc _)]

/-- R169: a frame of which bytes are missing is nothing yet. -/
theorem frameCommand_part (rack : Fin 16) (l : Link) (address kind tier a b : Byte) {body : List Byte} (short : body.length ≤ 240)
    {n : Nat} (h : n < (frameFields address kind tier body ++ [a, b]).length) :
    frameCommand rack l ((frameFields address kind tier body ++ [a, b]).take n) = none := by
  have length := byteOf_toNat short
  have long : ¬Config.maxBody < (byteOf body.length).toNat := by rw [length]; simpa [Config.maxBody] using short
  match n with
  | 0 => rfl
  | 1 => rfl
  | n + 2 =>
    simp only [frameFields, List.cons_append, List.nil_append, List.take_succ_cons, frameCommand] at h ⊢
    rw [if_neg long, if_pos]
    simp only [List.length_take, List.length_cons, List.length_append, List.length_nil, length] at h ⊢
    omega

theorem frameBytesAreJudged : Claims.FrameBytesAreJudged := by
  intro rack l address kind tier body short fields
  have whole : frameCommand rack l (withCrc fields) = some (validFrame rack l address kind tier body) := by
    show frameCommand rack l (frameFields address kind tier body ++ [_, _]) = _
    rw [frameCommand_whole rack l address kind tier _ _ short]
    exact if_pos rfl
  refine ⟨fun n h => frameCommand_part rack l address kind tier _ _ short h,
    fun n rest h => frameCommand_lengthError rack l address rest h, fun a b broken => ?_, fun mine => ?_, fun other all halt => ?_,
    fun other not => ?_⟩
  · rw [frameCommand_whole rack l address kind tier a b short]
    exact if_neg broken
  · have valid : validFrame rack l address kind tier body = requestCommand l kind tier body := if_pos mine
    rw [whole, valid]
    by_cases known : kind ∈ requestKinds
    · exact ⟨_, rfl, requestCommand_wf l tier short kind known, fun _ => requestCommand_request l tier body kind known,
        fun un => absurd known un⟩
    · have unknown := requestCommand_unknown l tier body known
      refine ⟨_, rfl, ?_, fun is => absurd is known, fun _ => unknown⟩
      rw [unknown]
      simp [Instr.wf, bodyFits, short, known]
  · rw [whole, validFrame, if_neg other, if_pos ⟨all, halt⟩]
  · rw [whole, validFrame, if_neg other, if_neg (by tauto)]

/-! ### Bytes (R169) -/

/-- The state in which a link holds the bytes of a frame that it assembles. -/
def State.holding (s : State) (l : Link) (bytes : List Byte) : State :=
  { s with part := s.part.setLink l { s.part.link l with assembler := .assembling bytes } }

theorem State.holding_ctl (s : State) (l : Link) (bytes : List Byte) : (s.holding l bytes).part.ctl = s.part.ctl :=
  Part.setLink_ctl _ _ _

theorem State.holding_link (s : State) (l : Link) (bytes : List Byte) :
    (s.holding l bytes).part.link l = { s.part.link l with assembler := .assembling bytes } := Part.setLink_link_self _ _ _

theorem Part.setLink_setLink (p : Part) (l : Link) (x y : LinkIf) : (p.setLink l x).setLink l y = p.setLink l y := by
  cases l <;> rfl

theorem Part.setLink_same {p : Part} {l : Link} {x : LinkIf} (h : x = p.link l) : p.setLink l x = p := by
  subst h
  cases l <;> rfl

/-- A discarded frame leaves the link as it was before the frame. -/
theorem State.holding_discards {s : State} {l : Link} (hunting : (s.part.link l).assembler = .hunting) (bytes : List Byte) :
    (s.holding l bytes).part.setLink l { (s.holding l bytes).part.link l with assembler := .hunting } = s.part := by
  rw [State.holding_link, State.holding, Part.setLink_setLink]
  refine Part.setLink_same ?_
  rw [← hunting]

theorem State.receiveByte_sync {s : State} {l : Link} (free : s.part.ctl.held = false)
    (hunting : (s.part.link l).assembler = .hunting) : s.receiveByte l 0xA5 = .next (s.holding l []) := by
  obtain ⟨q, taken, rfl⟩ := (frameEventsMoveTheAssemblerAlone l s free).1
  exact (State.receiveByte_starts free hunting).trans taken

/-- A byte that leaves the frame incomplete is held. -/
theorem State.receiveByte_part {s : State} {l : Link} (free : s.part.ctl.held = false) {bytes : List Byte} {b : Byte}
    (h : frameCommand s.part.ctl.straps.rackId l (bytes ++ [b]) = none) :
    (s.holding l bytes).receiveByte l b = .next (s.holding l (bytes ++ [b])) := by
  rw [State.receiveByte_holds (by rwa [State.holding_ctl]) (by rw [State.holding_link]) (by rwa [State.holding_ctl]),
    Part.assembler, Part.modLink, State.holding_link, State.holding, Part.setLink_setLink]
  rfl

/-- The byte that completes a frame takes its command. -/
theorem State.receiveByte_whole {s : State} {l : Link} (free : s.part.ctl.held = false) {bytes : List Byte} {b : Byte} {i : Instr}
    (h : frameCommand s.part.ctl.straps.rackId l (bytes ++ [b]) = some i) :
    (s.holding l bytes).receiveByte l b = exec i (s.holding l bytes) :=
  State.receiveByte_takes (by rwa [State.holding_ctl]) (by rw [State.holding_link]) (by rwa [State.holding_ctl])

theorem State.receive_append {l : Link} (xs ys : List Byte) {s t : State} (h : s.receive l xs = .next t) :
    s.receive l (xs ++ ys) = t.receive l ys := by
  induction xs generalizing s with
  | nil => cases h; rfl
  | cons x xs ih =>
    rw [State.receive] at h
    cases e : s.receiveByte l x with
    | next u =>
      rw [e] at h
      rw [List.cons_append, State.receive_cons e]
      exact ih h
    | fault f => rw [e] at h; cases h
    | refused r => rw [e] at h; cases h

/-- Bytes of an incomplete frame are held one after the other. -/
theorem State.receive_part {s : State} {l : Link} (free : s.part.ctl.held = false) (ys : List Byte) {xs : List Byte}
    (h : ∀ n, n ≤ ys.length → 0 < n → frameCommand s.part.ctl.straps.rackId l (xs ++ ys.take n) = none) :
    (s.holding l xs).receive l ys = .next (s.holding l (xs ++ ys)) := by
  induction ys generalizing xs with
  | nil => rw [List.append_nil]; rfl
  | cons y ys ih =>
    rw [State.receive_cons (State.receiveByte_part free (h 1 (by simp) Nat.one_pos)), ih fun n le pos => ?_]
    · rw [List.append_assoc]
      rfl
    · have longer := h (n + 1) (by simpa using le) (Nat.succ_pos n)
      rw [List.append_assoc]
      exact longer

/-- A HUNTING link holds the bytes that come after A5h while they spell no frame. -/
theorem State.receive_started {s : State} {l : Link} (free : s.part.ctl.held = false)
    (hunting : (s.part.link l).assembler = .hunting) {ys : List Byte}
    (h : ∀ n, n ≤ ys.length → frameCommand s.part.ctl.straps.rackId l (ys.take n) = none) :
    s.receive l (0xA5 :: ys) = .next (s.holding l ys) := by
  rw [State.receive_cons (State.receiveByte_sync free hunting)]
  exact State.receive_part free ys fun n le _ => h n le

/-- What follows a whole frame comes after its command. -/
theorem State.receive_whole {s t : State} {l : Link} (free : s.part.ctl.held = false)
    (hunting : (s.part.link l).assembler = .hunting) {ys : List Byte} {b : Byte}
    (h : ∀ n, n ≤ ys.length → frameCommand s.part.ctl.straps.rackId l (ys.take n) = none) {i : Instr}
    (command : frameCommand s.part.ctl.straps.rackId l (ys ++ [b]) = some i) (taken : exec i (s.holding l ys) = .next t)
    (rest : List Byte) : s.receive l (0xA5 :: (ys ++ b :: rest)) = t.receive l rest := by
  have started := State.receive_started free hunting h
  have whole := (State.receiveByte_whole free command).trans taken
  rw [← List.cons_append, State.receive_append _ _ started, State.receive_cons whole]

/-- A frame that its bytes break leaves what follows to HUNTING. -/
theorem State.receive_broken {s : State} {l : Link} (free : s.part.ctl.held = false)
    (hunting : (s.part.link l).assembler = .hunting) {ys : List Byte} {b : Byte}
    (h : ∀ n, n ≤ ys.length → frameCommand s.part.ctl.straps.rackId l (ys.take n) = none) {i : Instr}
    (command : frameCommand s.part.ctl.straps.rackId l (ys ++ [b]) = some i) (broken : i = .frameLengthError l ∨ i = .frameCrcError l)
    (rest : List Byte) : s.receive l (0xA5 :: (ys ++ b :: rest)) = s.receive l rest := by
  refine State.receive_whole free hunting h command ?_ rest
  obtain ⟨q, taken, rfl⟩ := (frameEventsMoveTheAssemblerAlone l (s.holding l ys) (by rw [State.holding_ctl]; exact free)).2 i
    (by rcases broken with rfl | rfl <;> simp)
  rw [taken, State.holding_discards hunting]
  rfl

/-! ### A whole frame leaves its link HUNTING -/

theorem Part.request_hunts {p : Part} {l : Link} (free : p.ctl.held = false) (kind tier : Byte) {body : List Byte}
    (short : body.length ≤ 240) {fits : List Byte → Bool} {judge : Judge} (upright : judge.Upright fits) :
    ((p.request l kind tier body fits judge).link l).assembler = .hunting := by
  cases busy : (p.link l).answering with
  | some r => rw [Part.request_answering free (by simp [busy]) _ _ short, (p.overrunFrame_leaves l).2]
  | none =>
    have judged := Part.verdictOf_leaves (tier := tier) fun fit => upright l _ body (p.frameTaken l) fit
    have taken : ((p.frameTaken l).link l).assembler = .hunting := by rw [Part.frameTaken_link_self]
    rw [Part.request_ready ⟨free, busy⟩ _ _ short]
    split
    · rw [Part.answer_link_self]
      exact taken
    · next data q e =>
      rw [e] at judged
      rw [Part.answer_link_self]
      exact (judged.link l).hunting taken

theorem Part.broadcast_hunts {p : Part} {l : Link} (free : p.ctl.held = false) (tier : Byte) {body : List Byte}
    (short : body.length ≤ 240) {fits : List Byte → Bool} {judge : Judge} (upright : judge.Upright fits) :
    ((p.broadcast l tier body fits judge).link l).assembler = .hunting := by
  cases busy : (p.link l).answering with
  | some r => rw [Part.broadcast_answering free (by simp [busy]) _ short, (p.overrunFrame_leaves l).2]
  | none =>
    have judged := Part.verdictOf_leaves (tier := tier) fun fit => upright l _ body (p.frameTaken l) fit
    have taken : ((p.frameTaken l).link l).assembler = .hunting := by rw [Part.frameTaken_link_self]
    rw [Part.broadcast_ready ⟨free, busy⟩ _ short]
    split
    · exact taken
    · next data q e =>
      rw [e] at judged
      exact (judged.link l).hunting taken

theorem Part.unknown_hunts {p : Part} {l : Link} (free : p.ctl.held = false) (kind : Byte) {body : List Byte}
    (short : body.length ≤ 240) : ((p.unknown l kind body).link l).assembler = .hunting := by
  cases busy : (p.link l).answering with
  | some r => rw [Part.unknown_answering free (by simp [busy]) _ short, (p.overrunFrame_leaves l).2]
  | none => rw [(Part.unknown_refuses ⟨free, busy⟩ kind short).1.1, Part.replyLink]

theorem exec_request_hunts {i : Instr} {r : Request} {s : State} (h : i.request = some r) (free : s.part.ctl.held = false)
    (short : r.body.length ≤ 240) : Gives i s fun q => (q.link r.link).assembler = .hunting := by
  cases known : knownKind r.kind with
  | true =>
    obtain ⟨fits, judge, handles⟩ := handled h known
    exact ⟨_, handles.taking s, Part.request_hunts free _ _ short handles.upright⟩
  | false =>
    rw [request_unknown h known]
    refine ⟨_, rfl, ?_⟩
    dsimp only
    rw [if_neg (by simp [known])]
    exact Part.unknown_hunts free _ short

theorem validFrame_hunts (rack : Fin 16) (l : Link) (address kind tier : Byte) {body : List Byte} (short : body.length ≤ 240)
    {s : State} (free : s.part.ctl.held = false) :
    Gives (validFrame rack l address kind tier body) s fun q => (q.link l).assembler = .hunting := by
  unfold validFrame
  split
  · by_cases known : kind ∈ requestKinds
    · exact exec_request_hunts (requestCommand_request l tier body kind known) free short
    · rw [requestCommand_unknown l tier body known]
      refine exec_request_hunts (r := ⟨l, kind, tier, body⟩) ?_ free short
      exact if_neg fun e => known ((knownKind_iff kind).mp e)
  · split
    · exact ⟨_, rfl, Part.broadcast_hunts free tier short (judgeHalt_upright _).driven⟩
    · obtain ⟨q, taken, rfl⟩ := (frameEventsMoveTheAssemblerAlone l s free).2 (.frameIgnored l) (by simp)
      exact ⟨_, taken, congrArg LinkIf.assembler (Part.setLink_link_self _ _ _)⟩

theorem bytesAfterADiscardAreHunted : Claims.BytesAfterADiscardAreHunted := by
  intro l rest s
  refine ⟨fun held => ?_, fun free hunting => ⟨fun skipped other => ?_, fun address n long => ?_, ?_⟩⟩
  · induction rest with
    | nil => rfl
    | cons b rest ih => rw [State.receive_cons (State.receiveByte_held held l b), ih]
  · induction skipped with
    | nil => rfl
    | cons b skipped ih =>
      obtain ⟨first, others⟩ := not_or.mp (List.mem_cons.not.mp other)
      rw [List.cons_append, State.receive_cons (State.receiveByte_discards hunting (Ne.symm first)), ih others]
  · refine State.receive_broken (ys := [address]) free hunting (fun k le => ?_)
      (frameCommand_lengthError _ l address [] long) (.inl rfl) rest
    rcases Nat.le_one_iff_eq_zero_or_eq_one.mp le with rfl | rfl <;> rfl
  · intro address kind tier body short fields
    have split (a b : Byte) : fields ++ [a, b] = (fields ++ [a]) ++ [b] := by simp
    have part (a b : Byte) (n : Nat) (le : n ≤ (fields ++ [a]).length) :
        frameCommand s.part.ctl.straps.rackId l ((fields ++ [a]).take n) = none := by
      have missing := frameCommand_part s.part.ctl.straps.rackId l address kind tier a b short (n := n)
        (by
          show n < (fields ++ [a, b]).length
          rw [split, List.length_append]
          exact Nat.lt_succ_of_le le)
      rwa [show frameFields address kind tier body ++ [a, b] = _ from split a b, List.take_append_of_le_length le] at missing
    refine ⟨fun a b wrong => ?_, fun n less => ?_, ?_⟩
    · have broken := (frameCommand_whole s.part.ctl.straps.rackId l address kind tier a b short).trans (if_neg wrong)
      rw [show frameFields address kind tier body ++ [a, b] = _ from split a b] at broken
      have skipped := State.receive_broken free hunting (part a b) broken (.inr rfl) rest
      simpa using skipped
    · refine State.receive_started free hunting fun m le => ?_
      rw [List.take_take]
      exact frameCommand_part _ l address kind tier _ _ short (Nat.lt_of_le_of_lt (Nat.min_le_right m n) less)
    · let hi := (crc fields).extractLsb' 8 8
      let lo := (crc fields).extractLsb' 0 8
      have whole := (frameCommand_whole s.part.ctl.straps.rackId l address kind tier hi lo short).trans (if_pos rfl)
      have last : (withCrc fields).dropLast = fields ++ [hi] := by
        rw [show withCrc fields = _ from split hi lo, List.dropLast_concat]
      obtain ⟨q, taken, hunts⟩ := validFrame_hunts s.part.ctl.straps.rackId l address kind tier short
        (s := s.holding l (fields ++ [hi])) (by rw [State.holding_ctl]; exact free)
      refine ⟨_, _, whole, by rw [last]; exact taken, hunts, ?_⟩
      rw [show frameFields address kind tier body ++ [hi, lo] = _ from split hi lo] at whole
      have received := State.receive_whole free hunting (part hi lo) whole taken rest
      rw [← received, show withCrc fields = _ from split hi lo]
      simp

/-- Settles O4: unknown kinds, the events of the assembler, long frames, the judgement of a frame's bytes, and their reception. -/
theorem framesAndUnknownKindsHaveNoOtherEffect : Obligations.FramesAndUnknownKindsHaveNoOtherEffect :=
  ⟨unknownKindIsRefused, frameEventsMoveTheAssemblerAlone, longFrameIsDiscarded, frameBytesAreJudged,
    bytesAfterADiscardAreHunted⟩

end Sys2Proof.Machine
end

section
set_option Elab.async false
/-! PROOFS. HEARTBEAT, SET_WATCHDOG, SET_NOTICES and the raising of events (R110, R151, R159, R161, R174 to R177). -/

namespace Sys2Proof.Machine

/-! ### Requests by the verdict of their judge (R26, R170 to R172) -/

section Judged
variable {p q : Part} {l : Link} {kind tier : Byte} {body data : List Byte} {fits : List Byte → Bool} {judge : Judge}
  {code : Result} {index : Byte}

/-- A request that its own judge refuses. -/
theorem Part.judged_refuses (ready : p.Ready l) (short : body.length ≤ 240) (fit : fits body = true) (low : tier.toNat ≤ 7)
    (judged : judge l (p.effectiveTier l tier) body (p.frameTaken l) = .refused code index) :
    p.Refuses (p.request l kind tier body fits judge) l kind code index := by
  refine Part.request_refuses ready short ?_
  rw [Part.verdictOf_fits judge fit low, Part.frameTaken_effectiveTier]
  exact judged

/-- A request that its own judge accepts. -/
theorem Part.judged_accepts (ready : p.Ready l) (short : body.length ≤ 240) (fit : fits body = true) (low : tier.toNat ≤ 7)
    (judged : judge l (p.effectiveTier l tier) body (p.frameTaken l) = .accepted data q) :
    p.request l kind tier body fits judge = q.answer l kind .ok 0xFF data := by
  refine Part.request_accepts ready short ?_
  rw [Part.verdictOf_fits judge fit low, Part.frameTaken_effectiveTier]
  exact judged

theorem Part.judged_driven_refuses (ready : p.Ready l) (short : body.length ≤ 240) (fit : fits body = true) (low : tier.toNat ≤ 7)
    (judged : judge l (p.effectiveTier l tier) body (p.frameTaken l) = .refused code index) :
    p.Refuses (p.request l kind tier body fits judge.driven) l kind code index :=
  Part.judged_refuses ready short fit low (Judge.driven_refused judged)

theorem Part.judged_driven_accepts (ready : p.Ready l) (short : body.length ≤ 240) (fit : fits body = true) (low : tier.toNat ≤ 7)
    (judged : judge l (p.effectiveTier l tier) body (p.frameTaken l) = .accepted data q) :
    p.request l kind tier body fits judge.driven = q.drive.answer l kind .ok 0xFF data :=
  Part.judged_accepts ready short fit low (Judge.driven_accepted judged)

end Judged

/-- R172: the reply of an accepted request whose judge leaves link and straps, the pending set and the like apart. -/
theorem Part.answer_link_eq {p q : Part} {l : Link} (kind : Byte) (data : List Byte) {f : LinkIf → LinkIf}
    (link : q.link l = f ((p.frameTaken l).link l)) (straps : q.ctl.straps = p.ctl.straps)
    (same : ∀ x answering since, f { x with answering := answering, overrunSince := since } =
      { f x with answering := answering, overrunSince := since }) :
    (q.answer l kind .ok 0xFF data).link l = f (p.replyLink (q.answer l kind .ok 0xFF data) l kind .ok 0xFF data) := by
  rw [Part.answer_link_self, link, ← same, straps, Part.replyLink, Part.answer_status, Part.frameTaken_link_self]

/-! ### The first of a list in an order -/

/-- A search finds the least element that passes the test, when the list is in order. -/
theorem find?_of_least {α : Type} {r : α → α → Prop} {f : α → Bool} {l : List α} (sorted : l.Pairwise r) {x : α} (mem : x ∈ l)
    (passes : f x = true) (least : ∀ y, r y x → f y = false) : l.find? f = some x := by
  induction l with
  | nil => cases mem
  | cons y l ih =>
    obtain ⟨first, sorted⟩ := List.pairwise_cons.mp sorted
    rcases List.mem_cons.mp mem with rfl | later
    · exact List.find?_cons_of_pos passes
    · rw [List.find?_cons_of_neg (by simp [least y (first x later)]), ih sorted later]

/-! ### HEARTBEAT (R176) -/

theorem NoticePair.all_ordered : NoticePair.all.Pairwise fun q r => q.rank < r.rank := by decide

/-- R176: the pair that a HEARTBEAT delivers. -/
theorem LinkIf.chosen_of_first {x : LinkIf} {pair : NoticePair} (mem : pair ∈ x.pending)
    (first : ∀ r ∈ x.pending, pair.rank ≤ r.rank) : x.chosen = some pair := by
  refine find?_of_least NoticePair.all_ordered pair.mem_all (by simpa using mem) fun r before => ?_
  rw [← Bool.not_eq_true]
  intro pending
  have := first r (by simpa using pending)
  omega

theorem LinkIf.chosen_of_empty {x : LinkIf} (h : x.pending = []) : x.chosen = none := by simp [LinkIf.chosen, h]

@[simp] theorem Part.frameTaken_lastEvent (p : Part) (l m : Link) (q : NoticePair) :
    (p.frameTaken l).lastEvent m q = p.lastEvent m q := by
  cases q <;> cases l <;> cases m <;> rfl

@[simp] theorem Part.frameTaken_summary (p : Part) (l : Link) (q : NoticePair) : (p.frameTaken l).summary l q = p.summary l q := by
  cases q <;> cases l <;> rfl

/-- Settles O25: the pending pairs are searched in the order of their ranks. -/
theorem heartbeatDeliversTheFirstPair : Obligations.HeartbeatDeliversTheFirstPair := by
  intro l tier s ready low
  have pending : ((s.part.frameTaken l).link l).pending = (s.part.link l).pending := by rw [Part.frameTaken_link_self]
  refine ⟨fun none => ⟨_, rfl, ?_⟩, fun pair mem first => ⟨_, rfl, ?_⟩⟩
  · have judged : judgeHeartbeat l (s.part.effectiveTier l tier) [] (s.part.frameTaken l)
        = .accepted [modeCode s.part.ctl.mode, 0] (s.part.frameTaken l) := by
      rw [judgeHeartbeat, LinkIf.chosen_of_empty (pending.trans none), Part.frameTaken_ctl]
    dsimp only
    rw [Part.judged_accepts ready (Nat.zero_le _) rfl low judged]
    exact s.part.answered_answers l _ _
  · have judged : judgeHeartbeat l (s.part.effectiveTier l tier) [] (s.part.frameTaken l)
        = .accepted ([modeCode s.part.ctl.mode, byteOf ((s.part.link l).pending.filter fun r => r != pair).length,
            sourceCode pair, pairIndex pair] ++ eventBytes (s.part.lastEvent l pair) ++ s.part.summary l pair)
          ((s.part.frameTaken l).modLink l (LinkIf.setPending ((s.part.link l).pending.filter fun r => r != pair))) := by
      rw [judgeHeartbeat, LinkIf.chosen_of_first (pending ▸ mem) (pending ▸ first)]
      simp [Part.notice]
    dsimp only
    rw [Part.judged_accepts ready (Nat.zero_le _) rfl low judged]
    refine ⟨Part.answer_link_eq _ _ (Part.modLink_link_self _ _ _) (by simp) fun _ _ _ => rfl, ?_⟩
    simp [Kept, Block.Kept]

/-! ### SET_WATCHDOG (R161) -/

theorem wr16_rd16 (h lo : Byte) : wr16 (rd16 h lo) = [h, lo] := by
  have high := h.isLt
  have low := lo.isLt
  simp only [wr16, rd16, byteOf, List.cons.injEq, and_true]
  constructor <;> apply BitVec.eq_of_toNat_eq <;> simp only [BitVec.toNat_ofNat] <;> omega

theorem Watchdog.atPeriod_eq (n : Nat) : Watchdog.atPeriod n =
    if n = 0 then { period := 0, state := .off, timer := none } else { period := n, state := .running, timer := some n } := by
  unfold Watchdog.atPeriod Watchdog.restart
  split
  · next zero => rw [show n = 0 from zero]
  · rfl

theorem setWatchdogSetsThePeriod : Claims.SetWatchdogSetsThePeriod := by
  intro l tier h lo s ready low n
  have n_eq : rd16 h lo = n := rfl
  have bytes : wr16 n = [h, lo] := wr16_rd16 h lo
  refine ⟨fun nonzero bad => ⟨_, rfl, ?_⟩, fun zero armed => ⟨_, rfl, ?_⟩, fun good => ⟨_, rfl, ?_⟩⟩
  · refine Part.judged_refuses ready (by simp) rfl low ?_
    have : periodBad n = true := by
      unfold periodBad
      simpa [nonzero] using bad
    simp [judgeSetWatchdog, n_eq, this, noIndex]
  · refine Part.judged_refuses ready (by simp) rfl low ?_
    simp [judgeSetWatchdog, n_eq, zero, periodBad, armed, noIndex]
  · have inRange : periodBad n = false := by
      unfold periodBad
      rcases good with ⟨zero, -⟩ | ⟨low, high⟩
      · simp [zero]
      · simp; omega
    have allowed : (s.part.ctl.mode == .armed && n == 0) = false := by
      rcases good with ⟨-, mode⟩ | ⟨low, -⟩
      · simp [mode]
      · have : n ≠ 0 := by omega
        simp [this]
    have judged : judgeSetWatchdog l (s.part.effectiveTier l tier) [h, lo] (s.part.frameTaken l)
        = .accepted [h, lo] ((s.part.frameTaken l).modLink l fun x => { x with watchdog := Watchdog.atPeriod n }) := by
      simp [judgeSetWatchdog, n_eq, inRange, allowed, bytes]
    dsimp only
    rw [Part.judged_accepts ready (by simp) rfl low judged]
    refine ⟨?_, ?_⟩
    · rw [Part.answer_link_eq _ _ (Part.modLink_link_self _ _ _) (by simp) fun _ _ _ => rfl]
      rw [Watchdog.atPeriod_eq]
    · simp [Kept, Block.Kept]

/-! ### SET_NOTICES (R177) -/

theorem enablesMask_enablesOf (b : Byte) : enablesMask (enablesOf b) = b &&& 0x3F := by
  revert b
  decide

theorem setNoticesReplacesTheEnables : Claims.SetNoticesReplacesTheEnables := by
  intro l tier r w s ready low
  refine ⟨fun mode => ⟨_, rfl, ?_⟩, fun mode other high => ⟨_, rfl, ?_⟩, fun mode may => ⟨_, rfl, ?_⟩⟩
  · refine Part.judged_refuses ready (by simp) rfl low ?_
    have : (enablesOf w).mode = true := mode
    simp [judgeSetNotices, this, noIndex]
  · refine Part.judged_refuses ready (by simp) rfl low ?_
    have : (enablesOf w).mode = false := mode
    have changed : (enablesOf w != s.part.ctl.wakes) = true := by simpa using other
    simp [judgeSetNotices, this, changed, high, noIndex]
  · have mode' : (enablesOf w).mode = false := mode
    have allowed : (enablesOf w != s.part.ctl.wakes && decide (1 < s.part.effectiveTier l tier)) = false := by
      rcases may with same | tier
      · simp [same]
      · simp; omega
    have judged : judgeSetNotices l (s.part.effectiveTier l tier) [r, w] (s.part.frameTaken l)
        = .accepted [r &&& 0x3F, w &&& 0x3F] (((s.part.frameTaken l).modLink l (LinkIf.setReports (enablesOf r))).modCtl
            fun m => { m with wakes := enablesOf w }) := by
      simp [judgeSetNotices, mode', allowed, enablesMask_enablesOf]
    dsimp only
    rw [Part.judged_accepts ready (by simp) rfl low judged]
    refine ⟨?_, by simp, ?_⟩
    · rw [Part.answer_link_eq (f := LinkIf.setReports (enablesOf r)) _ _
        ((Part.modCtl_link _ _ _).trans (Part.modLink_link_self _ _ _)) (by simp) fun _ _ _ => rfl]
      rfl
    · simp [Kept, Block.Kept]

/-- Settles O26: each is judged on its own fields and changes its own link, SET_NOTICES the wake enables too. -/
theorem setWatchdogAndSetNotices : Obligations.SetWatchdogAndSetNotices :=
  ⟨setWatchdogSetsThePeriod, setNoticesReplacesTheEnables⟩

/-! ### Events (R159, R174, R175) -/

theorem Part.lastEvent_post {p : Part} {pair : NoticePair} (e : Event) (m : Link) (h : pair ≠ .link) :
    (p.post pair e).lastEvent m pair = some e := by
  cases pair with
  | link => exact absurd rfl h
  | mode => rfl
  | channelFault c => simp [Part.lastEvent, EventCodes.write]
  | group g => simp [Part.lastEvent, EventCodes.write]
  | track t => simp [Part.lastEvent, EventCodes.write]
  | loadWatch c => simp [Part.lastEvent, EventCodes.write]

theorem Part.lastEvent_changeMode {p : Part} {pair : NoticePair} (new : DeviceMode) (cause : ModeCause) (m : Link)
    (h : pair ≠ .mode) : (p.changeMode new cause).lastEvent m pair = p.lastEvent m pair := by
  rw [Part.changeMode_eq]
  cases pair with
  | mode => exact absurd rfl h
  | link =>
    cases m
    · exact (LinkIf.offer_keeps _ _).2.2.2.2.1
    · exact (LinkIf.offer_keeps _ _).2.2.2.2.1
  | _ => rfl

theorem ModeCtl.setPower_mainPower (on : Bool) (m : ModeCtl) : (m.setPower on).mainPower = on := by
  unfold ModeCtl.setPower
  cases on with
  | false => rfl
  | true =>
    rw [if_pos rfl]
    split
    · assumption
    · rfl

/-- R159: an event wakes a PARKED device. -/
def Part.Wakes (p : Part) (pair : NoticePair) (e : Event) : Prop :=
  p.ctl.mode = .parked ∧ p.ctl.wakes.has pair = true ∧ pair ≠ .mode
    ∧ ¬∃ c k, pair = .channelFault c ∧ e = .fault k ∧ (k = .runaway ∨ k = .finalLimit)

theorem wakeExempt_iff (pair : NoticePair) (e : Event) : wakeExempt pair e = true ↔
    pair = .mode ∨ ∃ c k, pair = .channelFault c ∧ e = .fault k ∧ (k = .runaway ∨ k = .finalLimit) := by
  cases pair with
  | mode => simp [wakeExempt]
  | channelFault c => cases e <;> simp [wakeExempt, FaultKind.isDevice]
  | _ => simp [wakeExempt]

theorem Part.raise_wakes {p : Part} {pair : NoticePair} {e : Event} (h : p.Wakes pair e) :
    p.raise pair e = (p.post pair e).changeMode .standby (.wake pair) := by
  obtain ⟨parked, enabled, notMode, notDevice⟩ := h
  have heard : wakeExempt pair e = false := by
    rw [← Bool.not_eq_true, wakeExempt_iff]
    exact not_or.mpr ⟨notMode, notDevice⟩
  exact if_pos (by simp [parked, enabled, heard])

theorem Part.raise_sleeps {p : Part} {pair : NoticePair} {e : Event} (h : ¬p.Wakes pair e) : p.raise pair e = p.post pair e := by
  refine if_neg fun wakes => h ?_
  simp only [Part.post_ctl, Bool.and_eq_true, Bool.not_eq_eq_eq_not, Bool.not_true] at wakes
  obtain ⟨⟨parked, enabled⟩, heard⟩ := wakes
  rw [← Bool.not_eq_true, wakeExempt_iff] at heard
  exact ⟨of_decide_eq_true parked, enabled, fun e => heard (.inl e), fun e => heard (.inr e)⟩

/-- R175: the pairs of a link that a pair has been offered to. -/
theorem LinkIf.mem_offer (x : LinkIf) (q r : NoticePair) :
    r ∈ (x.offer q).pending ↔ r ∈ x.pending ∨ r = q ∧ x.reports.has q = true := by
  unfold LinkIf.offer
  split
  · next enabled => rw [LinkIf.setPending_pending, mem_addPair]; tauto
  · next off => tauto

theorem LinkIf.offer_off {x : LinkIf} {q : NoticePair} (h : x.reports.has q = false) : x.offer q = x := by
  simp [LinkIf.offer, h]

/-- R175: a pair that is pending already leaves the set as it is. -/
theorem LinkIf.offer_pending {x : LinkIf} {q : NoticePair} (h : q ∈ x.pending) : (x.offer q).pending = x.pending := by
  unfold LinkIf.offer
  split
  · exact addPair_of_mem h
  · rfl

theorem LinkIf.offer_reports (x : LinkIf) (q : NoticePair) : (x.offer q).reports = x.reports := (x.offer_keeps q).2.2.2.2.2.1

theorem Part.raise_mode_iff (p : Part) (pair : NoticePair) (e : Event) :
    (p.raise pair e).ctl.mode ≠ p.ctl.mode ↔ p.Wakes pair e := by
  by_cases wakes : p.Wakes pair e
  · have mode : (p.raise pair e).ctl.mode = .standby := by
      rw [Part.raise_wakes wakes, Part.changeMode_ctl, ModeCtl.setPower_mode]
    rw [mode, wakes.1]
    exact ⟨fun _ => wakes, fun _ => by decide⟩
  · rw [Part.raise_sleeps wakes, Part.post_ctl]
    exact ⟨fun h => absurd rfl h, fun h => absurd h wakes⟩

/-- Settles O27: an event that does not wake is posted; one that wakes is posted and changes the mode. -/
theorem raisedEventReachesBothLinks : Obligations.RaisedEventReachesBothLinks := by
  intro p pair e l m own
  refine ⟨?_, p.raise_mode_iff pair e, fun woken => ?_, fun still => ?_⟩
  · by_cases wakes : p.Wakes pair e
    · rw [Part.raise_wakes wakes, Part.lastEvent_changeMode _ _ _ wakes.2.2.1, Part.lastEvent_post _ _ own]
    · rw [Part.raise_sleeps wakes, Part.lastEvent_post _ _ own]
  · have wakes := (p.raise_mode_iff pair e).mp woken
    have parked := wakes.1
    rw [Part.raise_wakes wakes]
    have reports : ((p.link l).offer pair).reports.mode = (p.link l).reports.mode := by rw [LinkIf.offer_reports]
    refine ⟨?_, ?_, ?_, fun c => ?_, fun off offMode => ?_, fun on => ?_, fun mem memMode => ?_, fun r => ?_⟩
    · rw [Part.changeMode_ctl, ModeCtl.setPower_mode]
    · rw [Part.changeMode_ctl, ModeCtl.setPower_mainPower]
      rfl
    · rw [Part.changeMode_eq, Part.post_ctl, parked]
      rfl
    · rw [Part.changeMode_eq]
      show ((p.post pair e).changeBaselines (p.post pair e).ctl.mode .standby |>.chan c).watchBaseline = none
      unfold Part.changeBaselines
      rw [if_neg (by decide), Part.post_ctl, if_pos parked, Part.dropBaselines_chan]
    · rw [Part.changeMode_link, Part.post_link, LinkIf.offer_off off, LinkIf.offer_off (q := .mode) offMode]
    · rw [Part.changeMode_link, Part.post_link]
      by_cases onMode : (p.link l).reports.mode = true
      · exact (LinkIf.offer_reported (q := .mode) (reports.trans onMode)).2
      · have onPair := on.resolve_right onMode
        rw [LinkIf.offer_off (q := .mode) (reports.trans (by simpa using onMode))]
        exact (LinkIf.offer_reported onPair).2
    · rw [Part.changeMode_link, Part.post_link, LinkIf.offer_pending (by rw [LinkIf.offer_pending mem]; exact memMode),
        LinkIf.offer_pending mem]
    · rw [Part.changeMode_link, Part.post_link, LinkIf.mem_offer, LinkIf.mem_offer, or_assoc]
      have has : ((p.link l).offer pair).reports.has .mode = (p.link l).reports.mode := reports
      rw [has]
  · have sleeps : ¬p.Wakes pair e := fun wakes => (p.raise_mode_iff pair e).mpr wakes still
    rw [Part.raise_sleeps sleeps, Part.post_link]
    exact ⟨LinkIf.offer_off, fun on => ⟨(LinkIf.offer_reported on).2, LinkIf.offer_pending⟩, LinkIf.mem_offer _ _⟩

end Sys2Proof.Machine
end

section
set_option Elab.async false
/-! PROOFS. SET_MODE and RESUME (R110, R151 to R154, R158). -/

namespace Sys2Proof.Machine

/-! ### The lowest channel -/

theorem allChans_ordered : allChans.Pairwise (· < ·) := by decide

/-- The lowest channel that meets a condition. -/
theorem find?_allChans {f : Chan → Bool} {c : Chan} (meets : f c = true) (lowest : ∀ d, d < c → f d = false) :
    allChans.find? f = some c := find?_of_least allChans_ordered (mem_allChans c) meets lowest

theorem Channel.deviceFault_iff (x : Channel) :
    x.deviceFault = true ↔ x.holdsFault .runaway = true ∨ x.holdsFault .finalLimit = true := by
  simp [Channel.deviceFault]

theorem Part.deviceFault_of_lowest {p : Part} {c : Chan}
    (fault : (p.chan c).holdsFault .runaway = true ∨ (p.chan c).holdsFault .finalLimit = true)
    (lowest : ∀ d, d < c → (p.chan d).holdsFault .runaway = false ∧ (p.chan d).holdsFault .finalLimit = false) :
    p.deviceFault = some c :=
  find?_allChans ((Channel.deviceFault_iff _).mpr fault) fun d less => by
    obtain ⟨runaway, limit⟩ := lowest d less
    simp [Channel.deviceFault, runaway, limit]

/-- R92: no DEVICE fault is recorded exactly when none is found. -/
theorem Part.deviceFault_of_sound {p : Part} (sound : p.Sound) : p.deviceFault = none := by
  simp [Part.deviceFault, Channel.deviceFault, sound]

@[simp] theorem Part.frameTaken_deviceFault (p : Part) (l : Link) : (p.frameTaken l).deviceFault = p.deviceFault := by
  simp [Part.deviceFault]

@[simp] theorem Part.frameTaken_firstMover (p : Part) (l : Link) : (p.frameTaken l).firstMover = p.firstMover := by
  simp [Part.firstMover]

/-! ### A change of mode by a request -/

/-- A reply touches its own link alone. -/
theorem Kept.answer {p q : Part} {bs : List Block} (h : Kept p q bs) (l : Link) (kind : Byte) (code : Result) (index : Byte)
    (data : List Byte) (own : .link l ∉ bs := by simp) : Kept p (q.answer l kind code index data) bs := by
  intro b mem
  have kept := h b mem
  cases b with
  | link m =>
    have other : m = l.other := by
      cases l <;> cases m
      · exact absurd mem own
      · rfl
      · rfl
      · exact absurd mem own
    subst other
    exact (Part.answer_link_other ..).trans kept
  | ports => exact ⟨(Part.answer_ports ..).trans kept.1, (Part.answer_draws ..).trans kept.2⟩
  | samples => exact fun c => by rw [Part.answer_port]; exact kept c
  | channels => exact (Part.answer_channels ..).trans kept
  | groups => exact (Part.answer_groups ..).trans kept
  | queues => exact (Part.answer_queues ..).trans kept
  | clock => exact (Part.answer_clock ..).trans kept
  | tracks => exact (Part.answer_tracks ..).trans kept
  | codes => exact (Part.answer_codes ..).trans kept
  | ctl => exact (Part.answer_ctl ..).trans kept
  | taken => exact (Part.answer_ctl ..).trans kept

theorem Part.frameTaken_kept (p : Part) (l : Link) :
    Kept p (p.frameTaken l) [.channels, .ports, .samples, .groups, .queues, .clock, .tracks, .codes, .taken, .link l.other] := by
  simp [Kept, Block.Kept]

theorem Part.changeMode_kept (p : Part) (new : DeviceMode) (cause : ModeCause) :
    Kept p (p.changeMode new cause) [.ports, .samples, .groups, .queues, .clock, .tracks] := by
  rw [Part.changeMode_eq]
  refine .cons ⟨rfl, rfl⟩ (.cons (fun _ => rfl) ?_)
  simp [Kept, Block.Kept]

theorem LinkIf.offer_answered (q : NoticePair) (x : LinkIf) (answering : Option Reply) (since : Bool) :
    LinkIf.offer q { x with answering := answering, overrunSince := since }
      = { x.offer q with answering := answering, overrunSince := since } := by
  unfold LinkIf.offer
  dsimp only
  split <;> rfl

/-- What a request whose judge changes the mode leaves, beside the Mode Controller and the baselines. -/
theorem Part.modeChange_answered (p : Part) (l : Link) (kind : Byte) (new : DeviceMode) (cause : ModeCause) (data : List Byte) :
    let q := ((p.frameTaken l).changeMode new cause).drive.answer l kind .ok 0xFF data
    q.codes = { p.codes with mode := some (.modeChange new p.ctl.mode cause) }
      ∧ q.link l = (p.replyLink q l kind .ok 0xFF data).offer .mode
      ∧ q.link l.other = (p.link l.other).offer .mode
      ∧ Kept p q [.samples, .groups, .queues, .clock, .tracks] := by
  refine ⟨?_, ?_, ?_, ?_⟩
  · rw [Part.answer_codes, Part.drive_codes, Part.changeMode_eq, Part.frameTaken_ctl, Part.frameTaken_codes]
    rfl
  · refine Part.answer_link_eq _ _ ?_ ?_ (LinkIf.offer_answered .mode)
    · rw [Part.drive_link, Part.changeMode_link]
    · rw [Part.drive_ctl, Part.changeMode_ctl, (ModeCtl.setPower_keeps _ _).1, Part.frameTaken_ctl]
  · rw [Part.answer_link_other, Part.drive_link, Part.changeMode_link, Part.frameTaken_link_other]
  · exact (((p.frameTaken_kept l).mono (by simp)).trans ((Part.changeMode_kept _ new cause).mono)).drive.answer l kind .ok 0xFF data

/-! ### SET_MODE -/

theorem Part.frameTaken_mayTakeMode (p : Part) (l : Link) (target : DeviceMode) :
    (p.frameTaken l).MayTakeMode target = p.MayTakeMode target := by
  unfold Part.MayTakeMode Part.Sound
  simp only [Part.frameTaken_ctl, Part.frameTaken_chan]

/-- R153: an allowed change of mode passes the judge. -/
theorem judgeSetMode_accepts {p : Part} {target : DeviceMode} (may : p.MayTakeMode target) (l : Link) (tier : Nat) :
    judgeSetMode l tier [modeCode target] p = .accepted [modeCode target] (p.setMode target) := by
  have pair : p.modePairBad target = false ∧ ∀ v, p.modeStateChecks target v = v := by
    unfold Part.modePairBad Part.modeStateChecks
    unfold Part.MayTakeMode at may
    cases mode : p.ctl.mode <;> cases target <;> rw [mode] at may <;> try exact may.elim
    all_goals simp only [implies_true, and_true]
    · obtain ⟨lockout, stop, good, sound⟩ := may
      exact ⟨lockout, fun v => by rw [stop, good, Part.deviceFault_of_sound sound]; rfl⟩
    · exact ⟨trivial, fun v => by rw [(p.firstMover_none).mpr may]; rfl⟩
  have known : modeTargetOf (modeCode target) = some target := by
    cases target with
    | halted => unfold Part.MayTakeMode at may; cases mode : p.ctl.mode <;> rw [mode] at may <;> exact may.elim
    | _ => rfl
  obtain ⟨pair, checks⟩ := pair
  unfold judgeSetMode
  dsimp only
  rw [known]
  dsimp only
  rw [pair, checks]
  rfl

theorem Part.frameTaken_setMode {p : Part} {l : Link} {target : DeviceMode} (other : target ≠ p.ctl.mode) :
    (p.frameTaken l).setMode target = (p.frameTaken l).changeMode target .request := by
  have cleared : ((p.frameTaken l).modCtl fun m => { m with silenceDisarm := false }) = p.frameTaken l := by cases l <;> rfl
  unfold Part.setMode
  rw [if_neg (by rw [Part.frameTaken_ctl]; exact other), cleared]

/-- R152: the power-good timer stands still without main power. -/
theorem ModeCtl.Law.timer_stopped {m : ModeCtl} (law : m.Law) (dark : m.mainPower = false) : m.powerGoodTimer = none := by
  obtain ⟨-, -, timer⟩ := law
  cases e : m.powerGoodTimer with
  | none => rfl
  | some n =>
    have on := (timer (by rw [e]; rfl)).1
    rw [dark] at on
    cases on

/-- R151, R152: main power after a change of mode that SET_MODE allows. -/
theorem ModeCtl.Law.setMode_power {m : ModeCtl} (law : m.Law) (free : m.held = false) {target : DeviceMode}
    (live : m.mode ≠ .halted) (allowed : target ≠ .halted) (other : target ≠ m.mode) :
    ({ m with mode := target } : ModeCtl).setPower target.powered = { m with
      mode := target, mainPower := target != .parked
      powerGoodTimer := if target = .parked then none
        else if m.mode = .parked then (if m.powerGood then none else some 100) else m.powerGoodTimer } := by
  have power := law.1
  rw [free] at power
  have powered : target.powered = (target != .parked) := by cases target <;> first | rfl | exact absurd rfl allowed
  unfold ModeCtl.setPower
  rw [powered]
  by_cases off : target = .parked
  · simp [off]
  · by_cases parked : m.mode = .parked
    · have dark : m.mainPower = false := by simp [power, parked]
      have idle := law.timer_stopped dark
      simp [off, parked, dark, idle, Config.powerGoodMs]
    · have on : m.mainPower = true := by
        cases mode : m.mode <;> simp_all
      simp [off, parked, on]

theorem Part.MayTakeMode.live {p : Part} {target : DeviceMode} (may : p.MayTakeMode target) :
    p.ctl.mode ≠ .halted ∧ target ≠ .halted := by
  unfold Part.MayTakeMode at may
  cases mode : p.ctl.mode <;> cases target <;> simp_all

theorem setModeChangesTheMode : Claims.SetModeChangesTheMode := by
  intro l tier target s ready low law may
  have judged := judgeSetMode_accepts (p := s.part.frameTaken l) (by rwa [Part.frameTaken_mayTakeMode]) l
    (s.part.effectiveTier l tier)
  refine ⟨fun same => ⟨_, rfl, ?_⟩, fun other => ⟨_, rfl, ?_⟩⟩
  · dsimp only
    rw [Part.judged_driven_accepts ready (by simp) rfl low judged, Part.setMode, if_pos (by rw [Part.frameTaken_ctl]; exact same)]
    refine ⟨Part.answered_served _ _ (Part.drive_link _ _) (by simp) (by simp), ?_⟩
    exact ((s.part.frameTaken_kept l).mono (by simp)).drive.answer l _ _ _ _
  · have answered := s.part.modeChange_answered l 0x04 target .request [modeCode target]
    dsimp only at answered ⊢
    rw [Part.judged_driven_accepts ready (by simp) rfl low judged, Part.frameTaken_setMode other]
    obtain ⟨codes, link, far, kept⟩ := answered
    refine ⟨?_, codes, link, far, fun c => ?_, kept⟩
    · have taken : (s.part.frameTaken l).ctl.Law := by
        obtain ⟨power, stop, timer⟩ := law
        rw [Part.frameTaken_ctl]
        exact ⟨power, stop, timer⟩
      rw [Part.answer_ctl, Part.drive_ctl, Part.changeMode_ctl,
        taken.setMode_power (by simp [ready.1]) (by simpa using may.live.1) may.live.2 (by simpa using other), Part.frameTaken_ctl]
    · rw [Part.answer_chan, Part.drive_chan, Part.changeMode_eq]
      show ((s.part.frameTaken l).changeBaselines (s.part.frameTaken l).ctl.mode target).chan c = _
      unfold Part.changeBaselines
      rw [Part.frameTaken_ctl]
      split
      · rw [Part.takeBaselines_chan, Part.frameTaken_chan]
        by_cases absent : (s.part.chan c).kind = .absent
        · rw [if_pos absent, if_neg (by simp [Channel.configured, absent])]
        · rw [if_neg absent, if_pos (by simp [Channel.configured, absent])]
      · split
        · rw [Part.dropBaselines_chan, Part.frameTaken_chan]
        · rw [Part.frameTaken_chan]

/-- R187: the target codes of SET_MODE. -/
theorem modeTargetOf_above {b : Byte} (h : 2 < b.toNat) : modeTargetOf b = none := by
  unfold modeTargetOf
  split <;> first | rfl | omega

theorem modeTargetOf_within {b : Byte} (h : b.toNat ≤ 2) : ∃ target, modeTargetOf b = some target := by
  have cases : b.toNat = 0 ∨ b.toNat = 1 ∨ b.toNat = 2 := by omega
  unfold modeTargetOf
  rcases cases with e | e | e <;> rw [e] <;> exact ⟨_, rfl⟩

theorem Part.modePairBad_halted {p : Part} (h : p.ctl.mode = .halted) (target : DeviceMode) : p.modePairBad target = true := by
  unfold Part.modePairBad
  rw [h]

theorem setModeRefusals : Claims.SetModeRefusals := by
  intro l tier b s ready low
  have refuses {code : Result} {index : Byte} (judged : judgeSetMode l (s.part.effectiveTier l tier) [b] (s.part.frameTaken l)
      = .refused code index) : Gives (.setMode l tier [b]) s fun q => s.part.Refuses q l 0x04 code index :=
    ⟨_, rfl, Part.judged_driven_refuses ready (by simp) rfl low judged⟩
  have bad {target : DeviceMode} (known : modeTargetOf b = some target) (pair : (s.part.frameTaken l).modePairBad target = true) :
      judgeSetMode l (s.part.effectiveTier l tier) [b] (s.part.frameTaken l) = .refused .mode 0xFF := by
    unfold judgeSetMode
    dsimp only
    rw [known]
    dsimp only
    rw [pair]
    rfl
  have unready {target : DeviceMode} {index : Byte} (known : modeTargetOf b = some target)
      (pair : (s.part.frameTaken l).modePairBad target = false)
      (checks : ∀ v, (s.part.frameTaken l).modeStateChecks target v = .refused .state index) :
      judgeSetMode l (s.part.effectiveTier l tier) [b] (s.part.frameTaken l) = .refused .state index := by
    unfold judgeSetMode
    dsimp only
    rw [known]
    dsimp only
    rw [pair, checks]
    rfl
  refine ⟨fun above => refuses ?_, fun within halted => ?_, ?_, ?_, ?_, ?_⟩
  · unfold judgeSetMode
    dsimp only
    rw [modeTargetOf_above above]
    rfl
  · obtain ⟨target, known⟩ := modeTargetOf_within within
    exact refuses (bad known (Part.modePairBad_halted (by simpa using halted) target))
  · rintro rfl parked
    exact refuses (bad (target := .armed) rfl (by simp [Part.modePairBad, parked]))
  · rintro rfl armed
    exact refuses (bad (target := .parked) rfl (by simp [Part.modePairBad, armed]))
  · rintro rfl standby
    refine ⟨fun lockout => refuses (bad (target := .armed) rfl (by simp [Part.modePairBad, standby, lockout])), fun open_ => ?_⟩
    have pair : (s.part.frameTaken l).modePairBad .armed = false := by simp [Part.modePairBad, standby, open_]
    refine ⟨fun input => refuses (unready (target := .armed) rfl pair fun v => ?_), fun stop good c fault lowest =>
      refuses (unready (target := .armed) rfl pair fun v => ?_)⟩
    · rcases input with stop | good
      · simp [Part.modeStateChecks, standby, stop, noIndex]
      · cases stop : s.part.ctl.estop <;> simp [Part.modeStateChecks, standby, stop, good, noIndex]
    · simp [Part.modeStateChecks, standby, stop, good, Part.deviceFault_of_lowest fault lowest]
  · rintro rfl armed c moved lowest
    refine refuses (unready (target := .standby) rfl (by simp [Part.modePairBad, armed]) fun v => ?_)
    have first : s.part.firstMover = some c := find?_allChans (by simpa using moved) fun d less => by simp [lowest d less]
    simp [Part.modeStateChecks, armed, first]

/-- Settles O29: an allowed change passes the judge and changes the mode; every other target is refused by one of its steps. -/
theorem setModeFollowsTheTable : Obligations.SetModeFollowsTheTable := ⟨setModeChangesTheMode, setModeRefusals⟩

/-! ### RESUME (R158) -/

/-- R158, R13: a configured channel is not at rest. -/
abbrev Part.Unrested (p : Part) (c : Chan) : Prop :=
  (p.chan c).kind ≠ .absent ∧ ((p.chan c).state ∈ [ChannelState.starting, .moving, .stopping]
    ∨ ¬∃ x y z, (p.chan c).history = [x, y, z] ∧ max x (max y z) - min x (min y z) ≤ 2)

theorem atStandstill_iff (h : List Int) :
    atStandstill h = true ↔ ∃ x y z, h = [x, y, z] ∧ max x (max y z) - min x (min y z) ≤ 2 := by
  unfold atStandstill
  split
  · next x y z => simp [Config.standstillMm]
  · next other =>
    simp only [Bool.false_eq_true, false_iff]
    rintro ⟨x, y, z, e, -⟩
    exact other x y z e

theorem Part.unrested_iff (p : Part) (c : Chan) :
    ((p.chan c).configured && !(p.chan c).atRest) = true ↔ p.Unrested c := by
  unfold Part.Unrested
  rw [← atStandstill_iff]
  cases state : (p.chan c).state <;> simp [Channel.configured, Channel.atRest, state]

@[simp] theorem Part.frameTaken_firstUnrest (p : Part) (l : Link) : (p.frameTaken l).firstUnrest = p.firstUnrest := by
  simp [Part.firstUnrest]

/-- Settles O32: the conditions are checked one after the other, and the change of mode follows. -/
theorem resumeReturnsToStandby : Obligations.ResumeReturnsToStandby := by
  intro l tier s ready low law moving
  have refuses {code : Result} {index : Byte} (judged : judgeResume l (s.part.effectiveTier l tier) [] (s.part.frameTaken l)
      = .refused code index) : Gives (.resume l tier []) s fun q => s.part.Refuses q l 0x06 code index :=
    ⟨_, rfl, Part.judged_driven_refuses ready (by simp) rfl low judged⟩
  refine ⟨fun other => refuses ?_, fun halted => ⟨fun stop => refuses ?_, fun stop c fault lowest => refuses ?_,
    fun stop sound c unrested lowest => refuses ?_, fun stop sound rested => ⟨_, rfl, ?_⟩⟩⟩
  · have bad : (s.part.ctl.mode != .halted) = true := by simpa using other
    simp [judgeResume, bad, noIndex]
  · simp [judgeResume, halted, stop, noIndex]
  · simp [judgeResume, halted, stop, Part.deviceFault_of_lowest fault lowest]
  · have first : s.part.firstUnrest = some c :=
      find?_allChans ((s.part.unrested_iff c).mpr unrested) fun d less => by
        rw [← Bool.not_eq_true, Part.unrested_iff]
        exact lowest d less
    simp [judgeResume, halted, stop, Part.deviceFault_of_sound sound, first]
  · have settled : s.part.firstUnrest = none := by
      refine List.find?_eq_none.mpr fun c _ => ?_
      rw [Part.unrested_iff]
      exact rested c
    have judged : judgeResume l (s.part.effectiveTier l tier) [] (s.part.frameTaken l)
        = .accepted [modeCode .standby] ((s.part.frameTaken l).changeMode .standby .resume) := by
      simp [judgeResume, halted, stop, Part.deviceFault_of_sound sound, settled]
    have answered := s.part.modeChange_answered l 0x06 .standby .resume [modeCode .standby]
    dsimp only at answered ⊢
    rw [halted] at answered
    rw [Part.judged_driven_accepts ready (by simp) rfl low judged]
    obtain ⟨codes, link, far, kept⟩ := answered
    refine ⟨?_, codes, link, far, .cons ?_ kept⟩
    · have law : s.part.ctl.Law := law
      have dark : s.part.ctl.mainPower = false := by rw [law.1, halted]; simp
      have idle : s.part.ctl.powerGoodTimer = none := law.timer_stopped dark
      rw [Part.answer_ctl, Part.drive_ctl, Part.changeMode_ctl, Part.frameTaken_ctl]
      simp [ModeCtl.setPower, DeviceMode.powered, dark, idle, Config.powerGoodMs]
    · show (Part.answer ..).channels = _
      rw [Part.answer_channels, Part.drive_channels, Part.changeMode_eq]
      show ((s.part.frameTaken l).changeBaselines (s.part.frameTaken l).ctl.mode .standby).channels = _
      unfold Part.changeBaselines
      rw [if_neg (by decide), if_neg (by simp [halted]), Part.frameTaken_channels]

end Sys2Proof.Machine
end

section
set_option Elab.async false
/-! PROOFS. CONFIGURE_CHANNEL, SET_POSITION, CLAIM and RELEASE (R18 to R20, R39 to R44). -/

namespace Sys2Proof.Machine

/-! ### Requests that touch their own records alone -/

/-- An accepted request whose judge keeps the links and the Mode Controller is answered, and keeps what its judge keeps. -/
theorem Part.answers_of_kept {p q : Part} {l : Link} {bs : List Block}
    (kept : Kept (p.frameTaken l) q (.ctl :: .link .a :: .link .b :: bs)) (kind : Byte) (data : List Byte)
    (bare : bs ⊆ [.channels, .ports, .samples, .groups, .queues, .clock, .tracks, .codes] := by simp) :
    p.Answers (q.answer l kind .ok 0xFF data) l kind data bs := by
  have ctl : q.ctl = _ := kept .ctl (by simp)
  have links (m : Link) : q.link m = (p.frameTaken l).link m := by
    cases m
    · exact kept (.link .a) (by simp)
    · exact kept (.link .b) (by simp)
  refine ⟨Part.answered_served _ _ (links l) ((links l.other).trans (p.frameTaken_link_other l))
    (ctl.trans (p.frameTaken_ctl l)), ?_⟩
  have rest : Kept (p.frameTaken l) q bs := fun b mem => kept b (by simp [mem])
  have taken : Kept p (p.frameTaken l) bs := fun b mem => p.frameTaken_kept l b (by
    have known := bare mem
    simp only [List.mem_cons, List.not_mem_nil, or_false] at known ⊢
    rcases known with h | h | h | h | h | h | h | h <;> simp [h])
  exact (taken.trans rest).answer l kind .ok 0xFF data fun own => by simpa using bare own

theorem Part.modChan_kept (p : Part) (c : Chan) (f : Channel → Channel) :
    Kept p (p.modChan c f)
      [.ctl, .link .a, .link .b, .ports, .samples, .groups, .queues, .clock, .tracks, .codes] := by
  simp [Kept, Block.Kept]

/-! ### CONFIGURE_CHANNEL (R18, R19) -/

theorem rd16_byteOf {n : Nat} (h : n < 65536) : rd16 (byteOf (n / 256)) (byteOf n) = n := by
  simp only [rd16, byteOf, BitVec.toNat_ofNat]
  omega

theorem kindOf_code (k : ChannelKind) : kindOf k.code = some k := by cases k <;> rfl

/-- R188: the body of a CONFIGURE_CHANNEL carries the record it was made of. -/
theorem judgeConfigureChannel_body {p : Part} {c : Chan} (there : p.hasChan c = true) {cfg : ChannelConfig} (legal : cfg.Legal)
    (l : Link) (tier : Nat) (k : ChannelKind) :
    judgeConfigureChannel l tier (configureBody c k cfg) p = p.configure l tier c k cfg := by
  obtain ⟨nominal, nominalMax, jog, jogMax, soft, upper, wll, wllMax, pct, pctMax, under, band, bandMax, guard⟩ := legal
  have legalRecord : cfg.inRange = true := by
    simp [ChannelConfig.inRange, Config.maxPosition, *]
  have small {n : Nat} (h : n ≤ 150) : (byteOf n).toNat = n := byteOf_toNat (by omega)
  show judgeConfigureChannel l tier [_, _, _, _, _, _, _, _, _, _, _, _, _, _, _, _, _, _] p = _
  unfold judgeConfigureChannel
  dsimp only
  rw [Part.withChan_byteOf there, kindOf_code]
  dsimp only
  rw [rd16_byteOf (by omega), rd16_byteOf (by omega), rd16_byteOf (by omega), rd16_byteOf (by omega), rd16_byteOf (by omega),
    rd16_byteOf (by omega), rd16_byteOf (by omega), small pctMax, small (by omega)]
  show refuseIf (!cfg.inRange) .range (byteOf c.val) (p.configure l tier c k cfg) = _
  rw [legalRecord]
  rfl

/-- R18, R47: the channel is in no such lane of a defined group. -/
theorem Part.inLane_of_none {p : Part} {c : Chan} {test : Lane → Bool}
    (h : ∀ g, (p.group g).state ≠ .empty → ∀ ln ∈ (p.group g).lanes, ln.channel = c → test ln = false) : p.inLane c test = false := by
  rw [← Bool.not_eq_true]
  intro found
  simp only [Part.inLane, List.any_eq_true, Bool.and_eq_true, bne_iff_ne, ne_eq, beq_iff_eq] at found
  obtain ⟨g, -, defined, ln, mem, here, meets⟩ := found
  rw [h g defined ln mem here] at meets
  cases meets

@[simp] theorem Part.frameTaken_inLane (p : Part) (l : Link) (c : Chan) (test : Lane → Bool) :
    (p.frameTaken l).inLane c test = p.inLane c test := by simp [Part.inLane]

theorem configureChannelWritesTheRecord : Claims.ConfigureChannelWritesTheRecord := by
  intro l tier c k cfg s ready low legal there setUp trusted lets owner still state gone fixed
  have bad : (s.part.frameTaken l).configureBad c k = false := by
    have stateOk : ((s.part.chan c).state == .idle || (s.part.chan c).state == .faulted || (s.part.chan c).state == .absent)
        = true := by simpa [or_assoc] using state
    have absent : (k == .absent && s.part.inLane c fun _ => true) = false ∧ (k == .absent && (s.part.chan c).fault.isSome) = false := by
      by_cases h : k = .absent
      · obtain ⟨fault, free⟩ := gone h
        rw [Part.inLane_of_none fun g defined ln mem here => absurd here (free g defined ln mem), fault]
        simp
      · simp [h]
    have standing : (k == .fixedSpeed && s.part.inLane c Lane.partRatio) = false := by
      by_cases h : k = .fixedSpeed
      · rw [Part.inLane_of_none fun g defined ln mem here => ?_]
        · simp
        · have := fixed h g defined ln mem here
          simp only [Lane.partRatio, Bool.and_eq_false_iff, decide_eq_false_iff_not]
          omega
      · simp [h]
    simp [Part.configureBad, still, stateOk, absent.1, absent.2, standing]
  have judged : judgeConfigureChannel l (s.part.effectiveTier l tier) (configureBody c k cfg) (s.part.frameTaken l)
      = .accepted [] ((s.part.frameTaken l).modChan c (Channel.configure s.part.ctl.mode k cfg)) := by
    have mode : (s.part.ctl.mode == .standby || s.part.ctl.mode == .parked) = true := by
      rcases setUp with h | h <;> rw [h] <;> rfl
    have below : ¬1 < s.part.effectiveTier l tier := by omega
    rw [judgeConfigureChannel_body (by simpa using there) legal]
    unfold Part.configure
    dsimp only
    have unclaimed : ownedByOther l (s.part.chan c) = false := by simpa [ownedByOther] using owner
    rw [bad, Part.frameTaken_chan, Part.frameTaken_ctl, unclaimed]
    simp [mode, below, aboveGuard, show ¬(s.part.chan c).config.guardTier < _ from Nat.not_lt.mpr lets]
  refine ⟨_, rfl, ?_⟩
  dsimp only
  rw [Part.judged_driven_accepts ready (by simp [configureBody, wr16]) rfl low judged]
  refine ⟨Part.answers_of_kept ((Part.modChan_kept _ _ _).mono (by simp)).drive .., fun d other => ?_, ?_⟩
  · simp [Part.modChan_chan_ne _ _ _ _ other]
  · rw [Part.answer_chan, Part.drive_chan, Part.modChan_chan_self, Part.frameTaken_chan]
    unfold Channel.configure
    by_cases absent : (s.part.chan c).state = .absent <;> by_cases out : k = .absent
    · simp [absent, out]
    · simp [absent, out, Config.settleMs]
    · simp [absent, out]
    · simp [absent, out]

/-! ### SET_POSITION (R20) -/

theorem setPositionReferencesTheChannel : Claims.SetPositionReferencesTheChannel := by
  intro l tier h lo c s ready low there n upper setUp trusted lets owner idle still
  have judged : judgeSetPosition l (s.part.effectiveTier l tier) [byteOf c.val, h, lo] (s.part.frameTaken l)
      = .accepted [] ((s.part.frameTaken l).modChan c (Channel.setPosition n)) := by
    have mode : (s.part.ctl.mode == .standby || s.part.ctl.mode == .parked) = true := by
      rcases setUp with h | h <;> rw [h] <;> rfl
    have below : ¬1 < s.part.effectiveTier l tier := by omega
    have inRange : ¬Config.maxPosition < n := by
      show ¬60000 < n
      omega
    have unclaimed : ownedByOther l (s.part.chan c) = false := by simpa [ownedByOther] using owner
    unfold judgeSetPosition
    dsimp only
    rw [Part.withChan_byteOf (by simpa using there), Part.frameTaken_chan, Part.frameTaken_ctl, show rd16 h lo = n from rfl,
      unclaimed]
    simp [inRange, mode, below, aboveGuard, show ¬(s.part.chan c).config.guardTier < _ from Nat.not_lt.mpr lets, unreservable,
      idle, still]
  refine ⟨_, rfl, ?_⟩
  dsimp only
  rw [Part.judged_accepts ready (by simp) rfl low judged]
  refine ⟨Part.answers_of_kept ((Part.modChan_kept _ _ _).mono (by simp)) .., fun d other => ?_, ?_, ?_⟩
  · simp [Part.modChan_chan_ne _ _ _ _ other]
  · simp [Channel.setPosition]
  · simp [Channel.setPosition, Channel.position, Channel.pos]

/-- Settles O33: the checks pass, and one channel's record is written. -/
theorem configureAndSetPositionWriteTheRecord : Obligations.ConfigureAndSetPositionWriteTheRecord :=
  ⟨configureChannelWritesTheRecord, setPositionReferencesTheChannel⟩

/-! ### Spans -/

theorem spanMembers_ordered (f e : Chan) : (spanMembers f e).Pairwise (· < ·) := allChans_ordered.filter _

/-- R30: the first member of a span that meets a condition. -/
theorem Part.firstChan_of_lowest {p : Part} {f e c : Chan} {bad : Channel → Bool} (inside : InSpan f e c)
    (meets : bad (p.chan c) = true) (lowest : ∀ d, f ≤ d → d < c → bad (p.chan d) = false) :
    p.firstChan (spanMembers f e) bad = some (byteOf c.val) := by
  have found : (spanMembers f e).find? (fun d => bad (p.chan d)) = some c := by
    unfold spanMembers
    rw [List.find?_filter]
    refine find?_allChans (by simp [inside.1, inside.2, meets]) fun d less => ?_
    by_cases below : f ≤ d
    · simp [lowest d below less]
    · simp [below]
  rw [Part.firstChan, found]
  rfl

/-- R33: the whole span lets the tier act. -/
theorem Part.firstChan_lets {p : Part} {f e : Chan} {tier : Nat} (lets : ∀ c, InSpan f e c → (p.chan c).Lets tier) :
    p.firstChan (spanMembers f e) (aboveGuard tier) = none :=
  (p.firstChan_none _ _).mpr fun c mem => by
    simpa [aboveGuard] using lets c ((mem_spanMembers f e c).mp mem)

@[simp] theorem Part.frameTaken_firstChan (p : Part) (l : Link) (members : List Chan) (bad : Channel → Bool) :
    (p.frameTaken l).firstChan members bad = p.firstChan members bad := by simp [Part.firstChan]

/-- A count over a span is a count over all channels. -/
theorem Part.countChans_span (p : Part) (f e : Chan) (test : Channel → Bool) :
    p.countChans (spanMembers f e) test = allChans.countP fun c => decide (f ≤ c ∧ c ≤ e ∧ test (p.chan c) = true) := by
  unfold Part.countChans spanMembers
  rw [List.countP_filter]
  refine List.countP_congr fun c _ => ?_
  simp only [Bool.and_eq_true, decide_eq_true_eq]
  tauto

theorem Part.setOwners_chan (p : Part) (f e : Chan) (test : Channel → Bool) (owner : Option Link) (c : Chan) :
    (p.setOwners (spanMembers f e) test owner).chan c =
      if f ≤ c ∧ c ≤ e ∧ test (p.chan c) = true then { p.chan c with owner := owner } else p.chan c := by
  unfold Part.setOwners
  rw [Part.forEach_modChan p _ (fun _ x => if test x then { x with owner := owner } else x) (spanMembers_nodup f e)]
  by_cases inside : InSpan f e c <;> by_cases meets : test (p.chan c) = true
  · rw [if_pos ((mem_spanMembers ..).mpr inside), if_pos meets, if_pos ⟨inside.1, inside.2, meets⟩]
  · rw [if_pos ((mem_spanMembers ..).mpr inside), if_neg meets, if_neg fun h => meets h.2.2]
  · rw [if_neg (mt (mem_spanMembers ..).mp inside), if_neg fun h => inside ⟨h.1, h.2.1⟩]
  · rw [if_neg (mt (mem_spanMembers ..).mp inside), if_neg fun h => inside ⟨h.1, h.2.1⟩]

theorem Part.setOwners_kept (p : Part) (members : List Chan) (test : Channel → Bool) (owner : Option Link) :
    Kept p (p.setOwners members test owner)
      [.ctl, .link .a, .link .b, .ports, .samples, .groups, .queues, .clock, .tracks, .codes] :=
  Part.forEach_inv (P := fun q => Kept p q _) (.refl p _) fun _ _ _ kept => kept.trans (Part.modChan_kept _ _ _)

/-! ### CLAIM (R40) -/

theorem claimTakesTheSpan : Claims.ClaimTakesTheSpan := by
  intro l tier f e s ready low first last lets
  have clear : (s.part.frameTaken l).firstChan (spanMembers f e) (aboveGuard (s.part.effectiveTier l tier)) = none := by
    rw [Part.frameTaken_firstChan, Part.firstChan_lets lets]
  refine ⟨fun free => ⟨_, rfl, ?_⟩, fun c inside taken lowest => ⟨_, rfl, ?_⟩⟩
  · have judged : judgeClaim l (s.part.effectiveTier l tier) [byteOf f.val, byteOf e.val] (s.part.frameTaken l)
        = .accepted [byteOf ((s.part.frameTaken l).countChans (spanMembers f e) unowned)]
            ((s.part.frameTaken l).setOwners (spanMembers f e) unowned (some l)) := by
      have unclaimed : (s.part.frameTaken l).firstChan (spanMembers f e) (ownedByOther l) = none :=
        (Part.firstChan_none _ _ _).mpr fun c mem => by
          simpa [ownedByOther] using free c ((mem_spanMembers f e c).mp mem)
      unfold judgeClaim
      dsimp only
      rw [Part.withSpan_byteOf (by simpa using first) (by simpa using last), clear, unclaimed]
      rfl
    dsimp only
    rw [Part.judged_accepts ready (by simp) rfl low judged, Part.countChans_span]
    refine ⟨?_, fun c => ?_⟩
    · simp only [unowned, Part.frameTaken_chan, beq_iff_eq]
      exact Part.answers_of_kept ((Part.setOwners_kept _ _ _ _).mono (by simp)) ..
    · rw [Part.answer_chan, Part.setOwners_chan, Part.frameTaken_chan]
      simp [unowned]
  · refine Part.judged_refuses ready (by simp) rfl low ?_
    have found : (s.part.frameTaken l).firstChan (spanMembers f e) (ownedByOther l) = some (byteOf c.val) :=
      Part.firstChan_of_lowest inside (by simp [ownedByOther, taken]) fun d above less => by
        simpa [ownedByOther] using lowest d above less
    unfold judgeClaim
    dsimp only
    rw [Part.withSpan_byteOf (by simpa using first) (by simpa using last), clear, found]
    rfl

/-! ### RELEASE (R41, R42) -/

theorem released_iff (p : Part) (l : Link) (force : Bool) (f e c : Chan) :
    (f ≤ c ∧ c ≤ e ∧ released l force (p.chan c) = true) ↔ p.Gone l force f e c := by
  cases force <;> simp [released, Part.Gone]

@[simp] theorem Part.frameTaken_gone (p : Part) (m l : Link) (force : Bool) (f e c : Chan) :
    (p.frameTaken m).Gone l force f e c ↔ p.Gone l force f e c := by simp [Part.Gone]

/-- R188: the FORCE byte. -/
theorem judgeRelease_body {p : Part} {f e : Chan} (first : p.hasChan f = true) (last : p.hasChan e = true) (l : Link) (tier : Nat)
    (force : Bool) :
    judgeRelease l tier [byteOf f.val, byteOf e.val, if force then 1 else 0] p = p.releaseSpan l tier force (spanMembers f e) := by
  unfold judgeRelease
  dsimp only
  rw [Part.withSpan_byteOf first last]
  cases force <;> rfl

theorem releaseGivesUpClaims : Claims.ReleaseGivesUpClaims := by
  intro l tier f e force s ready low first last i gone
  have gives {post : Part → Prop}
      (h : post (s.part.request l 0x13 tier [byteOf f.val, byteOf e.val, if force then 1 else 0] (lengthIs 3) judgeRelease)) :
      Gives i s post := by
    cases force <;> exact ⟨_, rfl, h⟩
  have body := judgeRelease_body (p := s.part.frameTaken l) (f := f) (e := e) (by simpa using first) (by simpa using last) l
    (s.part.effectiveTier l tier) force
  refine ⟨fun forced bad => gives ?_, fun allowed lets => ?_⟩
  · refine Part.judged_refuses ready (by simp) (by simp [lengthIs]) low (body.trans ?_)
    have above : (force && s.part.effectiveTier l tier != 0) = true := by simp [forced, bad]
    unfold Part.releaseSpan
    rw [above]
    rfl
  have trusted : (force && s.part.effectiveTier l tier != 0) = false := by
    cases force with
    | false => rfl
    | true => simp [allowed rfl]
  have clear : (s.part.frameTaken l).firstChan (spanMembers f e) (aboveGuard (s.part.effectiveTier l tier)) = none := by
    rw [Part.frameTaken_firstChan, Part.firstChan_lets lets]
  refine ⟨fun still => gives ?_, fun c leaves moved lowest => gives ?_⟩
  · have judged : (s.part.frameTaken l).releaseSpan l (s.part.effectiveTier l tier) force (spanMembers f e)
        = .accepted [byteOf ((s.part.frameTaken l).countChans (spanMembers f e) (released l force))]
            ((s.part.frameTaken l).setOwners (spanMembers f e) (released l force) none) := by
      have unmoved : (s.part.frameTaken l).firstChan (spanMembers f e) (fun x => released l force x && x.mover != .none) = none :=
        (Part.firstChan_none _ _ _).mpr fun c mem => by
          rw [Part.frameTaken_chan]
          by_cases given : released l force (s.part.chan c) = true
          · obtain ⟨above, below⟩ := (mem_spanMembers f e c).mp mem
            simp [still c ((released_iff ..).mp ⟨above, below, given⟩)]
          · simp [given]
      unfold Part.releaseSpan
      rw [trusted, clear, unmoved]
      rfl
    rw [Part.judged_accepts ready (by simp) (by simp [lengthIs]) low (body.trans judged), Part.countChans_span]
    refine ⟨?_, fun c => ?_⟩
    · simp only [released_iff, Part.frameTaken_gone]
      exact Part.answers_of_kept ((Part.setOwners_kept _ _ _ _).mono (by simp)) ..
    · rw [Part.answer_chan, Part.setOwners_chan]
      simp only [released_iff, Part.frameTaken_chan]
      rfl
  · refine Part.judged_refuses ready (by simp) (by simp [lengthIs]) low (body.trans ?_)
    obtain ⟨above, below, given⟩ := (released_iff ..).mpr leaves
    have found : (s.part.frameTaken l).firstChan (spanMembers f e) (fun x => released l force x && x.mover != .none)
        = some (byteOf c.val) :=
      Part.firstChan_of_lowest ⟨above, below⟩ (by simp [given, moved]) fun d from_ less => by
        rw [Part.frameTaken_chan]
        by_cases mine : released l force (s.part.chan d) = true
        · simp [lowest d less ((released_iff ..).mp ⟨from_, (Fin.le_of_lt less).trans below, mine⟩)]
        · simp [mine]
    unfold Part.releaseSpan
    rw [trusted, clear, found]
    rfl

/-- Settles O34: the span's members are checked in order, and then their owners are set. -/
theorem claimTakesAndReleaseGivesUp : Obligations.ClaimTakesAndReleaseGivesUp := ⟨claimTakesTheSpan, releaseGivesUpClaims⟩

end Sys2Proof.Machine
end

section
set_option Elab.async false
/-! PROOFS. JOG and the lease of a jog (R21 to R23, R164). -/

namespace Sys2Proof.Machine

/-! ### The judge of JOG (R21, R31, R33, R35) -/

/-- R188: the direction codes of JOG. -/
theorem jogDirOf_within {k : Byte} (h : k.toNat ≤ 2) : ∃ dir, jogDirOf k = some dir := by
  have cases : k.toNat = 0 ∨ k.toNat = 1 ∨ k.toNat = 2 := by omega
  unfold jogDirOf
  rcases cases with e | e | e <;> rw [e] <;> exact ⟨_, rfl⟩

theorem jogDirOf_above {k : Byte} (h : 2 < k.toNat) : jogDirOf k = none := by
  unfold jogDirOf
  split <;> first | rfl | omega

theorem jogDirOf_code (d : Dir) : jogDirOf (if d = .up then 1 else 2) = some (some d) := by cases d <;> rfl

/-- A direction code names a direction unless it is 0. -/
theorem jogDirOf_some {k : Byte} {dir : Option Dir} (known : jogDirOf k = some dir) (moves : k ≠ 0) : ∃ d, dir = some d := by
  unfold jogDirOf at known
  split at known
  · next zero => exact absurd (BitVec.eq_of_toNat_eq (y := 0#8) zero) moves
  · exact ⟨.up, (Option.some.inj known).symm⟩
  · exact ⟨.down, (Option.some.inj known).symm⟩
  · cases known

/-- R187: the direction code of a JOG. -/
def jogCode : Option Dir → Nat
  | none => 0
  | some .up => 1
  | some .down => 2

theorem jogCode_of_jogDirOf {k : Byte} {dir : Option Dir} (known : jogDirOf k = some dir) : k.toNat = jogCode dir := by
  unfold jogDirOf at known
  split at known
  · next e => cases known; exact e
  · next e => cases known; exact e
  · next e => cases known; exact e
  · cases known

theorem jogDirOf_injective {a b : Byte} {dir : Option Dir} (ha : jogDirOf a = some dir) (hb : jogDirOf b = some dir) : a = b :=
  BitVec.eq_of_toNat_eq ((jogCode_of_jogDirOf ha).trans (jogCode_of_jogDirOf hb).symm)

section Judge
variable {p : Part} {l : Link} {tier : Nat} {c : Chan} {k : Byte} {dir : Option Dir}

/-- R26: the checks of a JOG, on a channel and a direction code that exist. -/
theorem judgeJog_steps (there : p.hasChan c = true) (known : jogDirOf k = some dir) :
    judgeJog l tier [byteOf c.val, k] p =
      refuseIf (p.ctl.mode != .armed) .mode noIndex (refuseIf (aboveGuard tier (p.chan c)) .tier (byteOf c.val)
        (refuseIf (notOwnedBy l (p.chan c)) .claim (byteOf c.val) (refuseIf (p.chan c).groupMoved .state (byteOf c.val)
          (p.jogChecks c (byteOf c.val) dir (.accepted [(p.jog l c dir).1] (p.jog l c dir).2))))) := by
  unfold judgeJog
  dsimp only
  rw [Part.withChan_byteOf there, known]

/-- A JOG that reaches the STATE step. -/
theorem judgeJog_owned (there : p.hasChan c = true) (known : jogDirOf k = some dir) (armed : p.ctl.mode = .armed)
    (lets : (p.chan c).Lets tier) (owner : (p.chan c).owner = some l) :
    judgeJog l tier [byteOf c.val, k] p =
      refuseIf (p.chan c).groupMoved .state (byteOf c.val)
        (p.jogChecks c (byteOf c.val) dir (.accepted [(p.jog l c dir).1] (p.jog l c dir).2)) := by
  have trusted : aboveGuard tier (p.chan c) = false := by simpa [aboveGuard] using lets
  have owned : notOwnedBy l (p.chan c) = false := by simp [notOwnedBy, owner]
  rw [judgeJog_steps there known, armed, trusted, owned]
  rfl

end Judge

theorem Channel.groupMoved_group {x : Channel} {g : Grp} (h : x.mover = .group g) : x.groupMoved = true := by
  simp [Channel.groupMoved, h]

theorem Channel.groupMoved_none {x : Channel} (h : x.mover = .none) : x.groupMoved = false := by simp [Channel.groupMoved, h]

theorem Channel.groupMoved_jog {x : Channel} {m : Link} (h : x.mover = .jog m) : x.groupMoved = false := by
  simp [Channel.groupMoved, h]

/-- R21: the STATE and LIMIT conditions bear on a channel without a mover alone. -/
theorem Part.jogChecks_moved {p : Part} {c : Chan} (moved : (p.chan c).mover ≠ .none) (b : Byte) (dir : Option Dir) (rest : Verdict) :
    p.jogChecks c b dir rest = rest := by
  unfold Part.jogChecks
  cases dir with
  | none => rfl
  | some d => exact if_neg moved

theorem Part.jogChecks_still {p : Part} {c : Chan} (still : (p.chan c).mover = .none) (b : Byte) (d : Dir) (rest : Verdict) :
    p.jogChecks c b (some d) rest =
      refuseIf ((p.chan c).state != .idle) .state b (refuseIf ((p.chan c).beyondSoft d) .limit b rest) := if_pos still

theorem jogRefusals : Claims.JogRefusals := by
  intro l tier b k c s ready low there x refused
  have refuses {f : Byte} {code : Result} {index : Byte}
      (judged : judgeJog l (s.part.effectiveTier l tier) [f, k] (s.part.frameTaken l) = .refused code index) :
      Gives (.jog l tier [f, k]) s fun q => s.part.Refuses q l 0x14 code index :=
    ⟨_, rfl, Part.judged_driven_refuses ready (by simp) rfl low judged⟩
  have exists_ : (s.part.frameTaken l).hasChan c = true := by simpa using there
  refine ⟨fun beyond => refuses ?_, fun above => refuses ?_, fun within unarmed => refuses ?_, fun within armed => ?_⟩
  · have none_ : (s.part.frameTaken l).chanOf b = none := by
      unfold Part.chanOf
      split
      · have count : (s.part.frameTaken l).chanCount = s.part.chanCount := by simp [Part.chanCount]
        exact if_neg (by simpa [Part.hasChan, count] using beyond)
      · rfl
    unfold judgeJog
    dsimp only
    rw [Part.withChan, none_]
  · unfold judgeJog
    dsimp only
    rw [Part.withChan_byteOf exists_, jogDirOf_above above]
  · obtain ⟨dir, known⟩ := jogDirOf_within within
    have bad : ((s.part.frameTaken l).ctl.mode != .armed) = true := by simpa using unarmed
    rw [judgeJog_steps exists_ known, bad]
    rfl
  obtain ⟨dir, known⟩ := jogDirOf_within within
  have ready_ : (s.part.frameTaken l).ctl.mode = .armed := by simpa using armed
  have same : (s.part.frameTaken l).chan c = x := Part.frameTaken_chan ..
  refine ⟨fun guarded => refuses ?_, fun lets => ⟨fun unowned => refuses ?_, fun owner => ?_⟩⟩
  · have bad : aboveGuard (s.part.effectiveTier l tier) x = true := by simpa [aboveGuard] using guarded
    rw [judgeJog_steps exists_ known, ready_, same, bad]
    rfl
  · have trusted : aboveGuard (s.part.effectiveTier l tier) x = false := by simpa [aboveGuard] using lets
    have bad : notOwnedBy l x = true := by simpa [notOwnedBy] using unowned
    rw [judgeJog_steps exists_ known, ready_, same, trusted, bad]
    rfl
  have judged := judgeJog_owned (l := l) (tier := s.part.effectiveTier l tier) exists_ known ready_ (by rw [same]; exact lets) (by rw [same]; exact owner)
  rw [same] at judged
  refine ⟨fun g moved => refuses ?_, fun still moves busy => refuses ?_, fun still idle referenced reached => refuses ?_⟩
  · rw [judged, Channel.groupMoved_group moved]
    rfl
  · obtain ⟨d, rfl⟩ := jogDirOf_some known moves
    have bad : (x.state != .idle) = true := by simpa using busy
    rw [judged, Channel.groupMoved_none still, Part.jogChecks_still (by rw [same]; exact still), same, bad]
    rfl
  · obtain ⟨d, code, beyond⟩ : ∃ d, jogDirOf k = some (some d) ∧ x.beyondSoft d = true := by
      rcases reached with ⟨rfl, limit⟩ | ⟨rfl, limit⟩
      · exact ⟨.up, rfl, by simp [Channel.beyondSoft, referenced, limit]⟩
      · exact ⟨.down, rfl, by simp [Channel.beyondSoft, referenced, limit]⟩
    obtain rfl : some d = dir := Option.some.inj (code.symm.trans known)
    rw [judged, Channel.groupMoved_none still, Part.jogChecks_still (by rw [same]; exact still), same, beyond, idle]
    rfl

/-! ### The start of a jog (R21, R22) -/

/-- R21, R98: the channel after the start of a jog. -/
theorem Channel.startJog_idle {x : Channel} (idle : x.state = .idle) (l : Link) (d : Dir) :
    x.startJog l d = { x with
      mover := .jog l, jog := some { direction := d, lease := 300 }, state := .starting, direction := some d
      demand := x.capDemand x.jogDemand, confirmMark := some x.raw, confirmTimer := some 600, pendingRelease := none
      reversalExtreme := some x.raw, settling := false, settleTimer := none, watchArmed := true
      progressMark := none, progressTimer := .stopped } := by
  simp [Channel.startJog, Channel.release, idle, Channel.start, Channel.syncWatch, Channel.armWatch, Config.confirmMs,
    Config.leaseMs, Channel.capDemand]

theorem jogStartsTheChannel : Claims.JogStartsTheChannel := by
  intro l tier c d s ready low there armed lets owner idle still inside
  have same : (s.part.frameTaken l).chan c = s.part.chan c := Part.frameTaken_chan ..
  have within : (s.part.chan c).beyondSoft d = false := by
    unfold Channel.beyondSoft
    by_cases referenced : (s.part.chan c).referenced = true
    · have := inside referenced
      cases d <;> simpa [referenced] using this
    · simp [referenced]
  have started : (s.part.frameTaken l).jog l c (some d) = (1, (s.part.frameTaken l).modChan c (Channel.startJog l d)) := by
    unfold Part.jog
    rw [same, still]
  have judged : judgeJog l (s.part.effectiveTier l tier) [byteOf c.val, if d = .up then 1 else 2] (s.part.frameTaken l)
      = .accepted [1] ((s.part.frameTaken l).modChan c (Channel.startJog l d)) := by
    rw [judgeJog_owned (by simpa using there) (jogDirOf_code d) (by simpa using armed) (by simpa using lets)
      (by simpa using owner), same, Channel.groupMoved_none still, Part.jogChecks_still (by rw [same]; exact still), same, idle,
      within, started]
    rfl
  refine ⟨_, rfl, ?_⟩
  dsimp only
  rw [Part.judged_driven_accepts ready (by simp) rfl low judged]
  refine ⟨Part.answers_of_kept ((Part.modChan_kept _ _ _).mono (by simp)).drive .., fun e other => ?_, ?_, ?_⟩
  · simp [Part.modChan_chan_ne _ _ _ _ other]
  · rw [Part.answer_chan, Part.drive_chan, Part.modChan_chan_self, same, Channel.startJog_idle idle]
    simp [Channel.capDemand, Channel.jogDemand]
  · rw [Part.answer_port, Part.drive_port, Part.outputOf_released (by
      simp [Part.releases, armed, ready.1, Channel.startJog_idle idle, Channel.live])]
    rw [Part.modChan_chan_self, same, Channel.startJog_idle idle]
    by_cases variable_ : (s.part.chan c).kind = .variableSpeed <;> simp [variable_, Channel.capDemand, Channel.jogDemand]

/-- Settles O35: the checks in their order, and the start on a channel that passes them. -/
theorem jogStarts : Obligations.JogStarts := ⟨jogStartsTheChannel, jogRefusals⟩

/-! ### The end of a jog (R23) -/

theorem Channel.jogEnded_eq {x : Channel} (live : x.state = .starting ∨ x.state = .moving) : x.stop.dropMover = x.jogEnded := by
  rw [Channel.stop_eq, Channel.dropMover_eq, Channel.afterStop, if_pos live]
  simp [Channel.stopped, Channel.freed, Channel.jogEnded]
  rfl

theorem Part.judgeDisarm_kept (p : Part) : Kept p p.judgeDisarm [.ports, .samples, .groups, .queues, .clock, .tracks] := by
  rcases p.judgeDisarm_eq with same | ⟨-, -, -, disarmed⟩
  · rw [same]
    exact .refl p _
  · rw [disarmed]
    exact Kept.trans (by simp [Kept, Block.Kept]) (Part.changeMode_kept _ _ _)

theorem Part.endJog_kept (p : Part) (c : Chan) : Kept p (p.endJog c) [.ports, .samples, .groups, .queues, .clock, .tracks] :=
  (((p.modChan_kept c _).mono (by simp)).trans ((Part.modChan_kept _ c _).mono (by simp))).trans (Part.judgeDisarm_kept _)

/-- With the silence-disarm flag clear, the end of a jog touches its channel alone. -/
theorem Part.endJog_clear_kept {p : Part} (clear : p.ctl.silenceDisarm = false) (c : Chan) : Kept p (p.endJog c)
    [.ctl, .link .a, .link .b, .ports, .samples, .groups, .queues, .clock, .tracks, .codes] := by
  unfold Part.endJog
  rw [Part.clearMover_clear (by simpa using clear)]
  exact (p.modChan_kept c _).trans (Part.modChan_kept _ c _)

/-- R7: the output of a channel that is not running. -/
theorem Part.drive_safe {p : Part} {c : Chan} (rest : (p.chan c).live = false) :
    (p.drive.port c).output.brakeReleased = false ∧ (p.drive.port c).output.run = false := by
  rw [Part.drive_port]
  obtain ⟨brake, run, -⟩ := (PortOutput.isSafe_iff _).mp (Part.outputOf_safe (p := p) (c := c) (by simp [Part.releases, rest]))
  exact ⟨brake, run⟩

theorem jogRenewsOrEnds : Claims.JogRenewsOrEnds := by
  intro l m tier b c j s ready low there armed lets owner
  have same : (s.part.frameTaken l).chan c = s.part.chan c := Part.frameTaken_chan ..
  have judged {dir : Option Dir} (known : jogDirOf b = some dir) := judgeJog_owned (p := s.part.frameTaken l) (l := l)
    (tier := s.part.effectiveTier l tier) (c := c) (by simpa using there) known (by simpa using armed) (by simpa using lets)
    (by simpa using owner)
  have jogged (mover : (s.part.chan c).mover = .jog m) {dir : Option Dir} (known : jogDirOf b = some dir) :
      judgeJog l (s.part.effectiveTier l tier) [byteOf c.val, b] (s.part.frameTaken l)
        = .accepted [((s.part.frameTaken l).jog l c dir).1] ((s.part.frameTaken l).jog l c dir).2 := by
    rw [judged known, same, Channel.groupMoved_jog mover, Part.jogChecks_moved (by rw [same, mover]; simp)]
    rfl
  refine ⟨?_, fun g within moved => ⟨_, rfl, ?_⟩, fun mover record => ⟨fun onward => ⟨_, rfl, ?_⟩,
    fun within turn live => ⟨_, rfl, ?_⟩⟩⟩
  · rintro rfl still
    have nothing : (s.part.frameTaken l).jog l c none = (0, s.part.frameTaken l) := by
      unfold Part.jog
      rw [same, still]
    have accepted := judged (dir := none) rfl
    rw [same, Channel.groupMoved_none still, nothing] at accepted
    refine ⟨_, rfl, ?_⟩
    dsimp only
    rw [Part.judged_driven_accepts ready (by simp) rfl low accepted]
    exact Part.answers_of_kept (Kept.refl _ _).drive ..
  · obtain ⟨dir, known⟩ := jogDirOf_within within
    refine Part.judged_driven_refuses ready (by simp) rfl low ?_
    rw [judged known, same, Channel.groupMoved_group moved]
    rfl
  · have renewed : (s.part.frameTaken l).jog l c (some j.direction) = (2, (s.part.frameTaken l).modChan c Channel.renewJog) := by
      unfold Part.jog
      rw [same, mover, record]
      exact if_pos rfl
    have accepted := jogged mover (onward ▸ jogDirOf_code j.direction)
    rw [renewed] at accepted
    dsimp only
    rw [Part.judged_driven_accepts ready (by simp) rfl low accepted]
    refine ⟨Part.answers_of_kept ((Part.modChan_kept _ _ _).mono (by simp)).drive .., fun e other => ?_, ?_⟩
    · simp [Part.modChan_chan_ne _ _ _ _ other]
    · rw [Part.answer_chan, Part.drive_chan, Part.modChan_chan_self, same, Channel.renewJog, record]
      rfl
  · obtain ⟨dir, known⟩ := jogDirOf_within within
    have ended : (s.part.frameTaken l).jog l c dir = (3, (s.part.frameTaken l).endJog c) := by
      have away : some j.direction ≠ dir := by
        rintro rfl
        exact turn (jogDirOf_injective known (jogDirOf_code j.direction))
      unfold Part.jog
      rw [same, mover, record]
      cases dir with
      | none => rfl
      | some d => exact if_neg away
    have accepted := jogged mover known
    rw [ended] at accepted
    have chan : ((s.part.frameTaken l).endJog c).chan c = (s.part.chan c).jogEnded := by
      rw [Part.endJog_chan, if_pos rfl, same, Channel.jogEnded_eq live]
    dsimp only
    rw [Part.judged_driven_accepts ready (by simp) rfl low accepted]
    refine ⟨Part.answers_of_kept ((Part.endJog_clear_kept (by simp) c).mono (by simp)).drive .., fun e other => ?_, ?_, ?_⟩
    · rw [Part.answer_chan, Part.drive_chan, Part.endJog_chan, if_neg other, Part.frameTaken_chan]
    · rw [Part.answer_chan, Part.drive_chan, chan]
    · rw [Part.answer_port]
      exact Part.drive_safe (by rw [chan]; rfl)

end Sys2Proof.Machine
end

section
set_option Elab.async false
/-! PROOFS. The steps of a feedback arrival (R5), and the ends of a jog by its lease and by a soft limit (R22, R23, R164). -/

namespace Sys2Proof.Machine

/-! ### The taking of a sample (R4, R5 step 1) -/

/-- R4, R5 step 1: the part once the port and the channel have taken a sample. -/
def Part.sampled (p : Part) (c : Chan) (y : Sample) : Part :=
  (p.modPort c (Port.arrive (p.hasChan c) (deliver y))).modChan c (Channel.takeSample (deliver y))

theorem Part.sampled_chan_self (p : Part) (c : Chan) (y : Sample) :
    (p.sampled c y).chan c = (p.chan c).takeSample (deliver y) := by simp [Part.sampled]

theorem Part.sampled_chan_ne {p : Part} {c d : Chan} (other : d ≠ c) (y : Sample) : (p.sampled c y).chan d = p.chan d := by
  simp [Part.sampled, Part.modChan_chan_ne _ _ _ _ other]

theorem Part.sampled_kept (p : Part) (c : Chan) (y : Sample) :
    Kept p (p.sampled c y) [.ctl, .link .a, .link .b, .groups, .queues, .clock, .tracks, .codes] := by
  simp [Part.sampled, Kept, Block.Kept]

@[simp] theorem Part.sampled_ctl (p : Part) (c : Chan) (y : Sample) : (p.sampled c y).ctl = p.ctl := by simp [Part.sampled]
@[simp] theorem Part.sampled_group (p : Part) (c : Chan) (y : Sample) (g : Grp) : (p.sampled c y).group g = p.group g := by
  simp [Part.sampled]
@[simp] theorem Part.sampled_codes (p : Part) (c : Chan) (y : Sample) : (p.sampled c y).codes = p.codes := by simp [Part.sampled]
@[simp] theorem Part.sampled_link (p : Part) (c : Chan) (y : Sample) (l : Link) : (p.sampled c y).link l = p.link l := by
  simp [Part.sampled]

/-- R5 steps 2 to 6, on a part whose channel has taken a sample. -/
def Part.judged (p : Part) (c : Chan) : Part := (((p.judgeStandstill c).judgeConfirm c).judgeJogLimit c).detect c

theorem exec_feedbackArrival {s : State} (free : s.part.ctl.held = false) (c : Chan) (y : Sample) :
    exec (.feedbackArrival c y) s = .next { s with part := (s.part.sampleArrives c (deliver y)).drive } := by
  have taking : exec (.feedbackArrival c y) s = execFeedbackArrival c y s := rfl
  rw [taking, execFeedbackArrival, State.take_next, Part.awake_of_free free]

/-- R5: a sample of a configured channel is judged step by step. -/
theorem Part.sampleArrives_configured {p : Part} {c : Chan} (there : p.hasChan c = true) (kind : (p.chan c).kind ≠ .absent)
    (y : Sample) :
    p.sampleArrives c (deliver y) = ((p.sampled c y).judged c).watchLoad c (p.chan c).watchBaseline := by
  have configured : ((p.sampled c y).chan c).configured = true := by
    rw [Part.sampled_chan_self]
    simpa [Channel.configured, Channel.takeSample] using kind
  unfold Part.sampleArrives
  dsimp only
  rw [if_pos there]
  show Part.judgeSample (p.sampled c y) c _ = _
  unfold Part.judgeSample
  rw [if_pos configured]
  rfl

/-- R5: the same for a channel that holds no watch baseline (R111). -/
theorem Part.sampleArrives_unwatched {p : Part} {c : Chan} (there : p.hasChan c = true) (kind : (p.chan c).kind ≠ .absent)
    (unwatched : (p.chan c).watchBaseline = none) (y : Sample) :
    p.sampleArrives c (deliver y) = (p.sampled c y).judged c := by
  rw [Part.sampleArrives_configured there kind, unwatched]
  rfl

/-! ### Standstill (R13, R14, R16) -/

/-- R16: what a sample does to a channel that is not STOPPING at step 3. -/
def Channel.quiet (x : Channel) : Channel := if atStandstill x.history && x.settling then x.endSettling else x

theorem Part.tellMover_idle {p : Part} {c : Chan} (idle : ∀ g, (p.chan c).mover = .group g → (p.group g).state ≠ .stopping) :
    p.tellMover c = p := by
  unfold Part.tellMover
  cases mover : (p.chan c).mover with
  | group g => exact if_neg (by simp [idle g mover])
  | none => rfl
  | jog l => rfl

theorem Part.modChan_self {p : Part} {c : Chan} {f : Channel → Channel} (same : f (p.chan c) = p.chan c) : p.modChan c f = p := by
  have channels : (p.modChan c f).channels = p.channels := Part.channels_ext fun d => by
    rw [Part.modChan_chan]
    split
    · next e => rw [e, same]
    · rfl
  have parts : p.modChan c f = { p with channels := (p.modChan c f).channels } := rfl
  rw [parts, channels]

theorem Channel.standstill_quiet {x : Channel} (moving : x.state ≠ .stopping) (still : atStandstill x.history = true) :
    x.standstill = x.quiet := by
  unfold Channel.standstill Channel.quiet
  rw [still]
  by_cases settling : x.settling = true
  · simp [settling, Channel.endSettling, moving]
  · simp [settling, moving]

/-- R5 step 3, on a channel that is not STOPPING and whose group does not wait for it. -/
theorem Part.judgeStandstill_quiet {p : Part} {c : Chan} (moving : (p.chan c).state ≠ .stopping)
    (idle : ∀ g, (p.chan c).mover = .group g → (p.group g).state ≠ .stopping) :
    p.judgeStandstill c = p.modChan c Channel.quiet := by
  unfold Part.judgeStandstill
  split
  · next still =>
    have mod : p.modChan c Channel.standstill = p.modChan c Channel.quiet := by
      unfold Part.modChan
      rw [Channel.standstill_quiet moving still]
    rw [mod]
    refine Part.tellMover_idle fun g mover => ?_
    rw [Part.modChan_group]
    refine idle g ?_
    rw [Part.modChan_chan_self] at mover
    rw [← mover]
    unfold Channel.quiet
    split <;> rfl
  · next moved =>
    refine (Part.modChan_self ?_).symm
    unfold Channel.quiet
    exact if_neg (by simp [moved])

/-! ### Motion confirm (R11) -/

/-- R11: what a sample does to a channel at step 4. -/
def Channel.confirm (x : Channel) : Channel := if x.confirmed then x.toMoving else x

theorem Part.judgeConfirm_ungrouped {p : Part} {c : Chan} (free : ∀ g, (p.chan c).mover ≠ .group g) :
    p.judgeConfirm c = p.modChan c Channel.confirm := by
  unfold Part.judgeConfirm
  split
  · next confirmed =>
    have mod : p.modChan c Channel.confirm = p.modChan c Channel.toMoving := by
      unfold Part.modChan Channel.confirm
      rw [if_pos confirmed]
    rw [mod]
    cases mover : (p.chan c).mover with
    | group g => exact absurd mover (free g)
    | none => rfl
    | jog l => rfl
  · next unconfirmed => exact (Part.modChan_self (if_neg unconfirmed)).symm

/-- A channel before and after the steps at which a sample ends its settling and confirms its motion. -/
structure Channel.Onward (x y : Channel) : Prop where
  config : y.config = x.config
  kind : y.kind = x.kind
  raw : y.raw = x.raw
  offset : y.offset = x.offset
  referenced : y.referenced = x.referenced
  load : y.load = x.load
  upperOpen : y.upperOpen = x.upperOpen
  lowerOpen : y.lowerOpen = x.lowerOpen
  driveFault : y.driveFault = x.driveFault
  direction : y.direction = x.direction
  reversalExtreme : y.reversalExtreme = x.reversalExtreme
  mover : y.mover = x.mover
  jog : y.jog = x.jog
  owner : y.owner = x.owner
  releaseOnEnd : y.releaseOnEnd = x.releaseOnEnd
  fault : y.fault = x.fault
  watchBaseline : y.watchBaseline = x.watchBaseline
  pendingRelease : y.pendingRelease = x.pendingRelease
  live : y.live = x.live
  stays : x.live = false → y.state = x.state

theorem Channel.Onward.trans {x y z : Channel} (h : x.Onward y) (k : y.Onward z) : x.Onward z :=
  ⟨k.config.trans h.config, k.kind.trans h.kind, k.raw.trans h.raw, k.offset.trans h.offset, k.referenced.trans h.referenced,
    k.load.trans h.load, k.upperOpen.trans h.upperOpen, k.lowerOpen.trans h.lowerOpen, k.driveFault.trans h.driveFault,
    k.direction.trans h.direction, k.reversalExtreme.trans h.reversalExtreme, k.mover.trans h.mover, k.jog.trans h.jog,
    k.owner.trans h.owner, k.releaseOnEnd.trans h.releaseOnEnd, k.fault.trans h.fault, k.watchBaseline.trans h.watchBaseline,
    k.pendingRelease.trans h.pendingRelease, k.live.trans h.live,
    fun rest => (k.stays (h.live.trans rest)).trans (h.stays rest)⟩

theorem Channel.Onward.refl (x : Channel) : x.Onward x := by constructor <;> first | rfl | exact fun _ => rfl

theorem Channel.quiet_onward (x : Channel) : x.Onward x.quiet := by
  unfold Channel.quiet
  split
  · constructor <;> simp [Channel.endSettling, Channel.live]
  · exact .refl x

theorem Channel.toMoving_onward {x : Channel} (live : x.live = true) : x.Onward x.toMoving := by
  unfold Channel.toMoving
  rw [Channel.syncWatch_eq]
  constructor
  case live => rw [live]; rfl
  case stays => exact fun rest => absurd live (by simp [rest])
  all_goals rfl

theorem Channel.confirm_onward (x : Channel) : x.Onward x.confirm := by
  unfold Channel.confirm
  split
  · next confirmed => exact Channel.toMoving_onward (by simp [Channel.live, Channel.starting_of_confirmed confirmed])
  · exact .refl x

/-! ### The soft limit of a jog (R22) -/

/-- R22: the channel stands at or beyond the soft limit of its jog. -/
def Channel.jogLimited (x : Channel) : Bool :=
  match x.jog with
  | some j => x.beyondSoft j.direction
  | none => false

theorem Part.judgeJogLimit_eq (p : Part) (c : Chan) :
    p.judgeJogLimit c = if (p.chan c).jogLimited then p.endJog c else p := by
  unfold Part.judgeJogLimit Channel.jogLimited Channel.beyondSoft
  dsimp only
  cases (p.chan c).jog with
  | none => exact (if_neg (by simp)).symm
  | some j => rfl

theorem Part.judgeJogLimit_inside {p : Part} {c : Chan} (inside : (p.chan c).jogLimited = false) : p.judgeJogLimit c = p := by
  rw [Part.judgeJogLimit_eq, if_neg (by simp [inside])]

/-! ### Fault detection (R93 to R98) -/

theorem Channel.moveExtreme_eq {x : Channel} {d : Dir} {e : Int} (direction : x.direction = some d)
    (extreme : x.reversalExtreme = some e) :
    x.moveExtreme = { x with reversalExtreme := some (if 0 < gain d e x.raw then x.raw else e) } := by
  cases x
  subst direction extreme
  dsimp only [Channel.moveExtreme]
  split <;> rfl

theorem Channel.reversed_eq {x : Channel} {d : Dir} {e : Int} (direction : x.direction = some d)
    (extreme : x.reversalExtreme = some e) : x.reversed = decide (gain d e x.raw ≤ -10) := by
  unfold Channel.reversed
  rw [direction, extreme]
  rfl

theorem gain_self (d : Dir) (n : Int) : gain d n n = 0 := by cases d <;> simp [gain]

theorem Channel.moveExtreme_unreversed {x : Channel}
    (forward : ∀ d e, x.direction = some d → x.reversalExtreme = some e → -10 < gain d e x.raw) :
    x.moveExtreme.reversed = false := by
  cases direction : x.direction with
  | none => simp [Channel.moveExtreme, Channel.reversed, direction]
  | some d =>
    cases extreme : x.reversalExtreme with
    | none => simp [Channel.moveExtreme, Channel.reversed, direction, extreme]
    | some e =>
      have ahead := forward d e direction extreme
      rw [Channel.moveExtreme_eq direction extreme,
        Channel.reversed_eq (x := { x with reversalExtreme := some (if 0 < gain d e x.raw then x.raw else e) }) direction rfl]
      simp only [decide_eq_false_iff_not, Int.not_le]
      split
      · simp [gain_self]
      · exact ahead

/-- R93 to R98: a sample that meets no kind. -/
theorem Channel.detected_none {x : Channel} (upper : x.upperOpen = false) (lower : x.lowerOpen = false)
    (drive : x.driveFault = false) (load : x.overloaded = false) (slack : x.live = true → x.config.underload ≤ x.load)
    (forward : x.moveExtreme.reversed = false) (near : x.runsAway = false) (timely : x.progressTimer ≠ .expired) :
    x.detected = [] := by
  have taut : (x.live && decide (x.load < x.config.underload)) = false := by
    cases live : x.live with
    | false => rfl
    | true => simpa using slack live
  have watch : (x.progressTimer == .expired) = false := by simpa using timely
  simp [Channel.detected, upper, lower, drive, load, taut, forward, near, watch]

theorem Part.detect_none {p : Part} {c : Chan} (calm : (p.chan c).detected = []) :
    p.detect c = p.modChan c fun x => x.moveExtreme.moveProgress := by
  unfold Part.detect
  rw [calm]
  rfl

/-! ### The lease of a jog (R23, R164) -/

theorem Part.judgeDisarm_fires {p : Part} (flag : p.ctl.silenceDisarm = true) (armed : p.ctl.mode = .armed)
    (still : ∀ c, (p.chan c).mover = .none) :
    p.judgeDisarm = (p.modCtl fun m => { m with silenceDisarm := false }).changeMode .standby .silence := by
  unfold Part.judgeDisarm
  exact if_pos (by simp [flag, armed, p.firstMover_none.mpr still])

theorem Part.judgeDisarm_waits {p : Part} {c : Chan} (moved : (p.chan c).mover ≠ .none) : p.judgeDisarm = p := by
  unfold Part.judgeDisarm
  refine if_neg fun h => moved ?_
  simp only [Bool.and_eq_true, Option.isNone_iff_eq_none, Part.firstMover_none] at h
  exact h.2 c

theorem ModeCtl.setPower_flag (m : ModeCtl) (on : Bool) : (m.setPower on).silenceDisarm = m.silenceDisarm := by
  unfold ModeCtl.setPower
  split
  · split <;> rfl
  · rfl

theorem Part.changeMode_codes (p : Part) (new : DeviceMode) (cause : ModeCause) :
    (p.changeMode new cause).codes = { p.codes with mode := some (.modeChange new p.ctl.mode cause) } := by
  rw [Part.changeMode_eq]
  rfl

/-- R164: what the silence disarm leaves of the Mode Controller and of the MODE code. -/
theorem Part.judgeDisarm_disarmed {p : Part} (flag : p.ctl.silenceDisarm = true) (armed : p.ctl.mode = .armed)
    (still : ∀ c, (p.chan c).mover = .none) :
    p.judgeDisarm.ctl.mode = .standby ∧ p.judgeDisarm.ctl.silenceDisarm = false
      ∧ p.judgeDisarm.codes.mode = some (.modeChange .standby .armed .silence) := by
  rw [Part.judgeDisarm_fires flag armed still]
  refine ⟨?_, ?_, ?_⟩
  · rw [Part.changeMode_ctl, ModeCtl.setPower_mode]
  · rw [Part.changeMode_ctl, ModeCtl.setPower_flag]
    rfl
  · rw [Part.changeMode_codes, Part.modCtl_ctl, armed]

theorem jogLeaseExpiryEndsTheJog : Claims.JogLeaseExpiryEndsTheJog := by
  intro c s free out live
  have ended : exec (.jogLeaseExpiry c) s = .next { s with part := (s.part.endJog c).drive } := by
    have taking : exec (.jogLeaseExpiry c) s = execJogLeaseExpiry c s := rfl
    rw [taking, execJogLeaseExpiry, State.take_next, Part.awake_of_free free, if_pos out]
  have chan : (s.part.endJog c).chan c = (s.part.chan c).jogEnded := by
    rw [Part.endJog_chan, if_pos rfl, Channel.jogEnded_eq live]
  have mover (e : Chan) : (((s.part.modChan c Channel.stop).modChan c Channel.dropMover).chan e).mover
      = if e = c then .none else (s.part.chan e).mover := by
    rw [Part.modChan_modChan, Part.modChan_chan]
    split <;> simp
  refine ⟨_, ended, ?_, fun e other => ?_, ?_, ?_, ((s.part.endJog_kept c).mono (by simp)).drive, fun clear => ?_, fun flag armed => ?_⟩
  · rw [Part.drive_chan, chan]
  · rw [Part.drive_chan, Part.endJog_chan, if_neg other]
  · exact (Part.drive_safe (by rw [chan]; rfl)).1
  · exact (Part.drive_safe (by rw [chan]; rfl)).2
  · exact ((Part.endJog_clear_kept clear c).mono (by simp)).drive
  · refine ⟨fun still => ?_, fun ⟨e, other, moved⟩ => ?_⟩
    · rw [Part.drive_ctl, Part.drive_codes]
      refine Part.judgeDisarm_disarmed flag armed fun e => ?_
      rw [mover]
      split
      · rfl
      · next other => exact still e other
    · have waits : s.part.endJog c = (s.part.modChan c Channel.stop).modChan c Channel.dropMover :=
        Part.judgeDisarm_waits (c := e) (by rw [mover, if_neg other]; exact moved)
      rw [Part.drive_ctl, waits]
      rfl

/-! ### The soft limit (R22, R23) -/

theorem softLimitEndsTheJog : Claims.SoftLimitEndsTheJog := by
  intro c y j l s free there kind live mover jog referenced reached upper lower drive load unwatched
  have ungrouped (g : Grp) : (s.part.chan c).mover ≠ .group g := by simp [mover]
  have moving : (s.part.chan c).state ≠ .stopping := by rcases live with e | e <;> simp [e]
  let x := ((s.part.chan c).takeSample (deliver y)).quiet.confirm
  have onward : ((s.part.chan c).takeSample (deliver y)).Onward x := (Channel.quiet_onward _).trans (Channel.confirm_onward _)
  have xlive : x.state = .starting ∨ x.state = .moving := by
    have : x.live = true := onward.live.trans (by rcases live with e | e <;> simp [Channel.live, Channel.takeSample, e])
    simpa [Channel.live] using this
  have confirmed : ((s.part.sampled c y).judgeStandstill c).judgeConfirm c
      = (s.part.sampled c y).modChan c fun x => x.quiet.confirm := by
    rw [Part.judgeStandstill_quiet (by rw [Part.sampled_chan_self]; exact moving) fun g grouped => ?_,
      Part.judgeConfirm_ungrouped fun g => ?_, Part.modChan_modChan]
    · rw [Part.modChan_chan_self, (Channel.quiet_onward _).mover, Part.sampled_chan_self]
      exact ungrouped g
    · rw [Part.sampled_chan_self] at grouped
      exact absurd grouped (ungrouped g)
  have limited : x.jogLimited = true := by
    unfold Channel.jogLimited Channel.beyondSoft Channel.pos
    rw [onward.jog, onward.referenced, onward.config, onward.raw, onward.offset]
    show (match (s.part.chan c).jog with | some _ => _ | none => _) = true
    rw [jog]
    cases direction : j.direction <;> simpa [direction, Channel.takeSample, referenced, deliver] using reached
  have here : (((s.part.sampled c y).modChan c fun x => x.quiet.confirm).chan c) = x := by
    rw [Part.modChan_chan_self, Part.sampled_chan_self]
  have ended : (((s.part.sampled c y).modChan c fun x => x.quiet.confirm).endJog c).chan c = x.jogEnded := by
    rw [Part.endJog_chan, if_pos rfl, here, Channel.jogEnded_eq xlive]
  have calm : x.jogEnded.detected = [] := by
    refine Channel.detected_none (onward.upperOpen.trans upper) (onward.lowerOpen.trans lower) (onward.driveFault.trans drive) ?_
      (by simp [Channel.jogEnded, Channel.live]) (Channel.moveExtreme_unreversed (by simp [Channel.jogEnded]))
      (by simp [Channel.jogEnded, Channel.runsAway]) (by simp [Channel.jogEnded])
    refine decide_eq_false (Nat.not_lt.mpr ?_)
    show 100 * x.load ≤ x.config.wll * x.config.overloadPct
    rw [onward.config, onward.load]
    exact load
  have same : x.jogEnded.moveExtreme.moveProgress = x.jogEnded := by
    simp [Channel.moveExtreme, Channel.moveProgress, Channel.jogEnded]
  have taken : s.part.sampleArrives c (deliver y) = ((s.part.sampled c y).modChan c fun x => x.quiet.confirm).endJog c := by
    rw [Part.sampleArrives_unwatched there kind unwatched, Part.judged, confirmed, Part.judgeJogLimit_eq, here, if_pos limited,
      Part.detect_none (by rw [ended]; exact calm), Part.modChan_self (by rw [ended]; exact same)]
  refine ⟨_, exec_feedbackArrival free c y, ?_⟩
  dsimp only
  rw [taken, Part.drive_chan, ended]
  refine ⟨rfl, rfl, rfl, rfl, rfl, onward.fault, ?_, (Part.drive_safe (by rw [ended]; rfl)).1,
    (Part.drive_safe (by rw [ended]; rfl)).2, fun e other => ?_, ?_⟩
  · show (if x.releaseOnEnd = true then none else x.owner) = _
    rw [onward.releaseOnEnd, onward.owner]
    rfl
  · rw [Part.drive_chan, Part.endJog_chan, if_neg other, Part.modChan_chan_ne _ _ _ _ other, Part.sampled_chan_ne other]
    exact ⟨rfl, rfl⟩
  · exact ((((s.part.sampled_kept c y).mono (by simp)).trans ((Part.modChan_kept _ _ _).mono (by simp))).trans
      ((Part.endJog_kept _ c).mono (by simp))).drive

/-- Settles O36: a JOG, the lease and the soft limit end a jog in one way. -/
theorem jogRenewsAndEnds : Obligations.JogRenewsAndEnds := ⟨jogRenewsOrEnds, jogLeaseExpiryEndsTheJog, softLimitEndsTheJog⟩

end Sys2Proof.Machine
end

section
set_option Elab.async false
/-! PROOFS. LATCH and READ_SNAPSHOT, and the readback of groups, cue queues and tracks (R179 to R185, R189). -/

namespace Sys2Proof.Machine

/-! ### Readback (R183 to R185) -/

theorem grpOf_above {b : Byte} (h : 8 ≤ b.toNat) : grpOf b = none := dif_neg (by omega)

theorem trkOf_above {b : Byte} (h : 2 ≤ b.toNat) : trkOf b = none := dif_neg (by omega)

theorem withGrp_above {b : Byte} (h : 8 ≤ b.toNat) (rest : Grp → Verdict) : withGrp b rest = .refused .range noIndex := by
  rw [withGrp, grpOf_above h]

theorem withTrk_above {b : Byte} (h : 2 ≤ b.toNat) (rest : Trk → Verdict) : withTrk b rest = .refused .range noIndex := by
  rw [withTrk, trkOf_above h]

section Readback
variable {p : Part} {l : Link} {kind tier : Byte} {b : Byte} {judge : Judge}

/-- A readback whose judge sends data and leaves the part as it was. -/
theorem Part.readback_answers (ready : p.Ready l) (low : tier.toNat ≤ 7) {data : List Byte}
    (judged : judge l (p.effectiveTier l tier) [b] (p.frameTaken l) = .accepted data (p.frameTaken l)) :
    p.Answers (p.request l kind tier [b] (lengthIs 1) judge) l kind data
      [.channels, .ports, .groups, .queues, .clock, .tracks, .codes] := by
  rw [Part.judged_accepts ready (by simp) rfl low judged]
  exact Part.answers_of_kept (.refl _ _) _ _

end Readback

@[simp] theorem Part.frameTaken_readTrack (p : Part) (l : Link) (t : Trk) : (p.frameTaken l).readTrack t = p.readTrack t := by
  simp [Part.readTrack]

/-- Settles O60: each judge sends the record's bytes and changes nothing. -/
theorem readbackChangesNothing : Obligations.ReadbackChangesNothing := by
  intro l tier b s ready low
  refine ⟨?_, fun above => ⟨⟨_, rfl, ?_⟩, ⟨_, rfl, ?_⟩⟩, ?_, fun above => ⟨_, rfl, ?_⟩⟩
  · rintro g rfl
    refine ⟨⟨_, rfl, ?_⟩, ⟨_, rfl, ?_⟩⟩
    · refine Part.readback_answers ready low ?_
      rw [judgeReadGroup, withGrp_byteOf, Part.frameTaken_group]
      rfl
    · refine Part.readback_answers ready low ?_
      rw [judgeReadCues, withGrp_byteOf, Part.frameTaken_queue]
      rfl
  · exact Part.judged_refuses ready (by simp) rfl low (withGrp_above above _)
  · exact Part.judged_refuses ready (by simp) rfl low (withGrp_above above _)
  · rintro t rfl
    refine ⟨_, rfl, ?_⟩
    refine Part.readback_answers ready low ?_
    rw [judgeReadTrack, withTrk_byteOf, Part.frameTaken_readTrack]
    have single (set : List Grp) : (set.flatMap fun g => [byteOf g.val]) = set.map fun g => byteOf g.val := List.map_eq_flatMap.symm
    unfold Part.readTrack currentBytes originBytes wrList
    simp only [single]
    rfl
  · exact Part.judged_refuses ready (by simp) rfl low (withTrk_above above _)

/-! ### LATCH (R180) -/

/-- Two loops are one where their turns are the same on every part that a property holds of. -/
theorem Part.forEach_congr {α : Type} {P : Part → Prop} {f h : Part → α → Part} {l : List α} {p : Part} (start : P p)
    (keeps : ∀ q x, P q → P (f q x)) (same : ∀ q x, P q → f q x = h q x) : p.forEach l f = p.forEach l h := by
  induction l generalizing p with
  | nil => rfl
  | cons x l ih => rw [Part.forEach_cons, Part.forEach_cons, ← same p x start, ih (keeps p x start)]

theorem Part.forEach_modChan_kept {α : Type} (p : Part) (l : List α) (key : α → Chan) (f : α → Channel → Channel) :
    Kept p (p.forEach l fun q x => q.modChan (key x) (f x))
      [.ctl, .link .a, .link .b, .ports, .samples, .groups, .queues, .clock, .tracks, .codes] :=
  Part.forEach_inv (P := fun q => Kept p q _) (.refl p _) fun _ _ _ kept => kept.trans (Part.modChan_kept _ _ _)

/-- A count over a list of channels without repeats is a count over all channels. -/
theorem countP_allChans {targets : List Chan} (distinct : targets.Nodup) (test : Chan → Bool) :
    targets.countP test = allChans.countP fun c => decide (c ∈ targets) && test c := by
  have same : targets.Perm (allChans.filter fun c => decide (c ∈ targets)) :=
    (List.perm_ext_iff_of_nodup distinct (allChans_nodup.filter _)).mpr fun c => by simp
  rw [same.countP_eq, List.countP_filter]
  exact List.countP_congr fun c _ => by simp [and_comm]

/-- The sum of what two tests find is the sum of two counts. -/
theorem sum_map_tests (targets : List Chan) (f h : Chan → Bool) :
    (targets.map fun c => (if f c then 1 else 0) + (if h c then 1 else 0)).sum = targets.countP f + targets.countP h := by
  induction targets with
  | nil => rfl
  | cons c l ih =>
    rw [List.map_cons, List.sum_cons, ih, List.countP_cons, List.countP_cons]
    omega

/-- R187: the selector codes of LATCH. -/
theorem selectorOf_eq {sel : Byte} (h : (sel = 1 ∨ sel = 3) ∨ sel = 2 ∨ sel = 3) :
    selectorOf sel = some (decide (sel = 1 ∨ sel = 3), decide (sel = 2 ∨ sel = 3)) := by
  rcases h with (rfl | rfl) | rfl | rfl <;> decide

section Latch
variable {p : Part} {targets : List Chan} {st po : Bool}

theorem Part.latch_eq (p : Part) (targets : List Chan) (st po : Bool) :
    p.latch targets st po = .accepted
      [byteOf (targets.countP (fun c => st && (p.chan c).statusSlot.isNone)
        + targets.countP fun c => po && (p.chan c).positionSlot.isNone)]
      (p.forEach targets fun q c => q.modChan c (Channel.latch st po p.clock.value)) := by
  have loop : (p.forEach targets fun q c => q.modChan c (Channel.latch st po q.clock.value))
      = p.forEach targets fun q c => q.modChan c (Channel.latch st po p.clock.value) :=
    Part.forEach_congr (P := fun q => q.clock = p.clock) rfl (fun q c h => h) fun q c h => by rw [h]
  unfold Part.latch
  rw [← sum_map_tests, loop]
  rfl

end Latch

section Snapshot
variable {s : State} {l : Link} {tier : Byte}

/-- A LATCH of some channels, none of them twice. -/
theorem latch_answers (ready : s.part.Ready l) (low : tier.toNat ≤ 7) {form a b sel : Byte} {targets : List Chan} {st po : Bool}
    (distinct : targets.Nodup)
    (judged : judgeLatch l (s.part.effectiveTier l tier) [form, a, b, sel] (s.part.frameTaken l)
      = (s.part.frameTaken l).latch targets st po) :
    Gives (.latch l tier [form, a, b, sel]) s fun q =>
      s.part.Answers q l 0x40
        [byteOf ((allChans.countP fun c => decide (c ∈ targets) && (st && (s.part.chan c).statusSlot.isNone))
          + allChans.countP fun c => decide (c ∈ targets) && (po && (s.part.chan c).positionSlot.isNone))]
        [.ports, .groups, .queues, .clock, .tracks, .codes]
      ∧ ∀ c, q.chan c = if c ∈ targets then (s.part.chan c).latch st po s.part.clock.value else s.part.chan c := by
  refine ⟨_, rfl, ?_⟩
  rw [Part.latch_eq] at judged
  dsimp only
  rw [Part.judged_accepts ready (by simp) rfl low judged, countP_allChans distinct, countP_allChans distinct]
  refine ⟨?_, fun c => ?_⟩
  · simp only [Part.frameTaken_chan]
    exact Part.answers_of_kept ((Part.forEach_modChan_kept _ _ id _).mono (by simp)) _ _
  · rw [Part.answer_chan, Part.forEach_modChan _ _ (fun _ => Channel.latch st po (s.part.frameTaken l).clock.value) distinct,
      Part.frameTaken_chan, Part.frameTaken_clock]

end Snapshot

theorem spanMembers_long (f e : Chan) : Config.maxSnapshot < (spanMembers f e).length ↔ f.val + 8 ≤ e.val := by
  revert f e
  decide

/-- Settles O59: the targets' slots are captured, or freed, channel by channel. -/
theorem latchCapturesAndReadSnapshotFrees : Obligations.LatchCapturesAndReadSnapshotFrees := by
  intro l tier b sel f e g s ready low status position latched count lane
  have latched_eq (x : Channel) : x.latch (decide status) (decide position) s.part.clock.value = latched x := by
    simp only [latched, Channel.latch, Channel.statusRecord, Channel.positionRecord, Channel.position, Channel.pos,
      Bool.and_eq_true, decide_eq_true_eq, Option.isNone_iff_eq_none]
  have counted {targets : List Chan} {test : Chan → Bool} (same : ∀ c, decide (c ∈ targets) = test c) :
      (allChans.countP fun c => decide (c ∈ targets) && (decide status && (s.part.chan c).statusSlot.isNone))
        + (allChans.countP fun c => decide (c ∈ targets) && (decide position && (s.part.chan c).positionSlot.isNone))
      = count test := by
    have none_ {α : Type} (o : Option α) : o.isNone = decide (o = none) := by cases o <;> simp
    simp only [same, none_, ← Bool.decide_and]
    rfl
  refine ⟨fun selected first last => ?_, fun selected defined distinct => ?_, fun first last short => ⟨_, rfl, ?_⟩,
    fun first last long => ⟨_, rfl, ?_⟩⟩
  · have judged : judgeLatch l (s.part.effectiveTier l tier) [0, byteOf f.val, byteOf e.val, sel] (s.part.frameTaken l)
        = (s.part.frameTaken l).latch (spanMembers f e) (decide status) (decide position) := by
      rw [judgeLatch, if_pos rfl, Part.withSpan_byteOf (by simpa using first) (by simpa using last), withSelector,
        selectorOf_eq selected]
    obtain ⟨q, runs, answers, chans⟩ := latch_answers ready low (spanMembers_nodup f e) judged
    refine ⟨q, runs, ?_, fun c => ?_⟩
    · rwa [counted (test := fun c => decide (f ≤ c ∧ c ≤ e)) fun c => by simp [mem_spanMembers]] at answers
    · rw [chans, latched_eq]
      exact if_congr (mem_spanMembers f e c) rfl rfl
  · have judged : judgeLatch l (s.part.effectiveTier l tier) [1, byteOf g.val, b, sel] (s.part.frameTaken l)
        = (s.part.frameTaken l).latch ((s.part.group g).lanes.map (·.channel)) (decide status) (decide position) := by
      have there : ((s.part.group g).state == .empty) = false := by simpa using defined
      rw [judgeLatch, if_neg (by decide), if_pos rfl, withGrp_byteOf, withSelector, selectorOf_eq selected]
      dsimp only
      rw [Part.frameTaken_group, there]
      rfl
    obtain ⟨q, runs, answers, chans⟩ := latch_answers ready low distinct judged
    have member (c : Chan) : c ∈ (s.part.group g).lanes.map (·.channel) ↔ lane c = true := by simp [lane]
    refine ⟨q, runs, ?_, fun c => ?_⟩
    · rwa [counted (test := lane) fun c => by rw [Bool.eq_iff_iff, decide_eq_true_eq, member]] at answers
    · rw [chans, latched_eq]
      exact if_congr (member c) rfl rfl
  · have inside : decide (Config.maxSnapshot < (spanMembers f e).length) = false := by
      rw [decide_eq_false_iff_not, spanMembers_long]
      omega
    have judged : judgeReadSnapshot l (s.part.effectiveTier l tier) [byteOf f.val, byteOf e.val] (s.part.frameTaken l)
        = .accepted (wrList (fun c => ((s.part.frameTaken l).chan c).snapshot c (s.part.frameTaken l).clock.value) (spanMembers f e))
            ((s.part.frameTaken l).forEach (spanMembers f e) fun p c => p.modChan c Channel.freeSlots) := by
      rw [judgeReadSnapshot, Part.withSpan_byteOf (by simpa using first) (by simpa using last), inside]
      rfl
    have members : (allChans.filter fun c => decide (f ≤ c ∧ c ≤ e)) = spanMembers f e := by
      simp [spanMembers, Bool.decide_and]
    dsimp only
    rw [Part.judged_accepts ready (by simp) rfl low judged, members]
    refine ⟨?_, fun c => ?_⟩
    · simp only [Part.frameTaken_chan, Part.frameTaken_clock]
      exact Part.answers_of_kept ((Part.forEach_modChan_kept _ _ id fun _ => Channel.freeSlots).mono (by simp)) _ _
    · rw [Part.answer_chan, Part.forEach_modChan _ _ (fun _ => Channel.freeSlots) (spanMembers_nodup f e), Part.frameTaken_chan]
      exact if_congr (mem_spanMembers f e c) rfl rfl
  · have bad : decide (Config.maxSnapshot < (spanMembers f e).length) = true := by
      rw [decide_eq_true_eq, spanMembers_long]
      exact long
    refine Part.judged_refuses ready (by simp) rfl low ?_
    have index : byteOf f.val + 8 = byteOf (f.val + 8) := (BitVec.ofNat_add ..).symm
    rw [judgeReadSnapshot, Part.withSpan_byteOf (by simpa using first) (by simpa using last), bad, index]
    rfl

end Sys2Proof.Machine
end

section
set_option Elab.async false
/-! PROOFS. The arithmetic of lanes (R48, R49, R53, R70 to R73). -/

namespace Sys2Proof.Machine

/-! ### Travel (R48, R49) -/

/-- R48: a magnitude shifted right is the quotient that rounds toward zero. -/
theorem shifted_eq_tdiv (d : Int) (n : Nat) :
    (if d < 0 then -((d.natAbs / 2 ^ n : Nat) : Int) else ((d.natAbs / 2 ^ n : Nat) : Int)) = d.tdiv (2 ^ n) := by
  have power : ((2 ^ n : Nat) : Int) = 2 ^ n := by push_cast; rfl
  by_cases negative : d < 0
  · rw [if_pos negative, Int.ofNat_tdiv, power, ← Int.neg_tdiv]
    congr 1
    omega
  · rw [if_neg negative, Int.ofNat_tdiv, power]
    congr 1
    omega

theorem laneTravelFollowsSignAndRatio : Claims.LaneTravelFollowsSignAndRatio := by
  intro ln d
  refine ⟨fun still => ?_, fun follow small => ?_, fun oppose small => ?_⟩
  · unfold Lane.travel
    rcases still with hold | long
    · rw [hold]
      simp
    · exact if_pos long
  · unfold Lane.travel
    rw [if_neg (by omega), follow]
    exact shifted_eq_tdiv d ln.ratio
  · unfold Lane.travel
    rw [if_neg (by omega), oppose]
    exact congrArg Neg.neg (shifted_eq_tdiv d ln.ratio)

/-! ### Leads (R70) -/

theorem leadIsTheTravelBeyondTheLaggard : Claims.LeadIsTheTravelBeyondTheLaggard := by
  intro a b
  refine ⟨fun still => ⟨if_pos still, if_pos still⟩, fun same => ?_, fun moving => if_neg moving, fun moving other => ?_⟩
  · unfold Progress.lead
    split
    · rfl
    · exact if_pos same
  · unfold Progress.lead
    rw [if_neg moving]
    exact if_neg other

theorem Part.progress_getElem? (p : Part) (g : Grp) (m : MoveRecord) {n : Nat} {ln : Lane} {r : LaneRecord}
    (lane : (p.group g).lanes[n]? = some ln) (entry : m.lanes[n]? = some r) :
    (p.progress g m)[n]? = some { index := n, record := r, done := r.travelled (p.chan ln.channel).pos } := by
  have pair : ((p.group g).lanes.zip m.lanes)[n]? = some (ln, r) := by rw [List.getElem?_zip_eq_some]; exact ⟨lane, entry⟩
  simp [Part.progress, List.getElem?_zipIdx, pair]

theorem leadsAreOfTheTravelledDistances : Claims.LeadsAreOfTheTravelledDistances := by
  intro p g m
  refine ⟨by simp [Part.leads, Part.progress], fun n ln r lane entry => ?_⟩
  have found := p.progress_getElem? g m lane entry
  refine ⟨found, ?_⟩
  unfold Part.leads
  dsimp only
  rw [List.getElem?_map, found]
  rfl

/-! ### The laggard (R70) -/

/-- R70: the lane has the smallest fraction among some lanes, and those that share it have no lower index. -/
def Progress.Least (b : Progress) (l : List Progress) : Prop :=
  ∀ a ∈ l, b.done * a.record.reach ≤ a.done * b.record.reach
    ∧ (a.index < b.index → b.done * a.record.reach < a.done * b.record.reach)

/-- One step of the search for the laggard. -/
def slower (best : Option Progress) (a : Progress) : Option Progress :=
  match best with
  | none => some a
  | some b => if a.behind b then some a else some b

theorem laggard_eq (l : List Progress) : laggard l = (l.filter fun a => a.record.onWay).foldl slower none := rfl

/-- Fractions of positive travels are in a transitive order. -/
theorem fraction_trans {x y z p q r : Int} (hq : 0 < q) (hp : 0 ≤ p) (hr : 0 ≤ r) (xy : x * q ≤ y * p) (yz : y * r ≤ z * q) :
    x * r ≤ z * p := by
  refine Int.le_of_mul_le_mul_right ?_ hq
  calc x * r * q = x * q * r := by ring
    _ ≤ y * p * r := Int.mul_le_mul_of_nonneg_right xy hr
    _ = y * r * p := by ring
    _ ≤ z * q * p := Int.mul_le_mul_of_nonneg_right yz hp
    _ = z * p * q := by ring

theorem fraction_trans_lt {x y z p q r : Int} (hq : 0 < q) (hp : 0 < p) (hr : 0 ≤ r) (xy : x * q ≤ y * p) (yz : y * r < z * q) :
    x * r < z * p := by
  refine Int.lt_of_mul_lt_mul_right ?_ hq.le
  calc x * r * q = x * q * r := by ring
    _ ≤ y * p * r := Int.mul_le_mul_of_nonneg_right xy hr
    _ = y * r * p := by ring
    _ < z * q * p := Int.mul_lt_mul_of_pos_right yz hp
    _ = z * p * q := by ring

theorem fraction_lt_trans {x y z p q r : Int} (hq : 0 < q) (hp : 0 ≤ p) (hr : 0 < r) (xy : x * q < y * p) (yz : y * r ≤ z * q) :
    x * r < z * p := by
  refine Int.lt_of_mul_lt_mul_right ?_ hq.le
  calc x * r * q = x * q * r := by ring
    _ < y * p * r := Int.mul_lt_mul_of_pos_right xy hr
    _ = y * r * p := by ring
    _ ≤ z * q * p := Int.mul_le_mul_of_nonneg_right yz hp
    _ = z * p * q := by ring

/-- The search ends at the least lane that it has met. -/
theorem foldl_slower (l : List Progress) (b : Progress) (positive : ∀ a ∈ b :: l, 0 < (a.record.reach : Int))
    (sorted : (b :: l).Pairwise fun a c => a.index < c.index) :
    ∃ c, l.foldl slower (some b) = some c ∧ c ∈ b :: l ∧ c.Least (b :: l) := by
  induction l generalizing b with
  | nil => exact ⟨b, rfl, by simp, by simp [Progress.Least]⟩
  | cons a l ih =>
    have hb := positive b (by simp)
    have ha := positive a (by simp)
    obtain ⟨first, rest⟩ := List.pairwise_cons.mp sorted
    obtain ⟨second, later⟩ := List.pairwise_cons.mp rest
    rw [List.foldl_cons]
    by_cases behind : a.behind b = true
    · have ahead : a.done * b.record.reach < b.done * a.record.reach := by simpa [Progress.behind] using behind
      obtain ⟨c, found, mem, least⟩ := ih a (fun x hx => positive x (List.mem_cons_of_mem _ hx)) rest
      have hc := positive c (List.mem_cons_of_mem _ mem)
      refine ⟨c, by rw [show slower (some b) a = some a from if_pos behind]; exact found, List.mem_cons_of_mem _ mem, ?_⟩
      intro x hx
      rcases List.mem_cons.mp hx with rfl | later
      · have strict := fraction_trans_lt ha hc hb.le (least a (by simp)).1 ahead
        exact ⟨strict.le, fun _ => strict⟩
      · exact least x later
    · have ahead : b.done * a.record.reach ≤ a.done * b.record.reach := by simpa [Progress.behind] using behind
      have sorted' : (b :: l).Pairwise fun a c => a.index < c.index :=
        List.pairwise_cons.mpr ⟨fun x hx => first x (List.mem_cons_of_mem _ hx), later⟩
      have sub {x : Progress} (hx : x ∈ b :: l) : x ∈ b :: a :: l := by
        rcases List.mem_cons.mp hx with rfl | h
        · simp
        · simp [h]
      obtain ⟨c, found, mem, least⟩ := ih b (fun x hx => positive x (sub hx)) sorted'
      have hc := positive c (sub mem)
      refine ⟨c, by rw [show slower (some b) a = some b from if_neg behind]; exact found, sub mem, ?_⟩
      intro x hx
      rcases List.mem_cons.mp hx with rfl | hx
      · exact least x (by simp)
      rcases List.mem_cons.mp hx with rfl | later
      · obtain ⟨weak, strict⟩ := least b (by simp)
        exact ⟨fraction_trans hb hc.le ha.le weak ahead, fun before =>
          fraction_lt_trans hb hc.le ha (strict (lt_trans (first x (by simp)) before)) ahead⟩
      · exact least x (by simp [later])

theorem Part.progress_sorted (p : Part) (g : Grp) (m : MoveRecord) :
    (p.progress g m).Pairwise fun a c => a.index < c.index := by
  unfold Part.progress
  rw [List.pairwise_map]
  have indices := List.pairwise_lt_range' (s := 0) (n := ((p.group g).lanes.zip m.lanes).length)
  rw [← List.zipIdx_map_snd 0, List.pairwise_map] at indices
  exact indices

theorem LaneRecord.onWay_iff (r : LaneRecord) : r.onWay = true ↔ r.travel ≠ 0 ∧ r.state ≠ .arrived := by
  simp [LaneRecord.onWay, and_comm]

/-- R70: the laggard of lanes in the order of their indices. -/
theorem laggard_iff {l : List Progress} (sorted : l.Pairwise fun a c => a.index < c.index) (b : Progress) :
    laggard l = some b ↔ b ∈ l.filter (fun a => a.record.onWay) ∧ b.Least (l.filter fun a => a.record.onWay) := by
  have sorted' := sorted.filter fun a => a.record.onWay
  have positive : ∀ a ∈ l.filter (fun a => a.record.onWay), 0 < (a.record.reach : Int) := fun a mem => by
    have := ((LaneRecord.onWay_iff _).mp (List.mem_filter.mp mem).2).1
    simp only [LaneRecord.reach]
    omega
  rw [laggard_eq]
  generalize l.filter (fun a => a.record.onWay) = k at sorted' positive
  cases k with
  | nil => simp
  | cons a k =>
    obtain ⟨c, found, mem, least⟩ := foldl_slower k a positive sorted'
    rw [List.foldl_cons, show slower none a = some a from rfl, found, Option.some.injEq]
    refine ⟨fun same => same ▸ ⟨mem, least⟩, fun ⟨bmem, bleast⟩ => ?_⟩
    rcases lt_trichotomy c.index b.index with less | same | more
    · exact absurd (bleast c mem).2 fun strict => absurd ((strict less).trans_le (least b bmem).1) (lt_irrefl _)
    · have distinct : ((a :: k).map (·.index)).Nodup := List.pairwise_map.mpr (sorted'.imp fun h => h.ne)
      exact List.inj_on_of_nodup_map distinct mem bmem same
    · exact absurd (least b bmem).2 fun strict => absurd ((strict more).trans_le (bleast c mem).1) (lt_irrefl _)

theorem laggard_none {l : List Progress} : laggard l = none ↔ ∀ a ∈ l, a.record.onWay = false := by
  have stays (k : List Progress) (b : Progress) : k.foldl slower (some b) ≠ none := by
    induction k generalizing b with
    | nil => simp
    | cons a k ih =>
      rw [List.foldl_cons]
      unfold slower
      dsimp only
      split
      · exact ih a
      · exact ih b
  rw [laggard_eq]
  have empty : (∀ a ∈ l, a.record.onWay = false) ↔ l.filter (fun a => a.record.onWay) = [] := by simp
  rw [empty]
  cases l.filter (fun a => a.record.onWay) with
  | nil => simp
  | cons a k => exact iff_of_false (stays k a) (by simp)

theorem laggardHasTheSmallestFraction : Claims.LaggardHasTheSmallestFraction := by
  intro p g m l onWay
  have way (a : Progress) : a.record.onWay = true ↔ onWay a := LaneRecord.onWay_iff _
  refine ⟨?_, fun b => ?_⟩
  · rw [laggard_none]
    exact forall₂_congr fun a _ => by rw [← way, Bool.not_eq_true]
  · rw [laggard_iff (p.progress_sorted g m), List.mem_filter, way, and_assoc]
    refine and_congr_right fun _ => and_congr_right fun _ => ?_
    unfold Progress.Least
    simp only [List.mem_filter, way, and_imp]
    rfl

/-! ### Trim hold, sync loss and load shift (R53, R71 to R73) -/

theorem trimAndSyncJudgeTheLead : Claims.TrimAndSyncJudgeTheLead := by
  refine ⟨fun window lead => ⟨?_, ?_, rfl⟩, fun r => ⟨rfl, rfl, rfl, rfl⟩, fun p g leads i => ?_⟩
  · by_cases above : (window : Int) < lead <;> simp [trimOf, above]
  · by_cases below : 2 * lead ≤ window <;> simp [trimOf, below]
  · rw [Part.syncLost, List.findIdx?_eq_some_iff_getElem]
    simp only [decide_eq_true_eq, List.getElem?_eq_some_iff]
    constructor
    · rintro ⟨short, above, before⟩
      refine ⟨⟨_, ⟨short, rfl⟩, above⟩, ?_⟩
      rintro j x less ⟨_, rfl⟩
      exact not_lt.mp (before j less)
    · rintro ⟨⟨x, ⟨short, rfl⟩, above⟩, before⟩
      exact ⟨short, above, fun j less => not_lt.mpr (before j _ less ⟨less.trans short, rfl⟩)⟩

/-- Settles O48: each definition computes what the manual says of it. -/
theorem laneArithmeticIsExact : Obligations.LaneArithmeticIsExact :=
  ⟨laneTravelFollowsSignAndRatio, leadIsTheTravelBeyondTheLaggard, leadsAreOfTheTravelledDistances,
    laggardHasTheSmallestFraction, fun tolerance baseline load => by simp [loadShifted], trimAndSyncJudgeTheLead⟩

end Sys2Proof.Machine
end

section
set_option Elab.async false
/-! PROOFS. DEFINE_GROUP, DELETE_GROUP, CANCEL and FLUSH_CUES (R54 to R57, R89, R128). -/

namespace Sys2Proof.Machine

/-! ### Requests that touch one group or one queue -/

theorem Part.modGroup_kept (p : Part) (g : Grp) (f : Group → Group) :
    Kept p (p.modGroup g f)
      [.ctl, .link .a, .link .b, .channels, .ports, .samples, .queues, .clock, .tracks, .codes] := by
  simp [Kept, Block.Kept]

theorem Part.setQueue_kept (p : Part) (g : Grp) (x : CueQueue) :
    Kept p (p.setQueue g x)
      [.ctl, .link .a, .link .b, .channels, .ports, .samples, .groups, .clock, .tracks, .codes] := by
  simp [Kept, Block.Kept]

theorem Part.modQueue_kept (p : Part) (g : Grp) (f : CueQueue → CueQueue) :
    Kept p (p.modQueue g f)
      [.ctl, .link .a, .link .b, .channels, .ports, .samples, .groups, .clock, .tracks, .codes] := p.setQueue_kept g _

theorem Part.standsDown_iff (p : Part) : p.standsDown = true ↔ ¬p.Prepared := by
  unfold Part.standsDown Part.Prepared
  cases p.ctl.mode <;> decide

theorem Part.standsDown_prepared {p : Part} (h : p.Prepared) : p.standsDown = false := by
  rw [← Bool.not_eq_true, p.standsDown_iff]
  exact not_not.mpr h

@[simp] theorem Part.frameTaken_standsDown (p : Part) (l : Link) : (p.frameTaken l).standsDown = p.standsDown := by
  simp [Part.standsDown]

@[simp] theorem Part.frameTaken_firstLane (p : Part) (l : Link) (g : Grp) (bad : Channel → Bool) :
    (p.frameTaken l).firstLane g bad = p.firstLane g bad := by simp [Part.firstLane]

/-! ### The lanes of a group (R33, R35) -/

section Lanes
variable {p : Part} {g : Grp} {l : Link} {tier n : Nat}

/-- The first lane of a group whose channel meets a condition. -/
theorem Part.firstLane_of_first {test : Channel → Bool} {bad : Channel → Prop} (first : p.FirstLane g n bad)
    (same : ∀ x, test x = true ↔ bad x) : p.firstLane g test = some (byteOf n) := by
  obtain ⟨⟨ln, found, meets⟩, before⟩ := first
  obtain ⟨short, rfl⟩ := List.getElem?_eq_some_iff.mp found
  have index : ((p.group g).lanes.findIdx? fun l => test (p.chan l.channel)) = some n :=
    List.findIdx?_eq_some_iff_getElem.mpr ⟨short, (same _).mpr meets, fun j less => by
      rw [same]
      exact before j _ less (List.getElem?_eq_getElem (less.trans short))⟩
  rw [Part.firstLane, index]
  rfl

theorem Part.firstLane_lets (lets : ∀ ln ∈ (p.group g).lanes, (p.chan ln.channel).Lets tier) :
    p.firstLane g (aboveGuard tier) = none :=
  (p.firstLane_none _ _).mpr fun ln mem => by simpa [aboveGuard] using lets ln mem

theorem Part.firstLane_unclaimed (free : ∀ ln ∈ (p.group g).lanes, (p.chan ln.channel).owner ≠ some l.other) :
    p.firstLane g (ownedByOther l) = none :=
  (p.firstLane_none _ _).mpr fun ln mem => by simpa [ownedByOther] using free ln mem

theorem Part.firstLane_guarded (first : p.FirstLane g n fun x => ¬x.Lets tier) :
    p.firstLane g (aboveGuard tier) = some (byteOf n) :=
  Part.firstLane_of_first first fun x => by simp [aboveGuard]

theorem Part.firstLane_claimed (first : p.FirstLane g n fun x => x.owner = some l.other) :
    p.firstLane g (ownedByOther l) = some (byteOf n) :=
  Part.firstLane_of_first first fun x => by simp [ownedByOther]

end Lanes

/-! ### CANCEL and FLUSH_CUES (R89, R128) -/

theorem cancelAndFlushTakeTheirMatter : Claims.CancelAndFlushTakeTheirMatter := by
  intro l tier g s ready low lanes
  have clear : s.part.firstLane g (aboveGuard (s.part.effectiveTier l tier)) = none :=
    Part.firstLane_lets fun ln mem => (lanes ln mem).1
  have unclaimed : s.part.firstLane g (ownedByOther l) = none := Part.firstLane_unclaimed fun ln mem => (lanes ln mem).2
  have cancels (free : (s.part.group g).uncancellable = false) :
      judgeCancel l (s.part.effectiveTier l tier) [byteOf g.val] (s.part.frameTaken l)
        = .accepted [] ((s.part.frameTaken l).cancel g) := by
    rw [judgeCancel, withGrp_byteOf, Part.frameTaken_firstLane, Part.frameTaken_firstLane, clear, unclaimed,
      Part.frameTaken_group, free]
    rfl
  refine ⟨fun held => ⟨_, rfl, ?_⟩, fun rest => ⟨_, rfl, ?_⟩, fun prepared => ⟨_, rfl, ?_⟩⟩
  · have judged := cancels (by simp [Group.uncancellable, Group.active, held])
    rw [Part.cancel, if_pos (by rw [Part.frameTaken_group]; exact held)] at judged
    dsimp only
    rw [Part.judged_accepts ready (by simp) rfl low judged]
    refine ⟨Part.answers_of_kept (((Part.modGroup_kept _ _ _).mono (by simp)).trans ((Part.modQueue_kept _ _ _).mono (by simp))) _ _,
      by simp, by simp [CueQueue.block], fun h other => ?_, fun h other => ?_⟩
    · simp [Part.modQueue_queue_ne _ _ _ _ other]
    · simp [Part.modGroup_group_ne _ _ _ _ other]
  · have judged := cancels (by rcases rest with e | e <;> simp [Group.uncancellable, Group.active, e])
    rw [Part.cancel, if_neg (by rw [Part.frameTaken_group]; rcases rest with e | e <;> simp [e])] at judged
    dsimp only
    rw [Part.judged_accepts ready (by simp) rfl low judged]
    exact Part.answers_of_kept (.refl _ _) _ _
  · have judged : judgeFlushCues l (s.part.effectiveTier l tier) [byteOf g.val] (s.part.frameTaken l)
        = .accepted [byteOf (s.part.queue g).cues.length] ((s.part.frameTaken l).setQueue g CueQueue.clear) := by
      rw [judgeFlushCues, withGrp_byteOf, Part.frameTaken_standsDown, Part.standsDown_prepared prepared,
        Part.frameTaken_firstLane, Part.frameTaken_firstLane, clear, unclaimed, Part.frameTaken_queue]
      rfl
    dsimp only
    rw [Part.judged_accepts ready (by simp) rfl low judged]
    refine ⟨Part.answers_of_kept ((Part.setQueue_kept _ _ _).mono (by simp)) _ _, by simp [CueQueue.clear], fun h other => ?_⟩
    simp [Part.setQueue_queue_ne _ _ _ _ other]

theorem cancelAndFlushRefusals : Claims.CancelAndFlushRefusals := by
  intro l tier b g n s ready low p cancel flush lets
  have cancels {a : Byte} {code : Result} {index : Byte}
      (judged : judgeCancel l (p.effectiveTier l tier) [a] (p.frameTaken l) = .refused code index) :
      Gives (.cancel l tier [a]) s fun q => p.Refuses q l 0x25 code index :=
    ⟨_, rfl, Part.judged_refuses ready (by simp) rfl low judged⟩
  have flushes {a : Byte} {code : Result} {index : Byte}
      (judged : judgeFlushCues l (p.effectiveTier l tier) [a] (p.frameTaken l) = .refused code index) :
      Gives (.flushCues l tier [a]) s fun q => p.Refuses q l 0x26 code index :=
    ⟨_, rfl, Part.judged_refuses ready (by simp) rfl low judged⟩
  refine ⟨fun above => ⟨cancels (withGrp_above above _), flushes (withGrp_above above _)⟩, fun unready => flushes ?_,
    fun first => ⟨cancels ?_, fun prepared => flushes ?_⟩, fun letting first => ⟨cancels ?_, fun prepared => flushes ?_⟩,
    fun letting free state => cancels ?_⟩
  · rw [judgeFlushCues, withGrp_byteOf, Part.frameTaken_standsDown, p.standsDown_iff.mpr unready]
    rfl
  · rw [judgeCancel, withGrp_byteOf, Part.frameTaken_firstLane, Part.firstLane_guarded first]
    rfl
  · rw [judgeFlushCues, withGrp_byteOf, Part.frameTaken_standsDown, Part.standsDown_prepared prepared,
      Part.frameTaken_firstLane, Part.firstLane_guarded first]
    rfl
  · rw [judgeCancel, withGrp_byteOf, Part.frameTaken_firstLane, Part.firstLane_lets letting, Part.frameTaken_firstLane,
      Part.firstLane_claimed first]
    rfl
  · rw [judgeFlushCues, withGrp_byteOf, Part.frameTaken_standsDown, Part.standsDown_prepared prepared,
      Part.frameTaken_firstLane, Part.firstLane_lets letting, Part.frameTaken_firstLane, Part.firstLane_claimed first]
    rfl
  · have bad : (p.group g).uncancellable = true := by
      simp only [List.mem_cons, List.not_mem_nil, or_false] at state
      rcases state with e | e | e | e <;> simp [Group.uncancellable, Group.active, e]
    rw [judgeCancel, withGrp_byteOf, Part.frameTaken_firstLane, Part.firstLane_lets letting, Part.frameTaken_firstLane,
      Part.firstLane_unclaimed free, Part.frameTaken_group, bad]
    rfl

/-- Settles O44: the checks in their order, and what passes them. -/
theorem cancelAndFlushDiscard : Obligations.CancelAndFlushDiscard := ⟨cancelAndFlushTakeTheirMatter, cancelAndFlushRefusals⟩

/-! ### The lane list of a definition (R54) -/

theorem flatMap_laneBytes_length (lanes : List Lane) : (lanes.flatMap laneBytes).length = 3 * lanes.length := by
  induction lanes with
  | nil => rfl
  | cons ln lanes ih =>
    rw [List.flatMap_cons, List.length_append, ih, List.length_cons]
    simp [laneBytes]
    omega

theorem triples_laneBytes (lanes : List Lane) :
    triples (lanes.flatMap laneBytes) = lanes.map fun ln => (byteOf ln.channel.val, signCode ln.sign, byteOf ln.ratio) := by
  induction lanes with
  | nil => rfl
  | cons ln lanes ih =>
    rw [List.flatMap_cons, List.map_cons, ← ih]
    rfl

theorem signOf_code (x : Sign) : signOf (signCode x) = some x := by cases x <;> rfl

/-- R54: a lane that passes every condition of its entry. -/
theorem Part.laneOf_legal {p : Part} {earlier : List Lane} {ln : Lane} (there : p.hasChan ln.channel = true)
    (ratio : ln.ratio ≤ 15) (fixed : (p.chan ln.channel).kind = .fixedSpeed → ln.ratio = 0 ∨ 8 ≤ ln.ratio)
    (fresh : ln.channel ∉ earlier.map (·.channel)) (first : earlier = [] → ln.sign ≠ .hold) :
    p.laneOf earlier (byteOf ln.channel.val) (signCode ln.sign) (byteOf ln.ratio) = some ln := by
  have exact_ : (byteOf ln.ratio).toNat = ln.ratio := byteOf_toNat (by omega)
  have unnamed : (earlier.any (·.channel == ln.channel)) = false := by
    rw [List.any_eq_false]
    intro x mem same
    exact fresh (List.mem_map.mpr ⟨x, mem, by simpa using same⟩)
  have leads : (earlier.isEmpty && ln.sign == .hold) = false := by
    cases earlier with
    | nil => simpa using first rfl
    | cons x l => rfl
  have stands : ((p.chan ln.channel).kind == .fixedSpeed && decide (1 ≤ ln.ratio) && decide (ln.ratio ≤ 7)) = false := by
    by_cases kind : (p.chan ln.channel).kind = .fixedSpeed
    · have := fixed kind
      simp only [kind, beq_self_eq_true, Bool.true_and, Bool.and_eq_false_iff, decide_eq_false_iff_not]
      omega
    · simp [kind]
  unfold Part.laneOf
  rw [Part.chanOf_byteOf p _ there, signOf_code]
  dsimp only
  rw [exact_, unnamed, leads, stands]
  exact if_neg (by simpa using ratio)

/-- R54: the entries of legal lanes are read as those lanes. -/
theorem Part.lanesOf_legal {p : Part} (lanes earlier : List Lane) (distinct : ((earlier ++ lanes).map (·.channel)).Nodup)
    (first : ∀ ln, (earlier ++ lanes).head? = some ln → ln.sign ≠ .hold)
    (each : ∀ ln ∈ lanes, p.hasChan ln.channel = true ∧ (p.chan ln.channel).kind ≠ .absent ∧ ln.ratio ≤ 15
      ∧ ((p.chan ln.channel).kind = .fixedSpeed → ln.ratio = 0 ∨ 8 ≤ ln.ratio)) :
    p.lanesOf earlier (lanes.map fun ln => (byteOf ln.channel.val, signCode ln.sign, byteOf ln.ratio))
      = .ok (earlier ++ lanes) := by
  induction lanes generalizing earlier with
  | nil => rw [List.append_nil]; rfl
  | cons ln lanes ih =>
    obtain ⟨there, -, ratio, fixed⟩ := each ln (by simp)
    have fresh : ln.channel ∉ earlier.map (·.channel) := by
      rw [List.map_append, List.nodup_append] at distinct
      obtain ⟨-, -, apart⟩ := distinct
      exact fun mem => apart _ mem _ (by simp) rfl
    have found := Part.laneOf_legal there ratio fixed fresh fun empty => first ln (by rw [empty]; rfl)
    have step : earlier ++ ln :: lanes = earlier ++ [ln] ++ lanes := by simp
    rw [step] at distinct first ⊢
    rw [List.map_cons, Part.lanesOf]
    dsimp only
    rw [found]
    exact ih _ distinct first fun x mem => each x (List.mem_cons_of_mem _ mem)

/-! ### DEFINE_GROUP and DELETE_GROUP (R54 to R57) -/

theorem Part.frameTaken_legalLanes (p : Part) (l : Link) (lanes : List Lane) :
    (p.frameTaken l).LegalLanes lanes ↔ p.LegalLanes lanes := by simp [Part.LegalLanes]

/-- Settles O41: the body is read as the definition it was made of, and the definition is written or taken away. -/
theorem defineAndDeleteGroupWriteTheDefinition : Obligations.DefineAndDeleteGroupWriteTheDefinition := by
  intro l tier g lanes sw ll lt lg s ready low prepared empty unbound
  have unused : (s.part.frameTaken l).definitionInUse g = false := by simp [Part.definitionInUse, empty, unbound]
  refine ⟨fun state legal sw1 sw2 ll1 ll2 lt1 lt2 lg1 => ⟨_, rfl, ?_⟩, fun idle => ⟨_, rfl, ?_⟩⟩
  · have body : [byteOf g.val, byteOf lanes.length, byteOf sw] ++ wr16 ll ++ [byteOf lt] ++ wr16 lg ++ lanes.flatMap laneBytes
        = byteOf g.val :: byteOf lanes.length :: byteOf sw :: byteOf (ll / 256) :: byteOf ll :: byteOf lt :: byteOf (lg / 256)
          :: byteOf lg :: lanes.flatMap laneBytes := rfl
    have legal' := (s.part.frameTaken_legalLanes l lanes).mpr legal
    obtain ⟨one, eight, distinct, first, each⟩ := legal'
    have count : (byteOf lanes.length).toNat = lanes.length := byteOf_toNat (by omega)
    have window : (byteOf sw).toNat = sw := by simp only [byteOf, BitVec.toNat_ofNat]; omega
    have tolerance : (byteOf lt).toNat = lt := byteOf_toNat (by omega)
    have params : groupParamsBad sw ll lt lg = false := by
      simp only [groupParamsBad, Bool.or_eq_false_iff, decide_eq_false_iff_not]
      omega
    have sized : (decide (lanes.length < 1) || decide (8 < lanes.length)) = false := by
      simp only [Bool.or_eq_false_iff, decide_eq_false_iff_not]
      omega
    have present : (s.part.frameTaken l).firstAbsentLane lanes = none := by
      simp only [Part.firstAbsentLane, Option.map_eq_none_iff, List.findIdx?_eq_none_iff]
      intro ln mem
      simpa [Channel.configured] using (each ln mem).2.1
    have judged : judgeDefineGroup l (s.part.effectiveTier l tier) (byteOf g.val :: byteOf lanes.length :: byteOf sw ::
        byteOf (ll / 256) :: byteOf ll :: byteOf lt :: byteOf (lg / 256) :: byteOf lg :: lanes.flatMap laneBytes)
        (s.part.frameTaken l) = .accepted [] ((s.part.frameTaken l).modGroup g (Group.define lanes sw ll lt lg)) := by
      have free : ((s.part.group g).state == .empty || (s.part.group g).state == .idle) = true := by simpa using state
      unfold judgeDefineGroup
      dsimp only
      rw [withGrp_byteOf, count, window, tolerance, rd16_byteOf (by omega), rd16_byteOf (by omega), sized, params,
        triples_laneBytes, Part.lanesOf_legal lanes [] distinct first each]
      dsimp only
      rw [Part.frameTaken_standsDown, Part.standsDown_prepared prepared, Part.frameTaken_group, free, unused]
      dsimp only [List.nil_append]
      rw [present]
      rfl
    have long := flatMap_laneBytes_length lanes
    dsimp only
    rw [body, Part.judged_accepts ready (by simp [long]; omega)
      ((countedLength_iff ..).mpr ⟨_, rfl, by simp only [List.length_cons, long, count]; omega⟩) low judged]
    refine ⟨Part.answers_of_kept ((Part.modGroup_kept _ _ _).mono (by simp)) _ _, by simp [Group.define], fun h other => ?_⟩
    simp [Part.modGroup_group_ne _ _ _ _ other]
  · have judged : judgeDeleteGroup l (s.part.effectiveTier l tier) [byteOf g.val] (s.part.frameTaken l)
        = .accepted [] ((s.part.frameTaken l).modGroup g Group.delete) := by
      rw [judgeDeleteGroup, withGrp_byteOf, Part.frameTaken_standsDown, Part.standsDown_prepared prepared, Part.frameTaken_group,
        idle, unused]
      rfl
    dsimp only
    rw [Part.judged_accepts ready (by simp) rfl low judged]
    refine ⟨Part.answers_of_kept ((Part.modGroup_kept _ _ _).mono (by simp)) _ _,
      by simp [Group.delete, Group.powerOn], fun h other => ?_⟩
    simp [Part.modGroup_group_ne _ _ _ _ other]

end Sys2Proof.Machine
end

section
set_option Elab.async false
/-! PROOFS. What a fire makes of its group and of its queue (R62 to R67, R77, R118 to R126). -/

namespace Sys2Proof.Machine

/-! ### The start of a move (R66) -/

/-- R64, R66: the plan that gives each lane its target and the capped demand for it. -/
def Part.planOf (p : Part) (g : Grp) (demandOf : Lane → Int → Nat) (targets : List Int) : List (Int × Nat) :=
  ((p.group g).lanes.zip targets).map fun lt => (lt.2, (p.chan lt.1.channel).capDemand (demandOf lt.1 lt.2))

theorem Part.cuePlan_eq (p : Part) (g : Grp) (x : Cue) : p.cuePlan g x = p.planOf g (cueSpeed x.speed) (p.cueTargets g x) := by
  unfold Part.cuePlan Part.planOf Part.cueTargets
  dsimp only
  rw [Part.cueTravel_eq]
  induction (p.group g).lanes with
  | nil => rfl
  | cons ln lanes ih =>
    simp only [List.map_cons, List.zip_cons_cons, List.cons.injEq]
    exact ⟨rfl, ih⟩

theorem Part.heldPlan_eq (p : Part) (g : Grp) (m : MoveRecord) :
    p.heldPlan g m = p.planOf g (cueSpeed (m.speed.getD 0)) (m.lanes.map (·.target)) := by
  unfold Part.heldPlan Part.planOf
  rw [List.zip_map_right, List.map_map]
  rfl

theorem Part.segmentPlan_planOf (p : Part) (t : Trk) (g : Grp) (w : Waypoint) :
    p.segmentPlan t g w = p.planOf g (p.segmentSpeed w.duration) (p.segmentTargets t g w) := p.segmentPlan_eq t g w

theorem Channel.capDemand_capDemand (x : Channel) (n : Nat) : x.capDemand (x.capDemand n) = x.capDemand n := by
  unfold Channel.capDemand
  by_cases h : x.kind = .variableSpeed <;> simp [h]

section Start
variable {p : Part} {g : Grp} {targets : List Int}

theorem Part.planOf_targets (lengths : targets.length = (p.group g).lanes.length) (demandOf : Lane → Int → Nat) :
    (p.planOf g demandOf targets).map (·.1) = targets := by
  rw [Part.planOf, List.map_map]
  exact List.map_snd_zip lengths.le

/-- R66: a lane's entry is the one its target and its demand give. -/
theorem Part.fireLane_eq (p : Part) (demandOf : Lane → Int → Nat) (ln : Lane) (target : Int) :
    fireLane (p.chan ln.channel) target ((p.chan ln.channel).capDemand (demandOf ln target)) = p.firedLane demandOf ln target := by
  unfold fireLane Part.firedLane Channel.capDemand Config.arrivalMm
  by_cases near : (target - (p.chan ln.channel).pos).natAbs ≤ 5 <;>
    by_cases kind : (p.chan ln.channel).kind = .variableSpeed <;> simp [near, kind]

/-- R66, R98: the channel of a lane after a fire. -/
theorem Part.reserveChannel_eq (p : Part) (g : Grp) (demandOf : Lane → Int → Nat) (ln : Lane) (target : Int) :
    reserveChannel g (p.firedLane demandOf ln target) (p.chan ln.channel) = p.firedChannel g demandOf ln target := by
  have capped : (p.chan ln.channel).capDemand (p.firedLane demandOf ln target).demand
      = (p.firedLane demandOf ln target).demand := by
    rw [← Part.fireLane_eq]
    unfold fireLane
    dsimp only
    split
    · simp [Channel.capDemand]
    · exact Channel.capDemand_capDemand ..
  have way : dirOf (p.firedLane demandOf ln target).travel = if target < (p.chan ln.channel).pos then Dir.down else Dir.up :=
    dirOf_sub target _
  unfold reserveChannel Part.firedChannel
  by_cases near : (target - (p.chan ln.channel).pos).natAbs ≤ 5
  · have arrived : (p.firedLane demandOf ln target).state = .arrived := by simp [Part.firedLane, near]
    dsimp only
    rw [if_pos arrived, if_pos near]
  · have driving : (p.firedLane demandOf ln target).state ≠ .arrived := by simp [Part.firedLane, near]
    have sides : (if target < (p.chan ln.channel).pos then Dir.down else Dir.up)
        = if (p.chan ln.channel).pos < target then Dir.up else Dir.down := by
      by_cases below : target < (p.chan ln.channel).pos
      · rw [if_pos below, if_neg (by omega)]
      · rw [if_neg below, if_pos (by omega)]
    dsimp only
    rw [if_neg driving, if_neg near, way, sides]
    unfold Channel.start
    rw [show ({ p.chan ln.channel with mover := .group g } : Channel).capDemand (p.firedLane demandOf ln target).demand
      = (p.firedLane demandOf ln target).demand from capped]
    simp [Channel.armWatch, Channel.syncWatch, Config.confirmMs]

/-- R62, R66: the start of a move whose lanes name distinct channels. -/
theorem Part.startMove_started (distinct : ((p.group g).lanes.map (·.channel)).Nodup) (tier : Nat) (l : Link) (src : MoveSource)
    (v : Option Nat) (demandOf : Lane → Int → Nat) (targets : List Int) :
    p.Started (p.startMove g tier l src v (p.planOf g demandOf targets)) g tier l src v demandOf targets := by
  have pairs : (p.group g).lanes.zip (p.planOf g demandOf targets) = ((p.group g).lanes.zip targets).map fun lt =>
      (lt.1, lt.2, (p.chan lt.1.channel).capDemand (demandOf lt.1 lt.2)) := by
    rw [Part.planOf, zip_map_zip]
  constructor
  · rw [Part.startMove_group, if_pos rfl, pairs, List.map_map]
    simp only [Function.comp_def, Part.fireLane_eq]
  · intro lt mem
    have mem' : (lt.1, lt.2, (p.chan lt.1.channel).capDemand (demandOf lt.1 lt.2)) ∈
        (p.group g).lanes.zip (p.planOf g demandOf targets) := by
      rw [pairs]
      exact List.mem_map.mpr ⟨lt, mem, rfl⟩
    have found := Part.startMove_chan_in distinct tier l src v mem'
    dsimp only at found
    rw [found, Part.fireLane_eq, Part.reserveChannel_eq]

theorem Part.startMove_alone (p : Part) (g : Grp) (tier : Nat) (l : Link) (src : MoveSource) (v : Option Nat)
    (plan : List (Int × Nat)) : p.Alone (p.startMove g tier l src v plan) g :=
  ⟨fun h other => by rw [Part.startMove_group, if_neg other], fun c out => p.startMove_chan_out g tier l src v plan c out⟩

theorem Part.startMove_kept (p : Part) (g : Grp) (tier : Nat) (l : Link) (src : MoveSource) (v : Option Nat)
    (plan : List (Int × Nat)) :
    Kept p (p.startMove g tier l src v plan)
      [.ctl, .link .a, .link .b, .ports, .samples, .queues, .clock, .tracks, .codes] :=
  Part.forEach_inv (P := fun q => Kept p q _) ((Part.modGroup_kept _ _ _).mono (by simp)) fun _ _ _ kept =>
    kept.trans ((Part.modChan_kept _ _ _).mono (by simp))

/-- R67: whether every lane of a started move has arrived. -/
theorem Part.Started.allArrived {q : Part} {tier : Nat} {l : Link} {src : MoveSource} {v : Option Nat}
    {demandOf : Lane → Int → Nat} (h : p.Started q g tier l src v demandOf targets) :
    q.allArrived g = true ↔ ¬p.Travels g targets := by
  unfold Part.allArrived
  rw [h.1]
  simp only [List.all_map, List.all_eq_true, Function.comp_apply, beq_iff_eq, Part.Travels, not_exists, not_and, not_lt]
  refine forall₂_congr fun lt _ => ?_
  by_cases near : (lt.2 - (p.chan lt.1.channel).pos).natAbs ≤ 5 <;> simp [Part.firedLane, near]

end Start

/-! ### The fire of a cue (R63, R122, R123) -/

section Fire
variable {p : Part} {g : Grp} {tier : Nat} {l : Link} {x : Cue} {rest : List Cue}

/-- R63: a fire is refused in any mode but ARMED. -/
theorem Part.fire_unarmed (unarmed : p.ctl.mode ≠ .armed) (bad : Bool) (src : MoveSource) (v : Option Nat) (plan : List (Int × Nat)) :
    p.fire g tier l bad src v plan = .refused .mode noIndex := by
  have barred : (p.ctl.mode != .armed) = true := by simpa using unarmed
  unfold Part.fire
  rw [barred]
  rfl

/-- R63 to R66: the fire of a cue that is admitted. -/
theorem Part.fireCue_admitted (admits : p.Admits g tier l (p.cueTargets g x)) (idle : (p.group g).state = .idle) :
    p.fireCue g tier l x = .accepted [] (p.startMove g tier l (.cue x.number) (some x.speed)
      (p.planOf g (cueSpeed x.speed) (p.cueTargets g x))) := by
  have open_ : p.cueBarred g = false := by simp [Part.cueBarred, idle, admits.unbound]
  rw [Part.fireCue, open_, Part.fire_accepted _ _ (by rw [Part.cuePlan_targets]; exact admits), Part.cuePlan_eq]

/-- R123: a refused head is dropped. -/
theorem Part.fireHead_refused {code : Result} {index : Byte} (cues : (p.queue g).cues = x :: rest)
    (refused : p.fireCue g x.tier x.origin x = .refused code index) (n : Nat) :
    Part.fireHead (n + 1) g p = p.dropRefused g x code index := by
  rw [Part.fireHead, cues]
  dsimp only
  rw [refused]

/-- R122: an accepted head leaves its list, and its move goes on. -/
theorem Part.fireHead_started (cues : (p.queue g).cues = x :: rest)
    (admits : p.Admits g x.tier x.origin (p.cueTargets g x)) (idle : (p.group g).state = .idle)
    (travels : p.Travels g (p.cueTargets g x)) (n : Nat) :
    Part.fireHead (n + 1) g p = (p.startMove g x.tier x.origin (.cue x.number) (some x.speed)
      (p.planOf g (cueSpeed x.speed) (p.cueTargets g x))).modQueue g CueQueue.pop := by
  have started := p.startMove_started admits.distinct x.tier x.origin (.cue x.number) (some x.speed) (cueSpeed x.speed)
    (p.cueTargets g x)
  rw [Part.fireHead, cues]
  dsimp only
  rw [Part.fireCue_admitted admits idle]
  dsimp only
  refine if_neg fun arrived => ?_
  exact started.allArrived.mp arrived travels

/-- R122, R67: an accepted head whose lanes have nothing to travel completes, and arming is judged on the next. -/
theorem Part.fireHead_completed (cues : (p.queue g).cues = x :: rest)
    (admits : p.Admits g x.tier x.origin (p.cueTargets g x)) (idle : (p.group g).state = .idle)
    (still : ¬p.Travels g (p.cueTargets g x)) (n : Nat) :
    let next := (((p.startMove g x.tier x.origin (.cue x.number) (some x.speed)
      (p.planOf g (cueSpeed x.speed) (p.cueTargets g x))).modQueue g CueQueue.pop).completeCue g x.number).armHead .completion g
    Part.fireHead (n + 1) g p = if next.2 then Part.fireHead n g next.1 else next.1 := by
  have started := p.startMove_started admits.distinct x.tier x.origin (.cue x.number) (some x.speed) (cueSpeed x.speed)
    (p.cueTargets g x)
  rw [Part.fireHead, cues]
  dsimp only
  rw [Part.fireCue_admitted admits idle]
  dsimp only
  exact if_pos (started.allArrived.mpr still)

end Fire

/-! ### Arming (R118 to R120) -/

section Arming
variable {p : Part} {g : Grp} {x : Cue} {rest : List Cue} {occ : Occasion}

theorem Part.armHead_barred (barred : p.mayArm g = false) : p.armHead occ g = (p, false) := by
  unfold Part.armHead
  rw [barred]
  rfl

theorem Part.armHead_empty (empty : (p.queue g).cues = []) : p.armHead occ g = (p, false) := by
  unfold Part.armHead
  rw [empty]
  split <;> rfl

theorem Part.armHead_onGo (cues : (p.queue g).cues = x :: rest) (trigger : x.trigger = .onGo) :
    p.armHead occ g = (p, false) := by
  unfold Part.armHead
  rw [cues]
  dsimp only
  rw [trigger]
  split <;> rfl

/-- R118: an AFTER_PREVIOUS head is armed by a completion alone. -/
theorem Part.armHead_after_other {n : Nat} (cues : (p.queue g).cues = x :: rest) (trigger : x.trigger = .afterPrevious n) :
    p.armHead .other g = (p, false) := by
  unfold Part.armHead
  rw [cues]
  dsimp only
  rw [trigger]
  split <;> rfl

/-- R119: on a completion a dwell of 0 runs out at once, and any other begins. -/
theorem Part.armHead_after {n : Nat} (may : p.mayArm g = true) (cues : (p.queue g).cues = x :: rest)
    (trigger : x.trigger = .afterPrevious n) :
    p.armHead .completion g =
      if n = 0 then (p, true) else (p.modQueue g fun q => { q with arming := .dwelling, dwellTimer := some n }, false) := by
  unfold Part.armHead
  rw [may, cues]
  dsimp only
  rw [trigger]
  rfl

/-- R120: an AT_MARK head awaits its mark, which is judged at once. -/
theorem Part.armHead_mark {mark : Nat} (may : p.mayArm g = true) (cues : (p.queue g).cues = x :: rest)
    (trigger : x.trigger = .atMark mark) :
    p.armHead occ g = (p.modQueue g fun q => { q with arming := .awaitingMark }).judgeMark g := by
  unfold Part.armHead
  rw [may, cues]
  dsimp only
  rw [trigger]
  rfl

theorem Part.judgeMark_idle (idle : (p.queue g).arming ≠ .awaitingMark) : p.judgeMark g = (p, false) := by
  unfold Part.judgeMark
  split
  · next waiting _ => exact absurd waiting idle
  · rfl

/-- R120: a judgement of a head that awaits its mark. -/
theorem Part.judgeMark_eq {mark : Nat} (waiting : (p.queue g).arming = .awaitingMark) (cues : (p.queue g).cues = x :: rest)
    (trigger : x.trigger = .atMark mark) :
    p.judgeMark g =
      if p.clock.running = true ∧ mark ≤ p.clock.value then
        if p.clock.value ≤ mark + (p.group g).lateGrace then (p.modQueue g CueQueue.disarm, true) else (p.dropLate g x, false)
      else (p, false) := by
  unfold Part.judgeMark
  rw [waiting, cues]
  dsimp only
  rw [trigger]
  dsimp only
  by_cases met : p.clock.running = true ∧ mark ≤ p.clock.value
  · rw [if_pos met, if_pos (by simpa using met)]
    by_cases graced : p.clock.value ≤ mark + (p.group g).lateGrace
    · rw [if_pos graced, if_pos (by omega)]
    · rw [if_neg graced, if_neg (by omega)]
  · rw [if_neg met, if_neg (by simpa using met)]

/-- A judgement that fires nothing. -/
theorem Part.fireIf_waits (q : Part) (g : Grp) : Part.fireIf (q, false) g = q := rfl

theorem Part.fireIf_fires (q : Part) (g : Grp) : Part.fireIf (q, true) g = Part.fireHead (q.queue g).cues.length g q := rfl

end Arming

/-! ### The queue of a group -/

theorem CueQueue.pop_eq {x : CueQueue} {c : Cue} {rest : List Cue} (cues : x.cues = c :: rest) :
    x.pop = x.rest (x.blocked && !rest.isEmpty) := by
  simp [CueQueue.pop, CueQueue.rest, cues]

/-- R120, R123, R125: a head is dropped, and a queue that still holds a cue is blocked. -/
theorem CueQueue.pop_block {x : CueQueue} {c : Cue} {rest : List Cue} (cues : x.cues = c :: rest) :
    x.pop.block = { cues := rest, blocked := !rest.isEmpty, arming := .none, dwellTimer := none } := by
  simp [CueQueue.pop, CueQueue.block, cues]

theorem Part.modQueue_modQueue (p : Part) (g : Grp) (f h : CueQueue → CueQueue) :
    (p.modQueue g f).modQueue g h = p.modQueue g fun x => h (f x) := by
  simp only [Part.modQueue, Part.setQueue_queue_self]
  simp [Part.setQueue]

theorem Part.modQueue_otherQueues (p : Part) (g : Grp) (f : CueQueue → CueQueue) : p.OtherQueues (p.modQueue g f) g :=
  fun h other => Part.modQueue_queue_ne p g h f other

end Sys2Proof.Machine
end

section
set_option Elab.async false
/-! PROOFS. A move that completes in the taking of its fire, and what its queue makes of it (R67, R77, R118 to R120, R126). -/

namespace Sys2Proof.Machine

/-! ### What the steps of a completion keep -/

theorem Part.modChans_kept {α : Type} (p : Part) (l : List α) (f : Part → α → Part)
    (each : ∀ q x, Kept q (f q x) [.ports, .samples, .groups, .queues, .clock, .tracks]) :
    Kept p (p.forEach l f) [.ports, .samples, .groups, .queues, .clock, .tracks] :=
  Part.forEach_inv (P := fun q => Kept p q _) (.refl p _) fun q x _ kept => kept.trans (each q x)

theorem Part.clearMover_kept (p : Part) (c : Chan) :
    Kept p (p.clearMover c) [.ports, .samples, .groups, .queues, .clock, .tracks] :=
  ((p.modChan_kept c _).mono (by simp)).trans (Part.judgeDisarm_kept _)

theorem Part.clearLanes_kept (p : Part) (g : Grp) :
    Kept p (p.clearLanes g) [.ports, .samples, .groups, .queues, .clock, .tracks] :=
  Part.modChans_kept p _ _ fun q ln => q.clearMover_kept ln.channel

/-- With the silence-disarm flag clear, the Mode Controller, the codes and the links are kept too. -/
theorem Part.clearLanes_clear_kept {p : Part} (clear : p.ctl.silenceDisarm = false) (g : Grp) :
    Kept p (p.clearLanes g)
      [.ctl, .link .a, .link .b, .ports, .samples, .groups, .queues, .clock, .tracks, .codes] := by
  rw [Part.clearLanes_clear clear]
  exact Part.forEach_modChan_kept p _ (fun ln : Lane => ln.channel) fun _ => Channel.dropMover

theorem Part.post_kept (p : Part) (pair : NoticePair) (e : Event) :
    Kept p (p.post pair e) [.ctl, .channels, .ports, .samples, .groups, .queues, .clock, .tracks] := by
  simp [Kept, Block.Kept]

theorem Part.raise_kept (p : Part) (pair : NoticePair) (e : Event) :
    Kept p (p.raise pair e) [.ports, .samples, .groups, .queues, .clock, .tracks] := by
  refine ((p.post_kept pair e).mono (by simp)).trans ?_
  unfold Part.raise Part.judgeWake
  split
  · exact Part.changeMode_kept _ _ _
  · exact .refl _ _

theorem Kept.chan {p q : Part} (h : Kept p q [.channels]) (c : Chan) : q.chan c = p.chan c := by
  have same : q.channels = p.channels := h .channels (by simp)
  simp only [Part.chan, same]

theorem Kept.group {p q : Part} (h : Kept p q [.groups]) (g : Grp) : q.group g = p.group g := by
  have same : q.groups = p.groups := h .groups (by simp)
  simp only [Part.group, same]

theorem Kept.queue {p q : Part} (h : Kept p q [.queues]) (g : Grp) : q.queue g = p.queue g := by
  have same : q.queues = p.queues := h .queues (by simp)
  simp only [Part.queue, same]

theorem Kept.track {p q : Part} (h : Kept p q [.tracks]) (t : Trk) : q.track t = p.track t := by
  have same : q.tracks = p.tracks := h .tracks (by simp)
  simp only [Part.track, same]

/-- R164: clearing movers takes no device into or out of PARKED. -/
theorem Part.clearLanes_awake {p : Part} (awake : p.ctl.mode ≠ .parked) (g : Grp) : (p.clearLanes g).ctl.mode ≠ .parked := by
  refine Part.forEach_inv (P := fun q => q.ctl.mode ≠ .parked) awake fun q ln _ up => ?_
  unfold Part.clearMover
  rcases (q.modChan ln.channel Channel.dropMover).judgeDisarm_eq with same | ⟨-, -, -, disarmed⟩
  · rw [same]
    exact up
  · rw [disarmed, Part.changeMode_ctl, ModeCtl.setPower_mode]
    exact fun same => by cases same

/-! ### The completion of a cue move (R77) -/

section Complete
variable {p : Part} {g : Grp} {n : Nat}

/-- R77: the group's record after the completion of a cue move. -/
def Group.completed (x : Group) : Group := { x with state := .idle, move := none, controlTimer := none }

theorem Part.completeCue_eq (awake : p.ctl.mode ≠ .parked) :
    p.completeCue g n = ((p.clearLanes g).modGroup g Group.completed).post (.group g) (.cueDone n) :=
  Part.raise_awake (p := (p.clearLanes g).modGroup g Group.completed) (Part.clearLanes_awake awake g) _ _

theorem Part.completeCue_kept (p : Part) (g : Grp) (n : Nat) :
    Kept p (p.completeCue g n) [.ports, .samples, .queues, .clock, .tracks] :=
  (((p.clearLanes_kept g).mono (by simp)).trans ((Part.modGroup_kept _ _ _).mono (by simp))).trans
    ((Part.raise_kept _ _ _).mono (by simp))

theorem Part.completeCue_group (p : Part) (g h : Grp) (n : Nat) :
    (p.completeCue g n).group h = if h = g then (p.group h).completed else p.group h := by
  have raised := ((((p.clearLanes g).modGroup g Group.completed).raise_kept (.group g) (.cueDone n)).mono
    (cs := [.groups]) (by simp)).group h
  refine raised.trans ?_
  rw [Part.modGroup_group, Part.clearLanes_group]

theorem Part.completeCue_chan (awake : p.ctl.mode ≠ .parked) (c : Chan) :
    (p.completeCue g n).chan c = (p.clearLanes g).chan c := by
  rw [Part.completeCue_eq awake]
  rfl

theorem Vector.getElem_set_self_grp {α : Type} (v : Vector α 8) (g : Grp) (x : α) : (v.set g x)[g] = x := by
  rw [Vector.getElem_set_grp, if_pos rfl]

theorem Part.completeCue_code (awake : p.ctl.mode ≠ .parked) : (p.completeCue g n).codes.groups[g] = some (.cueDone n) := by
  rw [Part.completeCue_eq awake]
  exact Vector.getElem_set_self_grp ..

theorem Part.completeCue_ctl (awake : p.ctl.mode ≠ .parked) (clear : p.ctl.silenceDisarm = false) :
    (p.completeCue g n).ctl = p.ctl := by
  rw [Part.completeCue_eq awake]
  exact Part.clearLanes_clear_kept clear g .ctl (by simp)

end Complete

/-! ### What the queue makes of a completion (R118 to R120, R126) -/

section Waits
variable {p : Part} {g : Grp}

theorem Part.mayArm_iff (idle : (p.group g).state = .idle) : p.mayArm g = true ↔ p.Armable g := by
  simp [Part.mayArm, Part.Armable, idle, and_assoc]

theorem Part.modQueue_self {f : CueQueue → CueQueue} (same : f (p.queue g) = p.queue g) : p.modQueue g f = p := by
  have queues : (p.modQueue g f).queues = p.queues := Part.queues_ext fun h => by
    rw [Part.modQueue_queue]
    split
    · next e => rw [e, same]
    · rfl
  have parts : p.modQueue g f = { p with queues := (p.modQueue g f).queues } := rfl
  rw [parts, queues]

/-- R118 to R120: a completion that fires no head leaves its mark in the queue alone. -/
theorem Part.arm_waits (idle : (p.group g).state = .idle) (waits : p.HeadWaits g) :
    p.arm .completion g = p.modQueue g fun _ => p.queueOnCompletion g := by
  unfold Part.arm
  by_cases armable : p.Armable g
  · have may := (Part.mayArm_iff idle).mpr armable
    have told : p.queueOnCompletion g = match ((p.queue g).cues.head?.map Cue.trigger : Option Trigger) with
        | some (.afterPrevious n) => { p.queue g with arming := .dwelling, dwellTimer := some n }
        | some (.atMark _) => { p.queue g with arming := .awaitingMark }
        | some .onGo | none => p.queue g := by
      exact if_pos armable
    cases cues : (p.queue g).cues with
    | nil =>
      rw [Part.armHead_empty cues, Part.fireIf_waits, told, cues]
      exact (Part.modQueue_self rfl).symm
    | cons x rest =>
      obtain ⟨dwells, marked⟩ := waits armable x (by rw [cues]; rfl)
      rw [told, cues]
      cases trigger : x.trigger with
      | onGo =>
        rw [Part.armHead_onGo cues trigger, Part.fireIf_waits]
        simp only [List.head?_cons, Option.map_some, trigger]
        exact (Part.modQueue_self rfl).symm
      | afterPrevious n =>
        have later : n ≠ 0 := fun zero => dwells (by rw [trigger, zero])
        rw [Part.armHead_after may cues trigger, if_neg later, Part.fireIf_waits]
        simp only [List.head?_cons, Option.map_some, trigger]
        rfl
      | atMark mark =>
        have ahead := marked mark trigger
        rw [Part.armHead_mark may cues trigger, Part.judgeMark_eq (by simp) (by simpa using cues) trigger,
          if_neg (by simpa using ahead), Part.fireIf_waits]
        simp only [List.head?_cons, Option.map_some, trigger]
        rfl
  · have barred : p.mayArm g = false := by
      rw [← Bool.not_eq_true, Part.mayArm_iff idle]
      exact armable
    rw [Part.armHead_barred barred, Part.fireIf_waits]
    refine (Part.modQueue_self ?_).symm
    exact if_neg armable

end Waits

/-! ### A fire with nothing to travel (R67) -/

section AtOnce
variable {p : Part} {g : Grp} {tier : Nat} {l : Link} {targets : List Int} {queue : CueQueue}

theorem Part.Admits.awake_ {p : Part} {g : Grp} {tier : Nat} {l : Link} {targets : List Int} (h : p.Admits g tier l targets) :
    p.ctl.mode ≠ .parked := by rw [h.armed]; decide

/-- The part once a move has started and its queue has taken a value. -/
def Part.fired (p : Part) (g : Grp) (tier : Nat) (l : Link) (src : MoveSource) (v : Option Nat) (demandOf : Lane → Int → Nat)
    (targets : List Int) (queue : CueQueue) : Part :=
  (p.startMove g tier l src v (p.planOf g demandOf targets)).setQueue g queue

variable {src : MoveSource} {v : Option Nat} {demandOf : Lane → Int → Nat}

theorem Part.fired_started (distinct : ((p.group g).lanes.map (·.channel)).Nodup) :
    p.Started (p.fired g tier l src v demandOf targets queue) g tier l src v demandOf targets :=
  Part.startMove_started distinct ..

theorem Part.fired_kept (p : Part) (g : Grp) (tier : Nat) (l : Link) (src : MoveSource) (v : Option Nat)
    (demandOf : Lane → Int → Nat) (targets : List Int) (queue : CueQueue) :
    Kept p (p.fired g tier l src v demandOf targets queue)
      [.ctl, .link .a, .link .b, .ports, .samples, .clock, .tracks, .codes] :=
  ((p.startMove_kept g tier l src v _).mono (by simp)).trans ((Part.setQueue_kept _ _ _).mono (by simp))

theorem Part.fired_alone (p : Part) (g : Grp) (tier : Nat) (l : Link) (src : MoveSource) (v : Option Nat)
    (demandOf : Lane → Int → Nat) (targets : List Int) (queue : CueQueue) :
    p.Alone (p.fired g tier l src v demandOf targets queue) g := p.startMove_alone ..

theorem Part.fired_queue (p : Part) (g h : Grp) (tier : Nat) (l : Link) (src : MoveSource) (v : Option Nat)
    (demandOf : Lane → Int → Nat) (targets : List Int) (queue : CueQueue) :
    (p.fired g tier l src v demandOf targets queue).queue h = if h = g then queue else p.queue h := by
  unfold Part.fired
  rw [Part.setQueue_queue]
  split
  · rfl
  · simp only [Part.queue, Part.startMove_queues]

/-- R66: a lane with nothing to travel leaves its channel HOLDING for its group. -/
theorem Part.firedChannel_near {ln : Lane} {target : Int} (near : (target - (p.chan ln.channel).pos).natAbs ≤ 5) :
    p.firedChannel g demandOf ln target = { p.chan ln.channel with mover := .group g, state := .holding } := if_pos near

/-- R67, R77: what a fire that has nothing to travel leaves of its group, once it has completed. -/
theorem Part.fired_completed (admits : p.Admits g tier l targets) (still : ¬p.Travels g targets) (n : Nat) :
    let q := (p.fired g tier l src v demandOf targets queue).completeCue g n
    q.group g = { p.group g with state := .idle, held := false, move := none, controlTimer := none }
      ∧ q.queue g = queue ∧ q.codes.groups[g] = some (.cueDone n) ∧ p.Alone q g ∧ p.OtherQueues q g
      ∧ (∀ ln ∈ (p.group g).lanes, (q.chan ln.channel).state = .idle ∧ (q.chan ln.channel).mover = .none)
      ∧ Kept p q [.samples, .clock, .tracks] ∧ (p.ctl.silenceDisarm = false → q.ctl = p.ctl) := by
  have started := Part.fired_started (src := src) (v := v) (demandOf := demandOf) (queue := queue) (tier := tier) (l := l)
    (targets := targets) admits.distinct
  have fired := p.fired_kept g tier l src v demandOf targets queue
  have alone := p.fired_alone g tier l src v demandOf targets queue
  have queues := p.fired_queue g (tier := tier) (l := l) (src := src) (v := v) (demandOf := demandOf) (targets := targets)
    (queue := queue)
  generalize p.fired g tier l src v demandOf targets queue = f at started fired alone queues
  obtain ⟨group, chans⟩ := started
  have ctl : f.ctl = p.ctl := fired .ctl (by simp)
  have awake : f.ctl.mode ≠ .parked := by rw [ctl]; exact admits.awake_
  have lanes : (f.group g).lanes = (p.group g).lanes := by rw [group]
  have kept := f.completeCue_kept g n
  refine ⟨?_, ?_, Part.completeCue_code awake, ⟨fun h other => ?_, fun c out => ?_⟩, fun h other => ?_, fun ln mem => ?_,
    (fired.mono (by simp)).trans (kept.mono (by simp)), fun clear => ?_⟩
  · rw [Part.completeCue_group, if_pos rfl, group]
    rfl
  · rw [(kept.mono (cs := [.queues]) (by simp)).queue, queues, if_pos rfl]
  · rw [Part.completeCue_group, if_neg other, alone.1 h other]
  · rw [Part.completeCue_chan awake, Part.clearLanes_chan_out _ _ _ (by rw [lanes]; exact out), alone.2 c out]
  · rw [(kept.mono (cs := [.queues]) (by simp)).queue, queues, if_neg other]
  · rw [Part.completeCue_chan awake, Part.clearLanes_chan_in _ _ (by rw [lanes]; exact admits.distinct) ln (by rw [lanes]; exact mem)]
    obtain ⟨i, short, rfl⟩ := List.getElem_of_mem mem
    have paired : i < ((p.group g).lanes.zip targets).length := by simp [admits.lengths, short]
    have mem' := List.getElem_mem paired
    have near : ((((p.group g).lanes.zip targets)[i]).2 - (p.chan (((p.group g).lanes.zip targets)[i]).1.channel).pos).natAbs ≤ 5 :=
      not_lt.mp fun far => still ⟨_, mem', far⟩
    have here := chans _ mem'
    rw [Part.firedChannel_near near] at here
    simp only [List.getElem_zip] at here
    rw [here, Channel.dropMover_eq]
    exact ⟨rfl, rfl⟩
  · rw [Part.completeCue_ctl awake (by rw [ctl]; exact clear), ctl]

/-- R67, R77, R126: what a fire that has nothing to travel makes of its group and its queue, where the queue's next head waits. -/
theorem Part.fired_completes (admits : p.Admits g tier l targets) (still : ¬p.Travels g targets)
    (clear : p.ctl.silenceDisarm = false) (waits : (p.setQueue g queue).HeadWaits g) (n : Nat) :
    (p.setQueue g queue).CompletesAtOnce
      (((p.fired g tier l src v demandOf targets queue).completeCue g n).arm .completion g).drive g n := by
  obtain ⟨group, own, code, alone, others, lanes, kept, ctl⟩ :=
    Part.fired_completed (src := src) (v := v) (demandOf := demandOf) (queue := queue) admits still n
  generalize (p.fired g tier l src v demandOf targets queue).completeCue g n = q at group own code alone others lanes kept ctl
  have clock : q.clock = p.clock := kept .clock (by simp)
  have bound : (q.group g).boundTrack = (p.group g).boundTrack := by rw [group]
  have same : q.HeadWaits g ↔ (p.setQueue g queue).HeadWaits g := by
    unfold Part.HeadWaits Part.Armable
    rw [bound, own, clock, Part.setQueue_queue_self, Part.setQueue_group, Part.setQueue_clock]
  have told : q.queueOnCompletion g = (p.setQueue g queue).queueOnCompletion g := by
    unfold Part.queueOnCompletion Part.Armable
    rw [bound, own, Part.setQueue_queue_self, Part.setQueue_group]
  rw [Part.arm_waits (by rw [group]) (same.mpr waits), told]
  refine ⟨?_, by simp, ?_, ⟨fun h other => ?_, fun c out => ?_⟩, fun h other => ?_, fun ln mem => ?_, ?_⟩
  · rw [Part.drive_group, Part.modQueue_group, group, Part.setQueue_group]
  · rw [Part.drive_codes, Part.modQueue_codes, code]
  · rw [Part.drive_group, Part.modQueue_group, alone.1 h other, Part.setQueue_group]
  · rw [Part.drive_chan, Part.modQueue_chan, alone.2 c out, Part.setQueue_chan]
  · rw [Part.drive_queue, Part.modQueue_queue_ne _ _ _ _ other, others h other, Part.setQueue_queue_ne _ _ _ _ other]
  · rw [Part.setQueue_group] at mem
    obtain ⟨idle, free⟩ := lanes ln mem
    rw [Part.drive_chan, Part.modQueue_chan]
    exact ⟨idle, free, (Part.drive_safe (by simp [Channel.live, idle])).1⟩
  · have setting : Kept (p.setQueue g queue) q [.samples, .clock, .tracks] := fun b mem => by
      have here := kept b mem
      simp only [List.mem_cons, List.not_mem_nil, or_false] at mem
      rcases mem with rfl | rfl | rfl <;> exact here
    refine (Kept.cons_iff.mpr ⟨?_, (setting.trans ((Part.modQueue_kept _ _ _).mono (by simp))).drive⟩ :
      Kept _ _ [.taken, .samples, .clock, .tracks]).mono (by simp)
    show Part.ctl (Part.drive _) = _
    rw [Part.drive_ctl, Part.modQueue_ctl, ctl clear, ← clear]
    rfl

end AtOnce

end Sys2Proof.Machine
end

section
set_option Elab.async false
/-! PROOFS. GO, and the heads that a dwell or a mark fires or drops (R63 to R67, R87, R88, R118 to R125). -/

namespace Sys2Proof.Machine

/-! ### A taken frame changes nothing that a fire reads -/

section Taken
variable {p : Part} {m : Link} {g : Grp} {tier : Nat} {l : Link} {targets : List Int}

theorem Part.frameTaken_admits : (p.frameTaken m).Admits g tier l targets ↔ p.Admits g tier l targets := by
  constructor <;> rintro ⟨armed, awake, unbound, lengths, distinct, allow, free, bounds⟩ <;> cases m <;>
    exact ⟨armed, awake, unbound, lengths, distinct, allow, free, bounds⟩

@[simp] theorem Part.frameTaken_cueTargets (x : Cue) : (p.frameTaken m).cueTargets g x = p.cueTargets g x := by cases m <;> rfl

theorem Part.frameTaken_travels : (p.frameTaken m).Travels g targets ↔ p.Travels g targets := by cases m <;> exact Iff.rfl

theorem Part.frameTaken_started {q : Part} {src : MoveSource} {v : Option Nat} {demandOf : Lane → Int → Nat} :
    (p.frameTaken m).Started q g tier l src v demandOf targets ↔ p.Started q g tier l src v demandOf targets := by
  cases m <;> exact Iff.rfl

theorem Part.frameTaken_alone {q : Part} : (p.frameTaken m).Alone q g ↔ p.Alone q g := by cases m <;> exact Iff.rfl

theorem Part.frameTaken_completes {q : Part} {queue : CueQueue} {n : Nat} :
    ((p.frameTaken m).setQueue g queue).CompletesAtOnce q g n ↔ (p.setQueue g queue).CompletesAtOnce q g n := by
  have kept : Kept ((p.frameTaken m).setQueue g queue) q [.samples, .clock, .tracks, .taken]
      ↔ Kept (p.setQueue g queue) q [.samples, .clock, .tracks, .taken] := by
    simp only [Kept, List.mem_cons, List.not_mem_nil, or_false, forall_eq_or_imp, forall_eq]
    cases m <;> exact Iff.rfl
  unfold Part.CompletesAtOnce
  rw [kept]
  cases m <;> exact Iff.rfl

theorem Part.frameTaken_headWaits {queue : CueQueue} :
    ((p.frameTaken m).setQueue g queue).HeadWaits g ↔ (p.setQueue g queue).HeadWaits g := by cases m <;> exact Iff.rfl

end Taken

/-! ### A reply changes no record -/

section Reply
variable {p q : Part} {g : Grp} {l m : Link} {kind : Byte} {data : List Byte}

theorem Part.Started.answer {tier : Nat} {src : MoveSource} {v : Option Nat} {demandOf : Lane → Int → Nat} {targets : List Int}
    (h : p.Started q g tier m src v demandOf targets) (l : Link) (kind : Byte) (data : List Byte) :
    p.Started (q.drive.answer l kind .ok 0xFF data) g tier m src v demandOf targets := by
  obtain ⟨group, chans⟩ := h
  exact ⟨by rw [Part.answer_group, Part.drive_group, group], fun lt mem => by rw [Part.answer_chan, Part.drive_chan, chans lt mem]⟩

theorem Part.Alone.answer (h : p.Alone q g) (l : Link) (kind : Byte) (data : List Byte) :
    p.Alone (q.drive.answer l kind .ok 0xFF data) g := by
  obtain ⟨groups, chans⟩ := h
  exact ⟨fun h other => by rw [Part.answer_group, Part.drive_group, groups h other],
    fun c out => by rw [Part.answer_chan, Part.drive_chan, chans c out]⟩

theorem Part.CompletesAtOnce.answer {n : Nat} (h : p.CompletesAtOnce q g n) (l : Link) (kind : Byte) (data : List Byte) :
    p.CompletesAtOnce (q.answer l kind .ok 0xFF data) g n := by
  obtain ⟨group, queue, code, ⟨groups, chans⟩, others, lanes, kept⟩ := h
  refine ⟨by rw [Part.answer_group, group], by rw [Part.answer_queue, queue], by rw [Part.answer_codes, code],
    ⟨fun h other => by rw [Part.answer_group, groups h other], fun c out => by rw [Part.answer_chan, chans c out]⟩,
    fun h other => by rw [Part.answer_queue, others h other], fun ln mem => ?_, kept.answer l kind .ok 0xFF data⟩
  rw [Part.answer_chan, Part.answer_port]
  exact lanes ln mem

end Reply

/-! ### The fire of a GO (R87, R88, R124) -/

section Fired
variable {p : Part} {g : Grp} {tier : Nat} {l : Link} {targets : List Int} {src : MoveSource} {v : Option Nat}
  {demandOf : Lane → Int → Nat}

theorem Part.startMove_modQueue (p : Part) (g : Grp) (tier : Nat) (l : Link) (src : MoveSource) (v : Option Nat)
    (demandOf : Lane → Int → Nat) (targets : List Int) (f : CueQueue → CueQueue) :
    (p.startMove g tier l src v (p.planOf g demandOf targets)).modQueue g f
      = p.fired g tier l src v demandOf targets (f (p.queue g)) := by
  have same : (p.startMove g tier l src v (p.planOf g demandOf targets)).queue g = p.queue g := by
    simp only [Part.queue, Part.startMove_queues]
  unfold Part.modQueue Part.fired
  rw [same]

theorem Part.afterFire_travels (distinct : ((p.group g).lanes.map (·.channel)).Nodup) (travels : p.Travels g targets)
    (queue : CueQueue) (n : Nat) :
    (p.fired g tier l src v demandOf targets queue).afterFire g n = p.fired g tier l src v demandOf targets queue :=
  if_neg fun arrived => (Part.fired_started distinct).allArrived.mp arrived travels

theorem Part.afterFire_still (distinct : ((p.group g).lanes.map (·.channel)).Nodup) (still : ¬p.Travels g targets)
    (queue : CueQueue) (n : Nat) :
    (p.fired g tier l src v demandOf targets queue).afterFire g n
      = ((p.fired g tier l src v demandOf targets queue).completeCue g n).arm .completion g :=
  if_pos ((Part.fired_started distinct).allArrived.mpr still)

/-- R87, R124: the verdict of a GO on an IDLE group whose head is admitted. -/
theorem judgeGo_head {x : Cue} {rest : List Cue} (idle : (p.group g).state = .idle) (cues : (p.queue g).cues = x :: rest)
    (admits : p.Admits g tier l (p.cueTargets g x)) :
    judgeGo l tier [byteOf g.val] p = .accepted [] ((p.fired g tier l (.cue x.number) (some x.speed) (cueSpeed x.speed)
      (p.cueTargets g x) ((p.queue g).rest false)).afterFire g x.number) := by
  have head : judgeGo l tier [byteOf g.val] p = p.goHead l tier g := by
    rw [judgeGo, withGrp_byteOf, idle]
  rw [head, Part.goHead, cues]
  dsimp only
  rw [Part.fireCue_admitted admits idle]
  show Verdict.accepted [] (Part.afterFire (Part.modQueue _ g CueQueue.takeByGo) g x.number) = _
  rw [Part.startMove_modQueue]
  rfl

/-- R88, R124: the verdict of a GO on a HELD group whose move is admitted. -/
theorem judgeGo_held {m : MoveRecord} (held : (p.group g).state = .held) (move : (p.group g).move = some m)
    (admits : p.Admits g tier l (m.lanes.map (·.target))) :
    judgeGo l tier [byteOf g.val] p = .accepted [] ((p.fired g tier l m.source m.speed (cueSpeed (m.speed.getD 0))
      (m.lanes.map (·.target)) { p.queue g with blocked := false }).afterFire g
        (match m.source with | .cue n => n | .track _ => 0)) := by
  have again : judgeGo l tier [byteOf g.val] p = p.refire l tier g m := by
    rw [judgeGo, withGrp_byteOf, held, move]
  have unbound : (p.group g).boundTrack.isSome = false := by rw [admits.unbound]; rfl
  have plan : (p.heldPlan g m).map (·.1) = m.lanes.map (·.target) := by
    rw [Part.heldPlan_eq, Part.planOf_targets admits.lengths]
  rw [again, Part.refire, unbound, Part.fire_accepted _ _ (by rw [plan]; exact admits), Part.heldPlan_eq]
  show Verdict.accepted [] (Part.afterFire (Part.modQueue _ g CueQueue.unblock) g _) = _
  rw [Part.startMove_modQueue]
  rfl

/-- What the reply of a GO is sent with, where the move goes on. -/
theorem go_travels {s : State} {tier : Byte} (ready : s.part.Ready l) (low : tier.toNat ≤ 7) {queue : CueQueue} {n : Nat}
    (admits : s.part.Admits g (s.part.effectiveTier l tier) l targets) (travels : s.part.Travels g targets)
    (judged : judgeGo l (s.part.effectiveTier l tier) [byteOf g.val] (s.part.frameTaken l) = .accepted []
      (((s.part.frameTaken l).fired g (s.part.effectiveTier l tier) l src v demandOf targets queue).afterFire g n)) :
    Gives (.go l tier [byteOf g.val]) s fun q =>
      s.part.Answers q l 0x23 [] [.samples, .clock, .tracks, .codes]
      ∧ s.part.Started q g (s.part.effectiveTier l tier) l src v demandOf targets
      ∧ s.part.Alone q g ∧ q.queue g = queue ∧ s.part.OtherQueues q g := by
  have distinct := (Part.frameTaken_admits (m := l) |>.mpr admits).distinct
  rw [Part.afterFire_travels distinct (Part.frameTaken_travels.mpr travels)] at judged
  refine ⟨_, rfl, ?_⟩
  dsimp only
  rw [Part.judged_driven_accepts ready (by simp) rfl low judged]
  have queues (h : Grp) := (s.part.frameTaken l).fired_queue g h (s.part.effectiveTier l tier) l src v demandOf targets queue
  refine ⟨Part.answers_of_kept (Kept.drive ((Part.fired_kept _ _ _ _ _ _ _ _ _).mono (by simp))) _ _,
    (Part.frameTaken_started.mp (Part.fired_started distinct)).answer l _ _,
    (Part.frameTaken_alone.mp (Part.fired_alone ..)).answer l _ _, ?_, fun h other => ?_⟩
  · rw [Part.answer_queue, Part.drive_queue, queues, if_pos rfl]
  · rw [Part.answer_queue, Part.drive_queue, queues, if_neg other, Part.frameTaken_queue]

/-- What the reply of a GO is sent with, where the move completes at once. -/
theorem go_completes {s : State} {tier : Byte} (ready : s.part.Ready l) (low : tier.toNat ≤ 7) {queue : CueQueue} {n : Nat}
    (admits : s.part.Admits g (s.part.effectiveTier l tier) l targets) (still : ¬s.part.Travels g targets)
    (waits : (s.part.setQueue g queue).HeadWaits g)
    (judged : judgeGo l (s.part.effectiveTier l tier) [byteOf g.val] (s.part.frameTaken l) = .accepted []
      (((s.part.frameTaken l).fired g (s.part.effectiveTier l tier) l src v demandOf targets queue).afterFire g n)) :
    Gives (.go l tier [byteOf g.val]) s fun q =>
      q.Accepted l 0x23 [] ∧ (s.part.setQueue g queue).CompletesAtOnce q g n := by
  have admits' := Part.frameTaken_admits (m := l) |>.mpr admits
  have still' := mt (Part.frameTaken_travels (m := l)).mp still
  rw [Part.afterFire_still admits'.distinct still'] at judged
  refine ⟨_, rfl, ?_⟩
  dsimp only
  rw [Part.judged_driven_accepts ready (by simp) rfl low judged]
  refine ⟨Part.answer_accepted .., Part.CompletesAtOnce.answer ?_ l _ _⟩
  exact Part.frameTaken_completes.mp (Part.fired_completes admits' still' (by simp) (Part.frameTaken_headWaits.mpr waits) n)

end Fired

theorem goFiresTheHeadCue : Claims.GoFiresTheHeadCue := by
  intro l tier g x rest s ready low idle cues admits travels
  have judged := judgeGo_head (p := s.part.frameTaken l) (by simpa using idle) (by simpa using cues)
    (by rw [Part.frameTaken_admits, Part.frameTaken_cueTargets]; exact admits)
  rw [Part.frameTaken_cueTargets, Part.frameTaken_queue] at judged
  exact go_travels ready low admits travels judged

theorem goRefiresTheHeldMove : Claims.GoRefiresTheHeldMove := by
  intro l tier g m v s ready low held move speed admits travels
  have judged := judgeGo_held (p := s.part.frameTaken l) (by simpa using held) (by simpa using move)
    (Part.frameTaken_admits.mpr admits)
  rw [Part.frameTaken_queue, speed] at judged
  exact go_travels ready low admits travels judged

theorem goWithNothingToTravelCompletes : Claims.GoWithNothingToTravelCompletes := by
  intro l tier g s ready low completes
  refine ⟨fun x rest idle cues admits still waits => ?_, fun held m move n source admits still waits => ?_⟩
  · have judged := judgeGo_head (p := s.part.frameTaken l) (by simpa using idle) (by simpa using cues)
      (by rw [Part.frameTaken_admits, Part.frameTaken_cueTargets]; exact admits)
    rw [Part.frameTaken_cueTargets, Part.frameTaken_queue] at judged
    exact go_completes ready low admits still waits judged
  · have judged := judgeGo_held (p := s.part.frameTaken l) (by simpa using held) (by simpa using move)
      (Part.frameTaken_admits.mpr admits)
    rw [Part.frameTaken_queue, source] at judged
    exact go_completes ready low admits still waits judged

/-! ### What a fire is refused for (R63 to R65) -/

section Refusals
variable {p : Part} {g : Grp} {tier : Nat} {l : Link} {bad : Bool} {src : MoveSource} {v : Option Nat} {plan : List (Int × Nat)}
  {n : Nat}

theorem Part.fire_guarded (armed : p.ctl.mode = .armed) (first : p.FirstLane g n fun x => ¬x.Lets tier) :
    p.fire g tier l bad src v plan = .refused .tier (byteOf n) := by
  rw [Part.fire, armed, Part.firstLane_guarded first]
  rfl

theorem Part.fire_unclaimed (armed : p.ctl.mode = .armed) (lets : ∀ ln ∈ (p.group g).lanes, (p.chan ln.channel).Lets tier)
    (first : p.FirstLane g n fun x => x.owner ≠ some l) :
    p.fire g tier l bad src v plan = .refused .claim (byteOf n) := by
  rw [Part.fire, armed, Part.firstLane_lets lets, Part.firstLane_of_first first fun x => by simp [notOwnedBy]]
  rfl

theorem Part.firstLane_owned (owned : ∀ ln ∈ (p.group g).lanes, (p.chan ln.channel).owner = some l) :
    p.firstLane g (notOwnedBy l) = none :=
  (p.firstLane_none _ _).mpr fun ln mem => by simp [notOwnedBy, owned ln mem]

theorem Part.fire_unreferenced (armed : p.ctl.mode = .armed) (lets : ∀ ln ∈ (p.group g).lanes, (p.chan ln.channel).Lets tier)
    (owned : ∀ ln ∈ (p.group g).lanes, (p.chan ln.channel).owner = some l)
    (first : p.FirstLane g n fun x => x.referenced = false) :
    p.fire g tier l bad src v plan = .refused .unreferenced (byteOf n) := by
  rw [Part.fire, armed, Part.firstLane_lets lets, Part.firstLane_owned owned,
    Part.firstLane_of_first first fun x => by simp [unreferenced]]
  rfl

/-- A fire whose lanes pass TIER, CLAIM and UNREFERENCED. -/
theorem Part.fire_allowed (armed : p.ctl.mode = .armed) (allow : p.LanesAllow g tier l) :
    p.fire g tier l bad src v plan = refuseIf bad .state noIndex (check .state (p.firstLane g unreservable)
      (check .limit ((p.firstOut g plan).map byteOf) (.accepted [] (p.startMove g tier l src v plan)))) := by
  have referenced : p.firstLane g unreferenced = none :=
    (p.firstLane_none _ _).mpr fun ln mem => by simp [unreferenced, (allow ln mem).2.2]
  rw [Part.fire, armed, Part.firstLane_lets fun ln mem => (allow ln mem).1, Part.firstLane_owned fun ln mem => (allow ln mem).2.1,
    referenced]
  rfl

theorem Part.fire_unreservable (armed : p.ctl.mode = .armed) (allow : p.LanesAllow g tier l)
    (first : p.FirstLane g n fun x => x.state ≠ .idle ∨ x.mover ≠ .none) :
    p.fire g tier l false src v plan = .refused .state (byteOf n) := by
  rw [Part.fire_allowed armed allow, Part.firstLane_of_first first fun x => by simp [unreservable]]
  rfl

/-- R64: the first lane whose target is out of bounds. -/
theorem Part.firstOut_planOf (p : Part) (g : Grp) (demandOf : Lane → Int → Nat) (targets : List Int) :
    p.firstOut g (p.planOf g demandOf targets)
      = ((p.group g).lanes.zip targets).findIdx? fun lt => outOfBounds (p.chan lt.1.channel) lt.2 := by
  rw [Part.firstOut, Part.planOf, zip_map_zip, List.findIdx?_map]
  rfl

theorem Part.fire_out (armed : p.ctl.mode = .armed) (allow : p.LanesAllow g tier l)
    (free : ∀ ln ∈ (p.group g).lanes, (p.chan ln.channel).state = .idle ∧ (p.chan ln.channel).mover = .none)
    {demandOf : Lane → Int → Nat} {targets : List Int} {lt : Lane × Int} (found : ((p.group g).lanes.zip targets)[n]? = some lt)
    (out : (p.chan lt.1.channel).Bars lt.2)
    (before : ∀ k u, k < n → ((p.group g).lanes.zip targets)[k]? = some u → ¬(p.chan u.1.channel).Bars u.2) :
    p.fire g tier l false src v (p.planOf g demandOf targets) = .refused .limit (byteOf n) := by
  have reservable : p.firstLane g unreservable = none :=
    (p.firstLane_none _ _).mpr fun ln mem => by simp [unreservable, free ln mem]
  obtain ⟨short, rfl⟩ := List.getElem?_eq_some_iff.mp found
  have index : p.firstOut g (p.planOf g demandOf targets) = some n := by
    rw [Part.firstOut_planOf, List.findIdx?_eq_some_iff_getElem]
    refine ⟨short, (outOfBounds_iff _ _).mpr out, fun j less => ?_⟩
    rw [outOfBounds_iff]
    exact before j _ less (List.getElem?_eq_getElem (less.trans short))
  rw [Part.fire_allowed armed allow, reservable, index]
  rfl

/-- A GO is a fire: of the held move on a HELD group, of the head on any other, and of nothing where there is no head. -/
theorem judgeGo_refused {code : Result} {index : Byte}
    (refired : ∀ m, (p.group g).state = .held → (p.group g).move = some m →
      p.fire g tier l (p.group g).boundTrack.isSome m.source m.speed (p.heldPlan g m) = .refused code index)
    (headed : ∀ x rest, (∀ m, (p.group g).state = .held → (p.group g).move ≠ some m) → (p.queue g).cues = x :: rest →
      p.fireCue g tier l x = .refused code index)
    (bare : (∀ m, (p.group g).state = .held → (p.group g).move ≠ some m) → (p.queue g).cues = [] →
      p.fire g tier l true (.cue 0) none [] = .refused code index) :
    judgeGo l tier [byteOf g.val] p = .refused code index := by
  have head (bare' : ∀ m, (p.group g).state = .held → (p.group g).move ≠ some m) :
      p.goHead l tier g = .refused code index := by
    unfold Part.goHead
    split
    · next empty => exact bare bare' empty
    · next x rest cues =>
      rw [headed x rest bare' cues]
      rfl
  rw [judgeGo, withGrp_byteOf]
  split
  · next m held move =>
    rw [Part.refire, refired m held move]
    rfl
  · next unheld => exact head unheld

end Refusals

theorem goRefusals : Claims.GoRefusals := by
  intro l tier g s ready low p refused
  have refuses {code : Result} {index : Byte}
      (judged : judgeGo l (p.effectiveTier l tier) [byteOf g.val] (p.frameTaken l) = .refused code index) :
      refused code index := ⟨_, rfl, Part.judged_driven_refuses ready (by simp) rfl low judged⟩
  have every {code : Result} {index : Byte} (fires : ∀ bad src v plan,
      (p.frameTaken l).fire g (p.effectiveTier l tier) l bad src v plan = .refused code index) : refused code index :=
    refuses (judgeGo_refused (fun _ _ _ => fires ..) (fun _ _ _ _ => fires ..) fun _ _ => fires ..)
  have lanes : ((p.frameTaken l).group g).lanes = (p.group g).lanes := by rw [Part.frameTaken_group]
  have first {n : Nat} {bad : Channel → Prop} (h : p.FirstLane g n bad) : (p.frameTaken l).FirstLane g n bad := by
    simpa [Part.FirstLane, Part.FirstIn] using h
  refine ⟨fun unarmed => every fun _ _ _ _ => Part.fire_unarmed (by simpa using unarmed) .., fun armed => ?_⟩
  have armed' : (p.frameTaken l).ctl.mode = .armed := by simpa using armed
  refine ⟨fun n guarded => every fun _ _ _ _ => Part.fire_guarded armed' (first guarded), fun lets => ⟨fun n unclaimed => ?_,
    fun owned n unreferenced => ?_⟩, fun allow => ?_⟩
  · exact every fun _ _ _ _ => Part.fire_unclaimed armed' (by simpa using lets) (first unclaimed)
  · exact every fun _ _ _ _ => Part.fire_unreferenced armed' (by simpa using lets) (by simpa using owned) (first unreferenced)
  have allow' : (p.frameTaken l).LanesAllow g (p.effectiveTier l tier) l := by simpa [Part.LanesAllow] using allow
  have barred (src : MoveSource) (v : Option Nat) (plan : List (Int × Nat)) :
      (p.frameTaken l).fire g (p.effectiveTier l tier) l true src v plan = .refused .state 0xFF :=
    Part.fire_allowed armed' allow'
  have cueBarred (bad : (p.frameTaken l).cueBarred g = true) (x : Cue) :
      (p.frameTaken l).fireCue g (p.effectiveTier l tier) l x = .refused .state 0xFF := by
    rw [Part.fireCue, bad]
    exact barred ..
  refine ⟨fun idle held => ?_, fun idle empty => ?_, fun bound => ?_, fun targets unbound matter => ?_⟩
  · refine refuses (judgeGo_refused (fun m state => ?_) (fun x _ _ _ => cueBarred ?_ x) fun _ _ => barred ..)
    · exact absurd (by simpa using state) held
    · simp [Part.cueBarred, show ((p.group g).state != .idle) = true by simpa using idle]
  · refine refuses (judgeGo_refused (fun m state => ?_) (fun x rest _ cues => ?_) fun _ _ => barred ..)
    · rw [Part.frameTaken_group, idle] at state
      cases state
    · rw [Part.frameTaken_queue, empty] at cues
      cases cues
  · refine refuses (judgeGo_refused (fun m _ _ => ?_) (fun x _ _ _ => cueBarred ?_ x) fun _ _ => barred ..)
    · rw [Part.frameTaken_group, bound]
      exact barred ..
    · simp [Part.cueBarred, bound]
  have fires {code : Result} {index : Byte} (fires : ∀ src v demandOf,
      (p.frameTaken l).fire g (p.effectiveTier l tier) l false src v ((p.frameTaken l).planOf g demandOf targets)
        = .refused code index) : refused code index := by
    refine refuses (judgeGo_refused (fun m state move => ?_) (fun x rest unheld cues => ?_) fun unheld empty => ?_)
    · rw [Part.frameTaken_group] at state move
      rcases matter with ⟨idle, -⟩ | ⟨-, m', move', rfl, -⟩
      · rw [idle] at state
        cases state
      · rw [move] at move'
        cases move'
        rw [Part.frameTaken_group, unbound, Part.heldPlan_eq]
        exact fires ..
    · rw [Part.frameTaken_queue] at cues
      rcases matter with ⟨idle, x', head, rfl⟩ | ⟨held, m, move, -⟩
      · rw [cues] at head
        cases head
        have free : (p.frameTaken l).cueBarred g = false := by simp [Part.cueBarred, idle, unbound]
        rw [Part.fireCue, free, Part.cuePlan_eq, Part.frameTaken_cueTargets]
        exact fires ..
      · exact absurd (by simpa using move) (unheld m (by simpa using held))
    · rw [Part.frameTaken_queue] at empty
      rcases matter with ⟨-, x', head, -⟩ | ⟨held, m, move, -⟩
      · rw [empty] at head
        cases head
      · exact absurd (by simpa using move) (unheld m (by simpa using held))
  refine ⟨fun n unreservable => fires fun _ _ _ => Part.fire_unreservable armed' allow' (first unreservable),
    fun free n lt found out before => fires fun _ _ _ => Part.fire_out armed' allow' (by simpa using free) (lt := lt)
      (by rw [lanes]; exact found) (by simpa using out) ?_⟩
  simpa using before

/-- Settles O42: each fire is one step of the queue and the group, and a refusal is the first check of a fire that fails. -/
theorem goFiresTheHeadOrTheHeldMove : Obligations.GoFiresTheHeadOrTheHeldMove :=
  ⟨goFiresTheHeadCue, goRefiresTheHeldMove, goWithNothingToTravelCompletes, goRefusals⟩

end Sys2Proof.Machine
end

section
set_option Elab.async false
/-! PROOFS. A head whose dwell runs out or whose mark is reached: it fires, or it is dropped (R119, R120, R122, R123, R125). -/

namespace Sys2Proof.Machine

/-! ### A change of a queue changes nothing that a fire reads -/

section Queued
variable {p : Part} {g h : Grp} {f : CueQueue → CueQueue} {tier : Nat} {l : Link} {targets : List Int}

theorem Part.modQueue_admits : (p.modQueue g f).Admits h tier l targets ↔ p.Admits h tier l targets := by
  constructor <;> rintro ⟨armed, awake, unbound, lengths, distinct, allow, free, bounds⟩ <;>
    exact ⟨armed, awake, unbound, lengths, distinct, allow, free, bounds⟩

@[simp] theorem Part.modQueue_cueTargets (x : Cue) : (p.modQueue g f).cueTargets h x = p.cueTargets h x := rfl

theorem Part.modQueue_travels : (p.modQueue g f).Travels h targets ↔ p.Travels h targets := Iff.rfl

end Queued

/-! ### A head that is to fire -/

section Due
variable {p : Part} {g : Grp} {x : Cue} {rest : List Cue}

/-- R121, R122: the fire of a head that a judgement names, with its queue disarmed. -/
theorem Part.dueHead_eq (cues : (p.queue g).cues = x :: rest) (q : Part) (due : q = p.modQueue g CueQueue.disarm) :
    Part.fireIf (q, true) g = Part.fireHead (rest.length + 1) g q := by
  rw [Part.fireIf_fires, due, Part.modQueue_queue_self, CueQueue.disarm, cues]
  rfl

/-- R66, R122: the part once a due head has fired, and the queue it leaves. -/
def Part.headFired (p : Part) (g : Grp) (x : Cue) (rest : List Cue) : Part :=
  (p.modQueue g CueQueue.disarm).fired g x.tier x.origin (.cue x.number) (some x.speed) (cueSpeed x.speed) (p.cueTargets g x)
    ((p.queue g).rest ((p.queue g).blocked && !rest.isEmpty))

theorem Part.headFired_popped (cues : (p.queue g).cues = x :: rest) :
    ((p.modQueue g CueQueue.disarm).startMove g x.tier x.origin (.cue x.number) (some x.speed)
      ((p.modQueue g CueQueue.disarm).planOf g (cueSpeed x.speed) ((p.modQueue g CueQueue.disarm).cueTargets g x))).modQueue g
        CueQueue.pop = p.headFired g x rest := by
  rw [Part.startMove_modQueue, Part.modQueue_cueTargets, Part.modQueue_queue_self]
  unfold Part.headFired
  congr 1
  simp [CueQueue.pop, CueQueue.rest, CueQueue.disarm, cues]

/-- R122: a due head fires, and its move goes on. -/
theorem Part.dueHead_started (cues : (p.queue g).cues = x :: rest) (idle : (p.group g).state = .idle)
    (admits : p.Admits g x.tier x.origin (p.cueTargets g x)) (travels : p.Travels g (p.cueTargets g x)) :
    Part.fireIf (p.modQueue g CueQueue.disarm, true) g = p.headFired g x rest := by
  rw [Part.dueHead_eq cues _ rfl, Part.fireHead_started (x := x) (rest := rest) (by simpa [CueQueue.disarm] using cues)
    (Part.modQueue_admits.mpr admits) idle travels]
  exact Part.headFired_popped cues

theorem Part.headFired_started (distinct : ((p.group g).lanes.map (·.channel)).Nodup) :
    p.Started (p.headFired g x rest) g x.tier x.origin (.cue x.number) (some x.speed) (cueSpeed x.speed) (p.cueTargets g x) :=
  Part.fired_started (p := p.modQueue g CueQueue.disarm) distinct

theorem Part.headFired_alone : p.Alone (p.headFired g x rest) g :=
  Part.fired_alone (p.modQueue g CueQueue.disarm) g _ _ _ _ _ _ _

theorem Part.headFired_kept :
    Kept p (p.headFired g x rest) [.ctl, .link .a, .link .b, .ports, .samples, .clock, .tracks, .codes] :=
  ((Part.modQueue_kept p g CueQueue.disarm).mono (by simp)).trans (Part.fired_kept _ _ _ _ _ _ _ _ _)

theorem Part.headFired_queue (h : Grp) :
    (p.headFired g x rest).queue h
      = if h = g then (p.queue g).rest ((p.queue g).blocked && !rest.isEmpty) else p.queue h := by
  unfold Part.headFired
  rw [Part.fired_queue]
  refine ite_congr rfl (fun _ => rfl) fun other => ?_
  exact Part.modQueue_queue_ne p g h _ other

/-- R63, R123: a due head is dropped where the device is not ARMED. -/
theorem Part.dueHead_refused (cues : (p.queue g).cues = x :: rest) (unarmed : p.ctl.mode ≠ .armed) :
    Part.fireIf (p.modQueue g CueQueue.disarm, true) g = (p.modQueue g CueQueue.disarm).dropRefused g x .mode noIndex := by
  rw [Part.dueHead_eq cues _ rfl]
  exact Part.fireHead_refused (p := p.modQueue g CueQueue.disarm) (x := x) (rest := rest) (by simpa [CueQueue.disarm] using cues)
    (Part.fire_unarmed (p := p.modQueue g CueQueue.disarm) unarmed _ _ _ _) _

end Due

/-! ### A head that is dropped -/

/-- R123, R125: the queue once its head is dropped. -/
def droppedQueue (rest : List Cue) : CueQueue := { cues := rest, blocked := !rest.isEmpty, arming := .none, dwellTimer := none }

/-- R120, R123, R125: what the drop of a head leaves. -/
structure Part.Dropped (p q : Part) (g : Grp) (rest : List Cue) (e : Event) : Prop where
  own : q.queue g = droppedQueue rest
  code : q.codes.groups[g] = some e
  others : p.OtherQueues q g
  kept : Kept p q [.ctl, .channels, .ports, .samples, .groups, .clock, .tracks]

section Drop
variable {p : Part} {g : Grp} {x : Cue} {rest : List Cue}

theorem Part.dropped (cues : (p.queue g).cues = x :: rest) (awake : p.ctl.mode ≠ .parked) (e : Event) :
    p.Dropped ((p.modQueue g fun q => q.pop.block).raise (.group g) e) g rest e := by
  rw [Part.raise_awake (p := p.modQueue g fun q => q.pop.block) awake]
  refine ⟨?_, Vector.getElem_set_self_grp .., fun h other => Part.modQueue_queue_ne p g h (fun q => q.pop.block) other,
    ((Part.modQueue_kept _ _ _).mono (by simp)).trans ((Part.post_kept _ _ _).mono (by simp))⟩
  exact (p.modQueue_queue_self g fun q => q.pop.block).trans (CueQueue.pop_block cues)

/-- R121: a head that is dropped loses its arming with its place. -/
theorem Part.dropped_disarmed (cues : (p.queue g).cues = x :: rest) (awake : p.ctl.mode ≠ .parked) (code : Result) (index : Byte) :
    p.Dropped ((p.modQueue g CueQueue.disarm).dropRefused g x code index) g rest (.cueRefused x.number code index) := by
  obtain ⟨own, event, others, kept⟩ := Part.dropped (p := p.modQueue g CueQueue.disarm) (g := g) (x := x) (rest := rest)
    (by simpa [CueQueue.disarm] using cues) awake (.cueRefused x.number code index)
  exact ⟨own, event, fun h other => (others h other).trans (Part.modQueue_otherQueues p g _ h other),
    ((Part.modQueue_kept p g _).mono (by simp)).trans kept⟩

end Drop

/-! ### The occurrences that judge a head -/

section Judged
variable {g : Grp} {s : State}

theorem exec_dwellExpiry (free : s.part.ctl.held = false) (out : (s.part.queue g).dwellTimer = some 0) :
    exec (.dwellExpiry g) s
      = .next { s with part := (Part.fireIf (s.part.modQueue g CueQueue.disarm, true) g).drive } := by
  have taking : exec (.dwellExpiry g) s = execDwellExpiry g s := rfl
  rw [taking, execDwellExpiry, State.take_next, Part.awake_of_free free, out]
  rfl

theorem exec_markReached (free : s.part.ctl.held = false) :
    exec (.markReached g) s = .next { s with part := (s.part.judgeHead g).drive } := by
  have taking : exec (.markReached g) s = execMarkReached g s := rfl
  rw [taking, execMarkReached, State.take_next, Part.awake_of_free free]

variable {p : Part} {x : Cue} {rest : List Cue} {mark : Nat}

/-- R120: a head met within the late grace is to fire. -/
theorem Part.judgeHead_due (waiting : (p.queue g).arming = .awaitingMark) (cues : (p.queue g).cues = x :: rest)
    (trigger : x.trigger = .atMark mark) (running : p.clock.running = true) (reached : mark ≤ p.clock.value)
    (graced : p.clock.value ≤ mark + (p.group g).lateGrace) :
    p.judgeHead g = Part.fireIf (p.modQueue g CueQueue.disarm, true) g := by
  rw [Part.judgeHead, Part.judgeMark_eq waiting cues trigger, if_pos ⟨running, reached⟩, if_pos graced]

/-- R120: a head met later than the late grace is dropped. -/
theorem Part.judgeHead_late (waiting : (p.queue g).arming = .awaitingMark) (cues : (p.queue g).cues = x :: rest)
    (trigger : x.trigger = .atMark mark) (running : p.clock.running = true)
    (late : mark + (p.group g).lateGrace < p.clock.value) : p.judgeHead g = p.dropLate g x := by
  rw [Part.judgeHead, Part.judgeMark_eq waiting cues trigger, if_pos ⟨running, by omega⟩, if_neg (by omega)]
  rfl

/-- R120: a mark that the clock has not reached, or that stands before a stopped clock, waits on. -/
theorem Part.judgeHead_waits (waiting : (p.queue g).arming = .awaitingMark) (cues : (p.queue g).cues = x :: rest)
    (trigger : x.trigger = .atMark mark) (ahead : ¬p.clock.running = true ∨ p.clock.value < mark) : p.judgeHead g = p := by
  rw [Part.judgeHead, Part.judgeMark_eq waiting cues trigger, if_neg]
  · rfl
  · rintro ⟨running, reached⟩
    rcases ahead with stopped | before
    · exact stopped running
    · omega

end Judged

theorem dwellAndMarkFireTheHead : Claims.DwellAndMarkFireTheHead := by
  intro i g x rest s free idle cues occasion admits travels
  have due : exec i s = .next { s with part := (Part.fireIf (s.part.modQueue g CueQueue.disarm, true) g).drive } := by
    rcases occasion with ⟨rfl, out⟩ | ⟨mark, rfl, waiting, trigger, running, reached, graced⟩
    · exact exec_dwellExpiry free out
    · rw [exec_markReached free, Part.judgeHead_due waiting cues trigger running reached graced]
  refine ⟨_, due, ?_⟩
  rw [Part.dueHead_started cues idle admits travels]
  obtain ⟨group, chans⟩ := Part.headFired_started (x := x) (rest := rest) admits.distinct
  obtain ⟨groups, outside⟩ := Part.headFired_alone (p := s.part) (g := g) (x := x) (rest := rest)
  refine ⟨⟨by rw [Part.drive_group, group], fun lt mem => by rw [Part.drive_chan, chans lt mem]⟩,
    ⟨fun h other => by rw [Part.drive_group, groups h other], fun c out => by rw [Part.drive_chan, outside c out]⟩, ?_,
    fun h other => ?_, Kept.drive (Part.headFired_kept.mono (by simp))⟩
  · rw [Part.drive_queue, Part.headFired_queue, if_pos rfl]
  · rw [Part.drive_queue, Part.headFired_queue, if_neg other]

/-- What the drop of a head leaves once the ports are driven. -/
theorem Part.Dropped.driven {p q : Part} {g : Grp} {rest : List Cue} {e : Event} (h : p.Dropped q g rest e) :
    q.drive.queue g = droppedQueue rest ∧ q.drive.codes.groups[g] = some e ∧ p.OtherQueues q.drive g
      ∧ Kept p q.drive [.channels, .samples, .groups, .clock, .tracks, .ctl] := by
  obtain ⟨own, code, others, kept⟩ := h
  refine ⟨by rw [Part.drive_queue, own], by rw [Part.drive_codes, code], fun h other => ?_, Kept.drive (kept.mono (by simp))⟩
  rw [Part.drive_queue, others h other]

theorem lateAndRefusedHeadsAreDropped : Claims.LateAndRefusedHeadsAreDropped := by
  intro g x rest s free cues awake
  refine ⟨fun mark waiting trigger running late => ?_, fun unarmed out => ?_⟩
  · refine ⟨_, exec_markReached free, ?_⟩
    rw [Part.judgeHead_late waiting cues trigger running late]
    exact (Part.dropped cues awake (.cueLate x.number)).driven
  · refine ⟨_, exec_dwellExpiry free out, ?_⟩
    rw [Part.dueHead_refused cues unarmed]
    exact (Part.dropped_disarmed cues awake .mode noIndex).driven

/-- Settles O51: both occurrences come to the fire of a head whose queue is disarmed, and a drop is one step of the queue. -/
theorem headsFireOrAreDropped : Obligations.HeadsFireOrAreDropped := ⟨dwellAndMarkFireTheHead, lateAndRefusedHeadsAreDropped⟩

end Sys2Proof.Machine
end

section
set_option Elab.async false
/-! PROOFS. CLEAR_FAULT, on a span and on a group (R90, R104 to R106). -/

namespace Sys2Proof.Machine

/-! ### The clearing conditions (R104, R105) -/

theorem Part.clearable_iff (p : Part) (c : Chan) (k : FaultKind) : p.clearable c k = true ↔ p.CanClear c k := by
  cases k <;> simp [Part.clearable, Part.CanClear, Channel.overloaded, atStandstill_iff]

theorem Part.clearBad_iff (p : Part) (c : Chan) :
    p.clearBad c = true ↔ ∃ r, (p.chan c).fault = some r
      ∧ ((p.chan c).state = .stopping ∨ ∃ k ∈ r.first :: r.further, ¬p.CanClear c k) := by
  unfold Part.clearBad
  cases (p.chan c).fault with
  | none => simp
  | some r => simp [← Part.clearable_iff]

@[simp] theorem Part.frameTaken_clearBad (p : Part) (l : Link) (c : Chan) : (p.frameTaken l).clearBad c = p.clearBad c := by
  cases l <;> rfl

theorem find?_spanMembers {f e c : Chan} {bad : Chan → Bool} (inside : InSpan f e c) (meets : bad c = true)
    (lowest : ∀ d, f ≤ d → d < c → bad d = false) : (spanMembers f e).find? bad = some c := by
  unfold spanMembers
  rw [List.find?_filter]
  refine find?_allChans (by simp [inside.1, inside.2, meets]) fun d less => ?_
  by_cases below : f ≤ d
  · simp [lowest d below less]
  · simp [below]

/-! ### The span form (R105, R106, R17) -/

section Span
variable {p : Part} {l : Link} {tier : Nat} {f e : Chan}

theorem judgeClearFault_span (first : p.hasChan f = true) (last : p.hasChan e = true) :
    judgeClearFault l tier [0, byteOf f.val, byteOf e.val] p = p.clearFaults l tier (spanMembers f e) := by
  unfold judgeClearFault
  dsimp only
  rw [if_pos rfl, Part.withSpan_byteOf first last]

/-- R105: a span that passes TIER and CLAIM. -/
theorem Part.clearFaults_allowed (lets : ∀ c, InSpan f e c → (p.chan c).Lets tier)
    (free : ∀ c, InSpan f e c → (p.chan c).owner ≠ some l.other)
    (mild : ∀ c, InSpan f e c → 1 < tier →
      (p.chan c).holdsFault .reversed = false ∧ (p.chan c).holdsFault .runaway = false) :
    p.clearFaults l tier (spanMembers f e) =
      check .state (((spanMembers f e).find? p.clearBad).map fun c => byteOf c.val)
        (.accepted [byteOf (p.countChans (spanMembers f e) fun x => x.fault.isSome)] (p.clearSpan (spanMembers f e))) := by
  have grave : (if 1 < tier then p.firstChan (spanMembers f e) holdsGrave else none) = none := by
    split
    · next low =>
      refine (p.firstChan_none _ _).mpr fun c mem => ?_
      obtain ⟨straight, steady⟩ := mild c ((mem_spanMembers f e c).mp mem) low
      simp [holdsGrave, straight, steady]
    · rfl
  have unclaimed : p.firstChan (spanMembers f e) (ownedByOther l) = none :=
    (p.firstChan_none _ _).mpr fun c mem => by simpa [ownedByOther] using free c ((mem_spanMembers f e c).mp mem)
  rw [Part.clearFaults, grave, Part.firstChan_lets lets, unclaimed]
  rfl

theorem Part.clearSpan_chan (p : Part) (f e c : Chan) :
    (p.clearSpan (spanMembers f e)).chan c =
      if f ≤ c ∧ c ≤ e ∧ (p.chan c).fault ≠ none then (p.chan c).clearFault else p.chan c := by
  unfold Part.clearSpan
  rw [Part.forEach_modChan p _ (fun _ x => if x.fault.isSome then x.clearFault else x) (spanMembers_nodup f e)]
  simp only [mem_spanMembers, InSpan, Option.isSome_iff_ne_none, ← ite_and, and_assoc]

theorem Part.clearSpan_kept (p : Part) (members : List Chan) :
    Kept p (p.clearSpan members) [.ctl, .link .a, .link .b, .ports, .samples, .groups, .queues, .clock, .tracks, .codes] :=
  Part.forEach_inv (P := fun q => Kept p q _) (.refl p _) fun _ _ _ kept => kept.trans (Part.modChan_kept _ _ _)

theorem Channel.clearFault_eq (x : Channel) :
    x.clearFault = { x with
      fault := none, rest := if x.holdsFault .runaway then x.raw else x.rest
      state := if x.state ≠ .faulted then x.state else if x.mover = .none then .idle else .holding } := by
  unfold Channel.clearFault
  rw [ite_not]

end Span

theorem clearFaultClearsTheSpan : Claims.ClearFaultClearsTheSpan := by
  intro l tier f e s ready low first last allowed
  have judged : judgeClearFault l (s.part.effectiveTier l tier) [0, byteOf f.val, byteOf e.val] (s.part.frameTaken l)
      = check .state (((spanMembers f e).find? (s.part.frameTaken l).clearBad).map fun c => byteOf c.val)
        (.accepted [byteOf ((s.part.frameTaken l).countChans (spanMembers f e) fun x => x.fault.isSome)]
          ((s.part.frameTaken l).clearSpan (spanMembers f e))) := by
    rw [judgeClearFault_span (by simpa using first) (by simpa using last)]
    refine Part.clearFaults_allowed (fun c inside => ?_) (fun c inside => ?_) fun c inside bold => ?_ <;>
      rw [Part.frameTaken_chan]
    · exact (allowed c inside).1
    · exact (allowed c inside).2.1
    · exact (allowed c inside).2.2 bold
  refine ⟨fun clearable => ⟨_, rfl, ?_⟩, fun c r inside record barred lowest => ⟨_, rfl, ?_⟩⟩
  · have clear : (spanMembers f e).find? (s.part.frameTaken l).clearBad = none := by
      refine List.find?_eq_none.mpr fun c mem bad => ?_
      rw [Part.frameTaken_clearBad, Part.clearBad_iff] at bad
      obtain ⟨r, record, barred⟩ := bad
      obtain ⟨moves, kinds⟩ := clearable c r ((mem_spanMembers f e c).mp mem) record
      rcases barred with stopping | ⟨k, mem, stays⟩
      · exact moves stopping
      · exact stays (kinds k mem)
    rw [clear] at judged
    dsimp only
    rw [Part.judged_driven_accepts ready (by simp) rfl low judged, Part.countChans_span]
    refine ⟨?_, fun c => ?_⟩
    · simp only [Part.frameTaken_chan, Option.isSome_iff_ne_none]
      exact Part.answers_of_kept (Kept.drive ((Part.clearSpan_kept _ _).mono (by simp))) ..
    · rw [Part.answer_chan, Part.drive_chan, Part.clearSpan_chan, Part.frameTaken_chan, Channel.clearFault_eq]
  · refine Part.judged_driven_refuses ready (by simp) rfl low (judged.trans ?_)
    have found : (spanMembers f e).find? (s.part.frameTaken l).clearBad = some c :=
      find?_spanMembers inside (by rw [Part.frameTaken_clearBad, Part.clearBad_iff]; exact ⟨r, record, barred⟩)
        fun d above less => by
          rw [Part.frameTaken_clearBad, ← Bool.not_eq_true, Part.clearBad_iff]
          rintro ⟨r, held, -⟩
          rw [lowest d above less] at held
          cases held
    rw [found]
    rfl

/-! ### The group form (R90) -/

section Group
variable {p : Part} {l : Link} {tier : Nat} {g : Grp}

theorem judgeClearFault_group (b : Byte) :
    judgeClearFault l tier [1, byteOf g.val, b] p = p.clearGroupFault l tier g := by
  unfold judgeClearFault
  dsimp only
  rw [if_neg (by decide), if_pos rfl, withGrp_byteOf]

/-- R90: a FAULTED group whose lanes pass TIER, CLAIM and STATE. -/
theorem Part.clearGroupFault_allowed (faulted : (p.group g).state = .faulted)
    (lets : ∀ ln ∈ (p.group g).lanes, (p.chan ln.channel).Lets tier)
    (free : ∀ ln ∈ (p.group g).lanes, (p.chan ln.channel).owner ≠ some l.other)
    (whole : ∀ ln ∈ (p.group g).lanes, (p.chan ln.channel).fault = none) :
    p.clearGroupFault l tier g = .accepted [] (p.clearGroup g) := by
  have grave : (if 1 < tier then p.firstLane g holdsGrave else none) = none := by
    split
    · exact (p.firstLane_none _ _).mpr fun ln mem => by simp [holdsGrave, Channel.holdsFault, whole ln mem]
    · rfl
  have records : p.firstLane g (fun x => x.fault.isSome) = none :=
    (p.firstLane_none _ _).mpr fun ln mem => by simp [whole ln mem]
  rw [Part.clearGroupFault, grave, Part.firstLane_lets lets, Part.firstLane_unclaimed free, faulted, records]
  rfl

/-- R138: an unbinding whose group has no cue that waits arms nothing. -/
theorem Part.unbind_empty (empty : (p.queue g).cues = []) (t : Trk) :
    p.unbind t g = (p.modTrack t (Track.dropBound g)).modGroup g fun x => { x with boundTrack := none } := by
  unfold Part.unbind Part.arm
  rw [Part.armHead_empty (by simpa using empty), Part.fireIf_waits]

theorem Part.modTrack_kept (p : Part) (t : Trk) (f : Track → Track) :
    Kept p (p.modTrack t f)
      [.ctl, .link .a, .link .b, .channels, .ports, .samples, .groups, .queues, .clock, .codes] := by
  simp [Kept, Block.Kept]

end Group

theorem clearFaultClearsTheGroup : Claims.ClearFaultClearsTheGroup := by
  intro l tier b g m s ready low faulted move lanes
  have judged : judgeClearFault l (s.part.effectiveTier l tier) [1, byteOf g.val, b] (s.part.frameTaken l)
      = .accepted [] ((s.part.frameTaken l).clearGroup g) := by
    rw [judgeClearFault_group]
    refine Part.clearGroupFault_allowed (by simpa using faulted) (fun ln mem => ?_) (fun ln mem => ?_) fun ln mem => ?_ <;>
      rw [Part.frameTaken_group] at mem <;> rw [Part.frameTaken_chan]
    · exact (lanes ln mem).1
    · exact (lanes ln mem).2.1
    · exact (lanes ln mem).2.2
  refine ⟨fun ⟨n, source⟩ => ⟨_, rfl, ?_⟩, fun t source empty => ⟨_, rfl, ?_⟩⟩ <;> dsimp only
  · have track : ((s.part.frameTaken l).group g).trackOf = none := by
      rw [Part.frameTaken_group, Group.trackOf, move]
      dsimp only
      rw [source]
    have cleared : (s.part.frameTaken l).clearGroup g
        = (s.part.frameTaken l).modGroup g fun x => { x with fault := none, state := .held, held := true } := by
      rw [Part.clearGroup, track]
    rw [cleared] at judged
    rw [Part.judged_driven_accepts ready (by simp) rfl low judged]
    refine ⟨Part.answers_of_kept (Kept.drive ((Part.modGroup_kept _ _ _).mono (by simp))) .., ?_, fun h other => ?_⟩
    · rw [Part.answer_group, Part.drive_group, Part.modGroup_group_self, Part.frameTaken_group]
    · rw [Part.answer_group, Part.drive_group, Part.modGroup_group_ne _ _ _ _ other, Part.frameTaken_group]
  · have track : ((s.part.frameTaken l).group g).trackOf = some t := by
      rw [Part.frameTaken_group, Group.trackOf, move]
      dsimp only
      rw [source]
    have cleared : (s.part.frameTaken l).clearGroup g
        = ((((s.part.frameTaken l).modGroup g fun x => { x with fault := none, move := none, state := .idle }).modTrack t
            (Track.dropBound g)).modGroup g fun x => { x with boundTrack := none }) := by
      rw [Part.clearGroup, track]
      exact Part.unbind_empty (by simpa using empty) t
    rw [cleared] at judged
    rw [Part.judged_driven_accepts ready (by simp) rfl low judged]
    refine ⟨Part.answers_of_kept (Kept.drive ?_) .., ?_, fun h other => ?_, ?_⟩
    · exact (((Part.modGroup_kept _ _ _).mono (by simp)).trans ((Part.modTrack_kept _ _ _).mono (by simp))).trans
        ((Part.modGroup_kept _ _ _).mono (by simp))
    · rw [Part.answer_group, Part.drive_group, Part.modGroup_group_self, Part.modTrack_group, Part.modGroup_group_self,
        Part.frameTaken_group]
    · rw [Part.answer_group, Part.drive_group, Part.modGroup_group_ne _ _ _ _ other, Part.modTrack_group,
        Part.modGroup_group_ne _ _ _ _ other, Part.frameTaken_group]
    · rw [Part.answer_track, Part.drive_track, Part.modGroup_track, Part.modTrack_track_self, (Track.dropBound_keeps g _).1,
        mem_dropGroup]
      exact fun h => h.2 rfl

/-- Settles O45: the checks pass in the order of R105 and R90, and one change of the records is left. -/
theorem clearFaultClearsSpanOrGroup : Obligations.ClearFaultClearsSpanOrGroup :=
  ⟨clearFaultClearsTheSpan, clearFaultClearsTheGroup⟩

end Sys2Proof.Machine
end

section
set_option Elab.async false
/-! PROOFS. What a judgement of a head can change: its group, its queue, the group's lane channels and their notices
(R118 to R126). -/

namespace Sys2Proof.Machine

/-- A step of a group's queue touches nothing beside the group: no other group, queue or event code, and no channel but those of
its lanes. The Mode Controller stays as it is while the part is awake and no disarm is pending. -/
structure Part.Beside (g : Grp) (p q : Part) : Prop where
  kept : Kept p q [.samples, .clock, .tracks]
  groups : ∀ h, h ≠ g → q.group h = p.group h
  lanes : (q.group g).lanes = (p.group g).lanes
  chans : p.ctl.mode ≠ .parked → ∀ c, (∀ ln ∈ (p.group g).lanes, ln.channel ≠ c) → q.chan c = p.chan c
  queues : p.OtherQueues q g
  codes : ∀ h, h ≠ g → q.codes.groups[h] = p.codes.groups[h]
  awake : p.ctl.mode ≠ .parked → q.ctl.mode ≠ .parked
  unarmed : p.ctl.mode ≠ .armed → q.ctl.mode ≠ .armed
  ctl : p.ctl.mode ≠ .parked → p.ctl.silenceDisarm = false → q.ctl = p.ctl
  up : p.ctl.mode ≠ .halted → q.ctl.mode ≠ .halted

namespace Part.Beside
variable {p q r : Part} {g : Grp}

theorem refl (g : Grp) (p : Part) : Part.Beside g p p :=
  ⟨.refl p _, fun _ _ => rfl, rfl, fun _ _ _ => rfl, fun _ _ => rfl, fun _ _ => rfl, id, id, fun _ _ => rfl, id⟩

theorem trans (h : Part.Beside g p q) (k : Part.Beside g q r) : Part.Beside g p r where
  kept := h.kept.trans k.kept
  groups i other := (k.groups i other).trans (h.groups i other)
  lanes := k.lanes.trans h.lanes
  chans up c out := (k.chans (h.awake up) c (by rw [h.lanes]; exact out)).trans (h.chans up c out)
  queues i other := (k.queues i other).trans (h.queues i other)
  codes i other := (k.codes i other).trans (h.codes i other)
  awake up := k.awake (h.awake up)
  unarmed off := k.unarmed (h.unarmed off)
  ctl up clear := (k.ctl (h.awake up) (by rw [h.ctl up clear]; exact clear)).trans (h.ctl up clear)
  up off := k.up (h.up off)

/-- A step that keeps the Mode Controller and the codes. -/
theorem of_kept (kept : Kept p q [.samples, .clock, .tracks, .ctl, .codes]) (groups : ∀ h, h ≠ g → q.group h = p.group h)
    (lanes : (q.group g).lanes = (p.group g).lanes)
    (chans : ∀ c, (∀ ln ∈ (p.group g).lanes, ln.channel ≠ c) → q.chan c = p.chan c) (queues : p.OtherQueues q g) :
    Part.Beside g p q := by
  have ctl : q.ctl = p.ctl := kept .ctl (by simp)
  have codes : q.codes = p.codes := kept .codes (by simp)
  exact ⟨kept.mono (by simp), groups, lanes, fun _ => chans, queues, fun _ _ => by rw [codes], by rw [ctl]; exact id,
    by rw [ctl]; exact id, fun _ _ => ctl, by rw [ctl]; exact id⟩

theorem modQueue (p : Part) (g : Grp) (f : CueQueue → CueQueue) : Part.Beside g p (p.modQueue g f) :=
  .of_kept ((Part.modQueue_kept _ _ _).mono (by simp)) (fun _ _ => rfl) rfl (fun _ _ => rfl) (Part.modQueue_otherQueues p g f)

theorem modGroup (p : Part) (g : Grp) {f : Group → Group} (lanes : (f (p.group g)).lanes = (p.group g).lanes) :
    Part.Beside g p (p.modGroup g f) :=
  .of_kept ((Part.modGroup_kept _ _ _).mono (by simp)) (fun h other => Part.modGroup_group_ne _ _ _ _ other)
    (by rw [Part.modGroup_group_self, lanes]) (fun _ _ => rfl) fun _ _ => rfl

theorem startMove (p : Part) (g : Grp) (tier : Nat) (l : Link) (src : MoveSource) (v : Option Nat) (plan : List (Int × Nat)) :
    Part.Beside g p (p.startMove g tier l src v plan) :=
  have alone := p.startMove_alone g tier l src v plan
  .of_kept ((Part.startMove_kept _ _ _ _ _ _ _).mono (by simp)) alone.1 (by rw [Part.startMove_group, if_pos rfl]) alone.2
    fun _ _ => by simp only [Part.queue, Part.startMove_queues]

/-- R164: a pending disarm is the one thing that a cleared mover can set off. -/
theorem judgeDisarm (g : Grp) (p : Part) : Part.Beside g p p.judgeDisarm := by
  rcases p.judgeDisarm_eq with same | ⟨pending, armed, -, disarmed⟩
  · rw [same]
    exact refl g p
  · have kept := Part.judgeDisarm_kept p
    refine ⟨kept.mono (by simp), fun h _ => (kept.mono (cs := [.groups]) (by simp)).group h,
      by rw [(kept.mono (cs := [.groups]) (by simp)).group], fun _ c _ => ?_,
      fun h _ => (kept.mono (cs := [.queues]) (by simp)).queue h, fun h _ => ?_, fun _ => ?_, fun off => absurd armed off,
      fun _ clear => ?_, fun _ => ?_⟩
    · simp only [Part.judgeDisarm_chan]
    · rw [disarmed, Part.changeMode_codes]
      rfl
    · rw [disarmed, Part.changeMode_ctl, ModeCtl.setPower_mode]
      exact fun same => by cases same
    · rw [clear] at pending
      cases pending
    · rw [disarmed, Part.changeMode_ctl, ModeCtl.setPower_mode]
      exact fun same => by cases same

theorem clearLanes (p : Part) (g : Grp) : Part.Beside g p (p.clearLanes g) := by
  refine Part.forEach_inv (P := fun q => Part.Beside g p q) (refl g p) fun q ln mem beside => beside.trans ?_
  have here : (q.group g).lanes = (p.group g).lanes := beside.lanes
  refine trans (.of_kept ((Part.modChan_kept q ln.channel Channel.dropMover).mono (by simp)) (fun _ _ => rfl) rfl
    (fun c out => ?_) fun _ _ => rfl) (judgeDisarm g _)
  exact Part.modChan_chan_ne _ _ _ _ fun same => out ln (by rw [here]; exact mem) same.symm

theorem raise (p : Part) (g : Grp) (e : Event) : Part.Beside g p (p.raise (.group g) e) := by
  have kept := p.raise_kept (.group g) e
  have posted (h : Grp) (other : h ≠ g) : (p.post (.group g) e).codes.groups[h] = p.codes.groups[h] :=
    (Vector.getElem_set_grp ..).trans (if_neg other)
  have groups (h : Grp) := (kept.mono (cs := [.groups]) (by simp)).group h
  have queues (h : Grp) := (kept.mono (cs := [.queues]) (by simp)).queue h
  by_cases wakes : p.Wakes (.group g) e
  · have parked := wakes.1
    have woken := Part.raise_wakes wakes
    have mode : (p.raise (.group g) e).ctl.mode = .standby := by rw [woken, Part.changeMode_ctl, ModeCtl.setPower_mode]
    refine ⟨kept.mono (by simp), fun h _ => groups h, by rw [groups], fun up => absurd parked up, fun h _ => queues h,
      fun h other => ?_, fun up => absurd parked up, fun _ => by rw [mode]; decide, fun up => absurd parked up,
      fun _ => by rw [mode]; decide⟩
    rw [woken, Part.changeMode_codes]
    exact posted h other
  · have asleep := Part.raise_sleeps wakes
    refine ⟨kept.mono (by simp), fun h _ => groups h, by rw [groups], fun _ c _ => ?_, fun h _ => queues h,
      fun h other => ?_, ?_, ?_, fun _ _ => ?_, ?_⟩
    · rw [asleep, Part.post_chan]
    · rw [asleep]
      exact posted h other
    · rw [asleep, Part.post_ctl]
      exact id
    · rw [asleep, Part.post_ctl]
      exact id
    · rw [asleep, Part.post_ctl]
    · rw [asleep, Part.post_ctl]
      exact id

theorem completeCue (p : Part) (g : Grp) (n : Nat) : Part.Beside g p (p.completeCue g n) :=
  ((clearLanes p g).trans (modGroup _ g rfl)).trans (raise _ g _)

theorem judgeMark (p : Part) (g : Grp) : Part.Beside g p (p.judgeMark g).1 := by
  by_cases waiting : (p.queue g).arming = .awaitingMark
  · unfold Part.judgeMark
    rw [waiting]
    split
    · split
      · split
        · split
          · exact modQueue p g _
          · exact (modQueue p g _).trans (raise _ g _)
        · exact refl g p
      all_goals exact refl g p
    · exact refl g p
  · rw [Part.judgeMark_idle waiting]
    exact refl g p

theorem armHead (p : Part) (occ : Occasion) (g : Grp) : Part.Beside g p (p.armHead occ g).1 := by
  cases may : p.mayArm g with
  | false =>
    rw [Part.armHead_barred may]
    exact refl g p
  | true =>
    cases cues : (p.queue g).cues with
    | nil =>
      rw [Part.armHead_empty cues]
      exact refl g p
    | cons x rest =>
      cases trigger : x.trigger with
      | onGo =>
        rw [Part.armHead_onGo cues trigger]
        exact refl g p
      | afterPrevious n =>
        cases occ with
        | other =>
          rw [Part.armHead_after_other cues trigger]
          exact refl g p
        | completion =>
          rw [Part.armHead_after may cues trigger]
          split
          · exact refl g p
          · exact modQueue p g fun q => { q with arming := .dwelling, dwellTimer := some n }
      | atMark mark =>
        rw [Part.armHead_mark may cues trigger]
        exact (modQueue p g _).trans (judgeMark _ g)

theorem fireHead (n : Nat) (g : Grp) (p : Part) : Part.Beside g p (Part.fireHead n g p) := by
  induction n generalizing p with
  | zero => exact refl g p
  | succ n ih =>
    unfold Part.fireHead
    split
    · exact refl g p
    · next x rest cues =>
      split
      · exact (modQueue p g _).trans (raise _ g _)
      · next data q fires =>
        obtain ⟨-, rfl, -⟩ := Part.fire_inv fires
        have started := (startMove p g x.tier x.origin (.cue x.number) (some x.speed) (p.cuePlan g x)).trans
          (modQueue _ g CueQueue.pop)
        dsimp only
        split
        · have armed := (started.trans (completeCue _ g x.number)).trans (armHead _ .completion g)
          split
          · exact armed.trans (ih _)
          · exact armed
        · exact started

theorem fireIf {r : Part × Bool} (h : Part.Beside g p r.1) : Part.Beside g p (Part.fireIf r g) := by
  unfold Part.fireIf
  split
  · exact h.trans (fireHead _ g _)
  · exact h

theorem arm (p : Part) (occ : Occasion) (g : Grp) : Part.Beside g p (p.arm occ g) := fireIf (armHead p occ g)

theorem judgeHead (p : Part) (g : Grp) : Part.Beside g p (p.judgeHead g) := fireIf (judgeMark p g)

end Part.Beside

end Sys2Proof.Machine
end

section
set_option Elab.async false
/-! PROOFS. QUEUE_CUE, and the arming of an AT_MARK head that joins an empty list (R112, R115 to R120). -/

namespace Sys2Proof.Machine

/-! ### The fields of a cue (R187, R188) -/

theorem rd32_byteOf {n : Nat} (h : n < 4294967296) :
    rd32 (byteOf (n / 16777216)) (byteOf (n / 65536)) (byteOf (n / 256)) (byteOf n) = n := by
  simp only [rd32, byteOf, BitVec.toNat_ofNat]
  omega

/-- The three bytes of a 24-bit word, put together again. -/
theorem bytes24_append (v : BitVec 24) : v.extractLsb' 16 8 ++ v.extractLsb' 8 8 ++ v.extractLsb' 0 8 = v := by
  rw [BitVec.extractLsb'_append_extractLsb'_eq_extractLsb' (by rfl), BitVec.extractLsb'_append_extractLsb'_eq_extractLsb' (by rfl)]
  exact BitVec.extractLsb'_eq_self

theorem rd24_bytes {n : Nat} (h : n < 16777216) :
    rd24 ((BitVec.ofNat 24 n).extractLsb' 16 8) ((BitVec.ofNat 24 n).extractLsb' 8 8) ((BitVec.ofNat 24 n).extractLsb' 0 8) = n := by
  simp only [rd24, BitVec.extractLsb'_toNat, BitVec.toNat_ofNat, Nat.shiftRight_eq_div_pow]
  omega

theorem rdS24_bytes {d : Int} (low : -8388608 ≤ d) (high : d ≤ 8388607) :
    rdS24 ((BitVec.ofInt 24 d).extractLsb' 16 8) ((BitVec.ofInt 24 d).extractLsb' 8 8) ((BitVec.ofInt 24 d).extractLsb' 0 8) = d := by
  rw [rdS24, bytes24_append, BitVec.toInt_ofInt]
  norm_num [Int.bmod]
  omega

/-- The four bytes of a cue's form. -/
def formBytes (form : CueForm) : List Byte :=
  match form with
  | .relative d => 0 :: wrS24 d
  | .absolute t => 1 :: bytes24 (BitVec.ofNat 24 t)

/-- The five bytes of a cue's trigger. -/
def triggerBytes (trigger : Trigger) : List Byte :=
  match trigger with
  | .onGo => 0 :: wr32 0
  | .afterPrevious d => 1 :: wr32 d
  | .atMark m => 2 :: wr32 m

theorem formBytes_eq {form : CueForm} (legal : match form with | .relative d => -60000 ≤ d ∧ d ≤ 60000 | .absolute t => t ≤ 60000) :
    ∃ b d1 d2 d3, formBytes form = [b, d1, d2, d3] ∧ cueFormOf b d1 d2 d3 = some form := by
  cases form with
  | relative d =>
    obtain ⟨low, high⟩ := legal
    have fits : -8388608 ≤ d ∧ d ≤ 8388607 := ⟨by omega, by omega⟩
    refine ⟨_, _, _, _, by rw [formBytes, wrS24, if_pos fits]; rfl, ?_⟩
    have inside : (d < -60000 || 60000 < d) = false := by simp [low, high]
    rw [cueFormOf, rdS24_bytes fits.1 fits.2]
    simp [inside]
  | absolute t =>
    refine ⟨_, _, _, _, rfl, ?_⟩
    rw [cueFormOf, rd24_bytes (by omega)]
    have inside : ¬Config.maxPosition < t := not_lt.mpr legal
    simp [inside]

theorem triggerBytes_eq {trigger : Trigger}
    (legal : match trigger with | .onGo => True | .afterPrevious n => n ≤ 600000 | .atMark m => m ≤ 4294967295) :
    ∃ b m1 m2 m3 m4, triggerBytes trigger = [b, m1, m2, m3, m4] ∧ triggerOf b m1 m2 m3 m4 = some trigger := by
  cases trigger with
  | onGo => exact ⟨_, _, _, _, _, rfl, rfl⟩
  | afterPrevious n =>
    refine ⟨_, _, _, _, _, rfl, ?_⟩
    rw [triggerOf, rd32_byteOf (by omega)]
    simp [legal]
  | atMark m =>
    refine ⟨_, _, _, _, _, rfl, ?_⟩
    rw [triggerOf, rd32_byteOf (by omega)]
    rfl

/-- R188: the body of a legal cue, byte by byte. -/
theorem queueCueBody_eq {x : Cue} (legal : x.Legal) (g : Grp) :
    ∃ n1 n2 form d1 d2 d3 v1 v2 trigger m1 m2 m3 m4,
      queueCueBody g x = [byteOf g.val, n1, n2, form, d1, d2, d3, v1, v2, trigger, m1, m2, m3, m4]
        ∧ rd16 n1 n2 = x.number ∧ rd16 v1 v2 = x.speed ∧ cueFormOf form d1 d2 d3 = some x.form
        ∧ triggerOf trigger m1 m2 m3 m4 = some x.trigger := by
  obtain ⟨-, number, -, speed, form, trigger⟩ := legal
  obtain ⟨b, d1, d2, d3, formed, form⟩ := formBytes_eq form
  obtain ⟨c, m1, m2, m3, m4, triggered, trigger⟩ := triggerBytes_eq trigger
  refine ⟨byteOf (x.number / 256), byteOf x.number, b, d1, d2, d3, byteOf (x.speed / 256), byteOf x.speed, c, m1, m2, m3, m4, ?_,
    rd16_byteOf (by omega), rd16_byteOf (by omega), form, trigger⟩
  have bytes : cueBytes x
      = wr16 x.number ++ formBytes x.form ++ wr16 x.speed ++ triggerBytes x.trigger ++ [byteOf x.tier, linkCode x.origin] := rfl
  rw [queueCueBody, bytes, formed, triggered]
  rfl

/-! ### The admission of a cue (R113, R115, R116) -/

section Admission
variable {p : Part} {l : Link} {tier : Nat} {g : Grp} {x : Cue}

theorem Part.absoluteBad_legal
    (legal : (∃ n, x.form = .absolute n) → ∀ ln, (p.group g).lanes.head? = some ln → ln.ratio = 0) :
    p.absoluteBad g x.form = false := by
  unfold Part.absoluteBad
  split
  · next n ln lanes form list => simp [legal ⟨n, form⟩ ln (by rw [list]; rfl)]
  · rfl

theorem Part.firstLane_referenced (referenced : ∀ ln ∈ (p.group g).lanes, (p.chan ln.channel).referenced = true) :
    p.firstLane g unreferenced = none :=
  (p.firstLane_none _ _).mpr fun ln mem => by simp [unreferenced, referenced ln mem]

/-- R115 to R117: the verdict of a QUEUE_CUE that passes every check. -/
theorem judgeQueueCue_accepted (legal : x.Legal) (own : x.tier = tier) (origin : x.origin = l) (prepared : p.Prepared)
    (allow : p.LanesAllow g tier l) (used : (p.group g).state ≠ .empty)
    (absolute : (∃ n, x.form = .absolute n) → ∀ ln, (p.group g).lanes.head? = some ln → ln.ratio = 0)
    (fresh : x.number ∉ (p.queue g).cues.map (·.number)) (room : (p.queue g).cues.length < 8) :
    judgeQueueCue l tier (queueCueBody g x) p
      = .accepted [byteOf ((p.queue g).cues.length + 1)] (p.queueCue g x) := by
  obtain ⟨n1, n2, form, d1, d2, d3, v1, v2, trigger, m1, m2, m3, m4, body, number, speed, formed, triggered⟩ :=
    queueCueBody_eq legal g
  obtain ⟨some_, -, slow, fast, -, -⟩ := legal
  have ranged : (x.number == 0 || x.speed < 10 || 400 < x.speed) = false := by
    simp only [Bool.or_eq_false_iff, beq_eq_false_iff_ne, decide_eq_false_iff_not]
    omega
  have single : ((p.queue g).cues.any fun y => y.number == x.number) = false := by
    simpa [List.any_eq_false] using fresh
  have present : ((p.group g).state == .empty) = false := by simpa using used
  rw [body, judgeQueueCue, withGrp_byteOf, formed, triggered]
  dsimp only
  rw [number, speed, ranged, Part.absoluteBad_legal absolute, Part.queueChecked, Part.standsDown_prepared prepared,
    Part.firstLane_lets fun ln mem => (allow ln mem).1, Part.firstLane_owned fun ln mem => (allow ln mem).2.1,
    Part.firstLane_referenced fun ln mem => (allow ln mem).2.2, present, single]
  have whole : ({ number := x.number, form := x.form, speed := x.speed, trigger := x.trigger, tier := tier, origin := l } : Cue)
      = x := by rw [← own, ← origin]
  rw [whole]
  have open_ : (Config.maxCues ≤ (p.queue g).cues.length) = False := by simpa [Config.maxCues] using room
  simp [refuseIf, check, open_]

end Admission

/-! ### The head of a list that was empty (R117, R118) -/

section Joins
variable {p : Part} {g : Grp} {x : Cue} {rest : List Cue} {occ : Occasion}

/-- R118, R120: an AT_MARK head that may be armed is armed, and its mark is judged at once. -/
theorem Part.arm_mark {mark : Nat} (may : p.mayArm g = true) (cues : (p.queue g).cues = x :: rest)
    (trigger : x.trigger = .atMark mark) :
    p.arm occ g = (p.modQueue g fun q => { q with arming := .awaitingMark }).judgeHead g := by
  rw [Part.arm, Part.armHead_mark may cues trigger]
  rfl

/-- R118: no occasion but a completion arms a head that waits for no mark. -/
theorem Part.arm_markless (cues : (p.queue g).cues = x :: rest) (trigger : ∀ mark, x.trigger ≠ .atMark mark) :
    p.arm .other g = p := by
  rw [Part.arm]
  cases waits : x.trigger with
  | onGo => rw [Part.armHead_onGo cues waits, Part.fireIf_waits]
  | afterPrevious n => rw [Part.armHead_after_other cues waits, Part.fireIf_waits]
  | atMark mark => exact absurd waits (trigger mark)

theorem Part.arm_barred (barred : p.mayArm g = false) : p.arm occ g = p := by
  rw [Part.arm, Part.armHead_barred barred, Part.fireIf_waits]

/-- R117, R118: the conditions under which a cue that joins an empty list is judged. -/
def Part.OpenToHead (p : Part) (g : Grp) : Prop :=
  (p.group g).state = .idle ∧ (p.group g).boundTrack = none ∧ (p.queue g).blocked = false ∧ (p.queue g).arming = .none
    ∧ (p.queue g).cues = []

theorem Part.queueCue_joins (closed : ¬(p.OpenToHead g ∧ ∃ mark, x.trigger = .atMark mark)) :
    p.queueCue g x = p.modQueue g fun y => { y with cues := y.cues ++ [x] } := by
  unfold Part.queueCue
  dsimp only
  split
  · next empty =>
    have empty : (p.queue g).cues = [] := by simpa using empty
    have cues : ((p.modQueue g fun y => { y with cues := y.cues ++ [x] }).queue g).cues = [x] := by simp [empty]
    by_cases trigger : ∃ mark, x.trigger = .atMark mark
    · refine Part.arm_barred ?_
      rw [← Bool.not_eq_true]
      intro may
      refine closed ⟨?_, trigger⟩
      simp only [Part.mayArm, Part.modQueue_group, Part.modQueue_queue_self, Bool.and_eq_true, beq_iff_eq,
        Option.isNone_iff_eq_none, Bool.not_eq_true'] at may
      obtain ⟨⟨⟨idle, unbound⟩, unblocked⟩, unarmed⟩ := may
      exact ⟨idle, unbound, unblocked, unarmed, empty⟩
    · exact Part.arm_markless cues fun mark same => trigger ⟨mark, same⟩
  · rfl

theorem Part.queueCue_marked {mark : Nat} (open_ : p.OpenToHead g) (trigger : x.trigger = .atMark mark) :
    p.queueCue g x = (p.modQueue g fun y => { y with cues := [x], arming := .awaitingMark }).judgeHead g := by
  obtain ⟨idle, unbound, unblocked, unarmed, empty⟩ := open_
  unfold Part.queueCue
  dsimp only
  rw [if_pos (by simp [empty]), Part.arm_mark (x := x) (rest := []) (by simp [Part.mayArm, idle, unbound, unblocked, unarmed])
    (by simp [empty]) trigger, Part.modQueue_modQueue]
  simp only [Part.modQueue, empty, List.nil_append]

end Joins

/-! ### A due head with nothing to travel -/

section Completes
variable {p : Part} {g : Grp} {x : Cue}

/-- R67, R122: a due head that is the last of its queue fires and completes, where nothing travels. -/
theorem Part.dueHead_completed (cues : (p.queue g).cues = [x]) (idle : (p.group g).state = .idle)
    (admits : p.Admits g x.tier x.origin (p.cueTargets g x)) (still : ¬p.Travels g (p.cueTargets g x)) :
    Part.fireIf (p.modQueue g CueQueue.disarm, true) g = (p.headFired g x []).completeCue g x.number := by
  have empty : (((p.headFired g x []).completeCue g x.number).queue g).cues = [] := by
    rw [((Part.completeCue_kept _ g x.number).mono (cs := [.queues]) (by simp)).queue, Part.headFired_queue, if_pos rfl,
      CueQueue.rest, cues]
    rfl
  rw [Part.dueHead_eq cues _ rfl, Part.fireHead_completed (x := x) (rest := []) (by simpa [CueQueue.disarm] using cues)
    (Part.modQueue_admits.mpr admits) idle still,
    Part.headFired_popped cues, Part.armHead_empty empty]
  rfl

/-- R67, R77: what such a head leaves. -/
theorem Part.headFired_completed (cues : (p.queue g).cues = [x]) (admits : p.Admits g x.tier x.origin (p.cueTargets g x))
    (still : ¬p.Travels g (p.cueTargets g x)) :
    let q := (p.headFired g x []).completeCue g x.number
    q.group g = { p.group g with state := .idle, held := false, move := none, controlTimer := none }
      ∧ q.queue g = { cues := [], blocked := false, arming := .none, dwellTimer := none }
      ∧ q.codes.groups[g] = some (.cueDone x.number) ∧ p.Alone q g
      ∧ ∀ ln ∈ (p.group g).lanes, (q.chan ln.channel).state = .idle ∧ (q.chan ln.channel).mover = .none := by
  obtain ⟨group, queue, code, alone, -, lanes, -⟩ := Part.fired_completed (src := .cue x.number) (v := some x.speed)
    (demandOf := cueSpeed x.speed) (queue := (p.queue g).rest ((p.queue g).blocked && !([] : List Cue).isEmpty))
    (Part.modQueue_admits (f := CueQueue.disarm) (g := g) |>.mpr admits) still x.number
  refine ⟨group, queue.trans ?_, code, alone, lanes⟩
  simp [CueQueue.rest, cues]

end Completes

end Sys2Proof.Machine
end

section
set_option Elab.async false
/-! PROOFS. The obligation about QUEUE_CUE, assembled (R115 to R118, R120, R122, R123, R67). -/

namespace Sys2Proof.Machine

theorem queueCueBody_length {x : Cue} (legal : x.Legal) (g : Grp) : (queueCueBody g x).length = 14 := by
  obtain ⟨_, _, _, _, _, _, _, _, _, _, _, _, _, body, -⟩ := queueCueBody_eq legal g
  rw [body]
  rfl

/-- What a queue's own step, answered, leaves alone. -/
theorem Part.Beside.answered {p q : Part} {g : Grp} {l : Link} (h : Part.Beside g (p.frameTaken l) q)
    (awake : p.ctl.mode ≠ .parked) (kind : Byte) (data : List Byte) :
    p.OtherQueues (q.drive.answer l kind .ok 0xFF data) g
      ∧ Kept p (q.drive.answer l kind .ok 0xFF data) [.samples, .clock, .tracks, .taken] := by
  refine ⟨fun i other => ?_, Kept.answer (Kept.drive (.mono (cs := [.samples, .clock, .tracks, .taken]) (Kept.taken_trans
    ((p.frameTaken_kept l).mono (cs := [.taken, .samples, .clock, .tracks]) (by simp)) (.cons ?_ h.kept)) (by simp))) l kind .ok 0xFF data⟩
  · rw [Part.answer_queue, Part.drive_queue, h.queues i other, Part.frameTaken_queue]
  · exact h.ctl (by simpa using awake) (by simp)

/-- What a drop leaves, answered. -/
theorem Part.Dropped.answered {p q : Part} {g : Grp} {rest : List Cue} {e : Event} (h : p.Dropped q g rest e) (l : Link) (kind : Byte)
    (data : List Byte) :
    (q.drive.answer l kind .ok 0xFF data).queue g = droppedQueue rest
      ∧ (q.drive.answer l kind .ok 0xFF data).codes.groups[g] = some e
      ∧ Kept p (q.drive.answer l kind .ok 0xFF data) [.channels, .samples, .groups, .clock, .tracks] := by
  obtain ⟨own, code, -, kept⟩ := h
  refine ⟨by rw [Part.answer_queue, Part.drive_queue, own], by rw [Part.answer_codes, Part.drive_codes, code], ?_⟩
  exact Kept.answer (Kept.drive (kept.mono (by simp))) l kind .ok 0xFF data

theorem Part.Beside.queueCue (p : Part) (g : Grp) (x : Cue) : Part.Beside g p (p.queueCue g x) := by
  have joined := modQueue p g fun y => { y with cues := y.cues ++ [x] }
  unfold Part.queueCue
  dsimp only
  split
  · exact joined.trans (arm _ .other g)
  · exact joined

@[simp] theorem Part.frameTaken_openToHead (p : Part) (l : Link) (g : Grp) : (p.frameTaken l).OpenToHead g ↔ p.OpenToHead g := by
  simp [Part.OpenToHead]

/-- The part once an AT_MARK cue has joined an empty list and awaits its mark. -/
abbrev Part.joined (p : Part) (g : Grp) (x : Cue) : Part :=
  p.modQueue g fun y => { y with cues := [x], arming := .awaitingMark }

/-- Settles O50: the cue joins the list, and where it is the head that R118 arms, the judgement of its mark follows. -/
theorem queueCueAppendsTheCue : Obligations.QueueCueAppendsTheCue := by
  intro l tier g x s ready low legal prepared own origin allow used absolute fresh room free running emptied targets
  have awake : s.part.ctl.mode ≠ .parked := by rcases prepared with mode | mode <;> rw [mode] <;> decide
  have judged := judgeQueueCue_accepted (p := s.part.frameTaken l) (l := l) (g := g) legal own origin
    (by simpa [Part.Prepared] using prepared) (by simpa [Part.LanesAllow] using allow) (by simpa using used)
    (by simpa using absolute) (by simpa using fresh) (by simpa using room)
  rw [Part.frameTaken_queue] at judged
  have body := queueCueBody_length legal g
  refine ⟨_, rfl, ?_⟩
  dsimp only
  rw [Part.judged_driven_accepts ready (by rw [body]; decide) (by rw [lengthIs_iff, body]) low judged]
  refine ⟨⟨Part.answer_accepted .., (Part.Beside.queueCue _ g x).answered awake 0x22 _⟩, fun closed => ?_,
    fun open_ mark trigger => ?_⟩
  · rw [Part.queueCue_joins (by rw [Part.frameTaken_openToHead]; exact closed)]
    refine ⟨Part.answers_of_kept (Kept.drive ((Part.modQueue_kept _ _ _).mono (by simp))) _ _, ?_⟩
    rw [Part.answer_queue, Part.drive_queue, Part.modQueue_queue_self, Part.frameTaken_queue]
  have opened : (s.part.frameTaken l).OpenToHead g := (Part.frameTaken_openToHead ..).mpr open_
  rw [Part.queueCue_marked opened trigger]
  have idle : ((s.part.frameTaken l).group g).state = .idle := opened.1
  have taken := ((s.part.frameTaken_kept l).mono (cs := [.channels, .samples, .groups, .clock, .tracks]) (by simp)).trans
    ((Part.modQueue_kept _ g _).mono (by simp) : Kept _ ((s.part.frameTaken l).joined g x) _)
  have group := (taken.mono (cs := [.groups]) (by simp)).group g
  have clock : ((s.part.frameTaken l).joined g x).clock = s.part.clock :=
    taken .clock (by simp)
  have queue : ((s.part.frameTaken l).joined g x).queue g
      = { s.part.queue g with cues := [x], arming := .awaitingMark } := by
    rw [Part.modQueue_queue_self, Part.frameTaken_queue]
  have waiting := congrArg CueQueue.arming queue
  have cues := congrArg CueQueue.cues queue
  have up : ((s.part.frameTaken l).joined g x).ctl.mode ≠ .parked := by
    simpa using awake
  refine ⟨fun ahead => ?_, fun runs late => ?_, fun runs reached graced => ?_⟩
  · rw [Part.judgeHead_waits waiting cues trigger (by rw [clock]; exact ahead)]
    refine ⟨Part.answers_of_kept (Kept.drive ((Part.modQueue_kept _ _ _).mono (by simp))) _ _, ?_⟩
    rw [Part.answer_queue, Part.drive_queue, queue]
  · rw [Part.judgeHead_late waiting cues trigger (by rw [clock]; exact runs) (by rw [clock, group]; exact late)]
    obtain ⟨own, code, kept⟩ := (Part.dropped cues up (.cueLate x.number)).answered l 0x22
      [byteOf ((s.part.queue g).cues.length + 1)]
    exact ⟨own, code, (taken.mono (by simp)).trans (kept.mono (by simp))⟩
  rw [Part.judgeHead_due waiting cues trigger (by rw [clock]; exact runs) (by rw [clock]; exact reached)
    (by rw [clock, group]; exact graced)]
  refine ⟨fun unarmed => ?_, fun admits => ?_⟩
  · rw [Part.dueHead_refused cues (by simpa using unarmed)]
    obtain ⟨own, code, kept⟩ := (Part.dropped_disarmed cues up .mode noIndex).answered l 0x22
      [byteOf ((s.part.queue g).cues.length + 1)]
    exact ⟨own, code, (taken.mono (by simp)).trans (kept.mono (by simp))⟩
  have same : ((s.part.frameTaken l).joined g x).cueTargets g x = targets :=
    Part.frameTaken_cueTargets x
  have admitted : Part.Admits ((s.part.frameTaken l).joined g x) g x.tier
      x.origin (Part.cueTargets ((s.part.frameTaken l).joined g x) g x) := by
    rw [same, origin]
    exact Part.modQueue_admits.mpr (Part.frameTaken_admits.mpr admits)
  by_cases travels : s.part.Travels g targets
  · rw [Part.dueHead_started cues idle admitted (by rw [same]; exact Part.frameTaken_travels.mpr travels)]
    have started := Part.headFired_started (x := x) (rest := []) admitted.distinct
    have alone := Part.headFired_alone (p := (s.part.frameTaken l).joined g x) (g := g) (x := x) (rest := [])
    have kept := Part.headFired_kept (p := (s.part.frameTaken l).joined g x) (g := g) (x := x) (rest := [])
    rw [same, origin] at started
    refine ⟨?_, (Part.frameTaken_alone.mp alone).answer l _ _, fun _ => ⟨?_, (Part.frameTaken_started.mp started).answer l _ _⟩,
      fun still => absurd travels still⟩
    · rw [Part.answer_queue, Part.drive_queue, Part.headFired_queue, if_pos rfl, queue]
      simp [CueQueue.rest, emptied]
    · exact Part.answers_of_kept (Kept.drive (((Part.modQueue_kept _ _ _).mono (by simp)).trans (kept.mono (by simp)))) _ _
  · have still : ¬Part.Travels ((s.part.frameTaken l).joined g x) g
        (Part.cueTargets ((s.part.frameTaken l).joined g x) g x) := by
      rw [same]
      exact mt Part.frameTaken_travels.mp travels
    rw [Part.dueHead_completed cues idle admitted still]
    obtain ⟨record, own, code, alone, lanes⟩ := Part.headFired_completed cues admitted still
    refine ⟨by rw [Part.answer_queue, Part.drive_queue, own], (Part.frameTaken_alone.mp alone).answer l _ _,
      fun moves => absurd moves travels, fun _ => ⟨by rw [Part.answer_codes, Part.drive_codes, code], ?_, fun ln mem => ?_⟩⟩
    · rw [Part.answer_group, Part.drive_group, record, group]
    · rw [Part.answer_chan, Part.drive_chan]
      exact lanes ln (by rw [group]; exact mem)

end Sys2Proof.Machine
end

section
set_option Elab.async false
/-! PROOFS. BIND_TRACK and UNBIND_TRACK (R137, R138). -/

namespace Sys2Proof.Machine

/-! ### What a fire reads -/

/-- Two parts agree on a group: on its record and on the channels of its lanes. -/
def Part.Agrees (p q : Part) (g : Grp) : Prop :=
  q.group g = p.group g ∧ ∀ ln ∈ (p.group g).lanes, q.chan ln.channel = p.chan ln.channel

namespace Part.Agrees
variable {p q r : Part} {g : Grp} {targets : List Int}

theorem cueTargets (h : p.Agrees q g) (x : Cue) : q.cueTargets g x = p.cueTargets g x := by
  obtain ⟨group, chans⟩ := h
  have travel : q.travelOf g x = p.travelOf g x := by
    unfold Part.travelOf
    rw [group]
    split
    · rfl
    · next list => rw [chans _ (by rw [list]; exact List.mem_cons_self)]
    · rfl
  unfold Part.cueTargets
  rw [group, travel]
  exact List.map_congr_left fun ln mem => by rw [chans ln mem]

theorem travels (h : p.Agrees q g) : q.Travels g targets ↔ p.Travels g targets := by
  obtain ⟨group, chans⟩ := h
  unfold Part.Travels
  rw [group]
  refine exists_congr fun lt => and_congr_right fun mem => ?_
  rw [chans lt.1 (List.of_mem_zip mem).1]

theorem started {tier : Nat} {l : Link} {src : MoveSource} {v : Option Nat} {demandOf : Lane → Int → Nat} (h : p.Agrees q g)
    (fired : q.Started r g tier l src v demandOf targets) : p.Started r g tier l src v demandOf targets := by
  obtain ⟨group, chans⟩ := h
  obtain ⟨record, lanes⟩ := fired
  rw [group] at record lanes
  have same : ((p.group g).lanes.zip targets).map (fun lt => q.firedLane demandOf lt.1 lt.2)
      = ((p.group g).lanes.zip targets).map fun lt => p.firedLane demandOf lt.1 lt.2 :=
    List.map_congr_left fun lt mem => by simp only [Part.firedLane, chans lt.1 (List.of_mem_zip mem).1]
  refine ⟨by rw [record, same], fun lt mem => ?_⟩
  rw [lanes lt mem]
  simp only [Part.firedChannel, Part.firedLane, chans lt.1 (List.of_mem_zip mem).1]

theorem admits {tier : Nat} {l : Link} (h : p.Agrees q g) (mode : q.ctl.mode = p.ctl.mode) (held : q.ctl.held = p.ctl.held)
    (admitted : p.Admits g tier l targets) : q.Admits g tier l targets := by
  obtain ⟨group, chans⟩ := h
  obtain ⟨armed, awake, unbound, lengths, distinct, allow, free, bounds⟩ := admitted
  refine ⟨mode.trans armed, held.trans awake, by rw [group]; exact unbound, by rw [group]; exact lengths,
    by rw [group]; exact distinct, fun ln mem => ?_, fun ln mem => ?_, fun lt mem => ?_⟩ <;> rw [group] at mem
  · rw [chans ln mem]
    exact allow ln mem
  · rw [chans ln mem]
    exact free ln mem
  · rw [chans lt.1 (List.of_mem_zip mem).1]
    exact bounds lt mem

end Part.Agrees

/-! ### BIND_TRACK -/

section Bind
variable {p : Part} {l : Link} {t : Trk} {g : Grp}

theorem Part.sharedLane_apart
    (apart : ∀ h ∈ (p.track t).bound, ∀ x ∈ (p.group h).lanes, ∀ y ∈ (p.group g).lanes, x.channel ≠ y.channel) :
    p.sharedLane t g = none := by
  simp only [Part.sharedLane, Option.map_eq_none_iff, List.findIdx?_eq_none_iff, List.any_eq_false, beq_iff_eq,
    Bool.not_eq_true]
  exact fun y there h bound x lane => apart h bound x lane y there

/-- R137: the verdict of a BIND_TRACK that passes every check. -/
theorem judgeBindTrack_accepted {tier : Nat} (prepared : p.Prepared) (idle : (p.group g).state = .idle)
    (ours : (p.track t).owner ≠ some l.other) (unbound : (p.group g).boundTrack = none) (still : (p.track t).state ≠ .playing)
    (fed : (p.track t).state ≠ .starved)
    (apart : ∀ h ∈ (p.track t).bound, ∀ x ∈ (p.group h).lanes, ∀ y ∈ (p.group g).lanes, x.channel ≠ y.channel) :
    judgeBindTrack l tier [byteOf t.val, byteOf g.val] p = .accepted [] (p.bind l t g) := by
  have foreign : ((p.track t).owner == some l.other) = false := by simpa using ours
  have quiet : (p.track t).inPlay = false := by simp [Track.inPlay, still, fed]
  rw [judgeBindTrack, withTrk_byteOf, withGrp_byteOf, Part.bindChecked, Part.standsDown_prepared prepared, foreign, idle, unbound, quiet,
    Part.sharedLane_apart apart]
  rfl

/-- R137: the track's record once a group is bound. -/
def Track.bindGroup (l : Link) (g : Grp) (x : Track) : Track :=
  { x with bound := addGroup g x.bound, owner := if x.bound.isEmpty then some l else x.owner }

theorem Part.bind_eq : p.bind l t g = ((p.modTrack t (Track.bindGroup l g)).modGroup g fun x =>
    { x with boundTrack := some t }).modQueue g CueQueue.disarm := rfl

theorem Part.bind_kept : Kept p (p.bind l t g) [.ctl, .link .a, .link .b, .channels, .ports, .samples, .clock, .codes] :=
  (((Part.modTrack_kept _ _ _).mono (by simp)).trans ((Part.modGroup_kept _ _ _).mono (by simp))).trans
    ((Part.modQueue_kept _ _ _).mono (by simp))

end Bind

/-! ### UNBIND_TRACK -/

section Unbind
variable {p : Part} {t : Trk} {g : Grp}

theorem judgeUnbindTrack_accepted {l : Link} {tier : Nat} (prepared : p.Prepared) (idle : (p.group g).state = .idle)
    (bound : g ∈ (p.track t).bound) :
    judgeUnbindTrack l tier [byteOf t.val, byteOf g.val] p = .accepted [] (p.unbind t g) := by
  have among : (!(p.track t).bound.contains g) = false := by simpa using bound
  rw [judgeUnbindTrack, withTrk_byteOf, withGrp_byteOf, Part.standsDown_prepared prepared, among, idle]
  rfl

/-- R138: the part with a group out of its track, before arming is judged on its head. -/
def Part.unbound (p : Part) (t : Trk) (g : Grp) : Part :=
  (p.modTrack t (Track.dropBound g)).modGroup g fun x => { x with boundTrack := none }

theorem Part.unbind_eq : p.unbind t g = (p.unbound t g).arm .other g := rfl

theorem Part.unbound_kept :
    Kept p (p.unbound t g) [.ctl, .link .a, .link .b, .channels, .ports, .samples, .queues, .clock, .codes] :=
  ((Part.modTrack_kept _ _ _).mono (by simp)).trans ((Part.modGroup_kept _ _ _).mono (by simp))

theorem Part.unbound_group (h : Grp) :
    (p.unbound t g).group h = if h = g then { p.group g with boundTrack := none } else p.group h := by
  rw [Part.unbound, Part.modGroup_group]
  simp only [Part.modTrack_group]
  split
  · next same => rw [same]
  · rfl

theorem Part.unbound_track (u : Trk) :
    (p.unbound t g).track u = if u = t then (p.track t).dropBound g else p.track u := by
  rw [Part.unbound, Part.modGroup_track]
  split
  · next same => rw [same, Part.modTrack_track_self]
  · next other => exact Part.modTrack_track_ne _ _ _ _ other

theorem Part.unbound_queue (h : Grp) : (p.unbound t g).queue h = p.queue h :=
  (Part.unbound_kept.mono (cs := [.queues]) (by simp)).queue h

/-- R138: what a track with no group left loses. -/
theorem Track.dropBound_empty {x : Track} (empty : (x.dropBound g).bound = []) :
    (x.dropBound g).owner = none ∧ (x.dropBound g).waypoints = [] ∧ (x.dropBound g).state = .empty := by
  have gone : dropGroup g x.bound = [] := (Track.dropBound_keeps g x).1.symm.trans empty
  unfold Track.dropBound
  dsimp only
  rw [if_pos (by simp [gone])]
  exact ⟨rfl, rfl, rfl⟩

theorem Track.dropBound_still {x : Track} (left : (x.dropBound g).bound ≠ []) :
    (x.dropBound g).owner = x.owner ∧ (x.dropBound g).waypoints = x.waypoints ∧ (x.dropBound g).state = x.state := by
  have some_ : dropGroup g x.bound ≠ [] := fun gone => left ((Track.dropBound_keeps g x).1.trans gone)
  unfold Track.dropBound
  dsimp only
  rw [if_neg (by simpa using some_)]
  exact ⟨rfl, rfl, rfl⟩

end Unbind

theorem bindAndUnbindChangeTheBoundSet : Claims.BindAndUnbindChangeTheBoundSet := by
  intro l tier t g s ready low prepared idle
  refine ⟨fun ours unbound still fed apart => ⟨_, rfl, ?_⟩, fun bound markless => ⟨_, rfl, ?_⟩⟩ <;> dsimp only
  · have judged := judgeBindTrack_accepted (p := s.part.frameTaken l) (l := l) (t := t) (g := g)
      (tier := s.part.effectiveTier l tier) (by simpa [Part.Prepared] using prepared) (by simpa using idle) (by simpa using ours)
      (by simpa using unbound) (by simpa using still) (by simpa using fed) (by simpa using apart)
    rw [Part.judged_accepts ready (by simp) rfl low judged]
    have record : ((s.part.frameTaken l).bind l t g).track t = (s.part.track t).bindGroup l g := by
      rw [Part.bind_eq, Part.modQueue_track, Part.modGroup_track, Part.modTrack_track_self, Part.frameTaken_track]
    refine ⟨Part.answers_of_kept (Part.bind_kept.mono (by simp)) _ _, ?_, fun h other => ?_, fun h => ?_, ?_, fun u other => ?_, ?_,
      fun h other => ?_⟩
    · rw [Part.answer_group, Part.bind_eq, Part.modQueue_group, Part.modGroup_group_self, Part.modTrack_group, Part.frameTaken_group]
    · rw [Part.answer_group, Part.bind_eq, Part.modQueue_group, Part.modGroup_group_ne _ _ _ _ other, Part.modTrack_group,
        Part.frameTaken_group]
    · rw [Part.answer_track, record]
      exact mem_addGroup ..
    · rw [Part.answer_track, record]
      simp [Track.bindGroup, List.isEmpty_iff]
    · rw [Part.answer_track, Part.bind_eq, Part.modQueue_track, Part.modGroup_track, Part.modTrack_track_ne _ _ _ _ other,
        Part.frameTaken_track]
    · rw [Part.answer_queue, Part.bind_eq, Part.modQueue_queue_self, Part.modGroup_queue, Part.modTrack_queue, Part.frameTaken_queue]
      rfl
    · rw [Part.answer_queue, Part.bind_eq, Part.modQueue_queue_ne _ _ _ _ other, Part.modGroup_queue, Part.modTrack_queue,
        Part.frameTaken_queue]
  · have judged := judgeUnbindTrack_accepted (p := s.part.frameTaken l) (l := l) (t := t) (g := g)
      (tier := s.part.effectiveTier l tier) (by simpa [Part.Prepared] using prepared) (by simpa using idle) (by simpa using bound)
    have unarmed : (s.part.frameTaken l).unbind t g = (s.part.frameTaken l).unbound t g := by
      rw [Part.unbind_eq]
      cases cues : (s.part.queue g).cues with
      | nil =>
        rw [Part.arm, Part.armHead_empty (by rw [Part.unbound_queue, Part.frameTaken_queue, cues]), Part.fireIf_waits]
      | cons x rest =>
        exact Part.arm_markless (by rw [Part.unbound_queue, Part.frameTaken_queue, cues]) fun mark => markless x rest mark cues
    rw [unarmed] at judged
    rw [Part.judged_driven_accepts ready (by simp) rfl low judged]
    have record : ((s.part.frameTaken l).unbound t g).track t = (s.part.track t).dropBound g := by
      rw [Part.unbound_track, if_pos rfl, Part.frameTaken_track]
    refine ⟨Part.answers_of_kept (Kept.drive (Part.unbound_kept.mono (by simp))) _ _, ?_, fun h other => ?_, ?_, ?_, ?_,
      fun u other => ?_⟩
    · rw [Part.answer_group, Part.drive_group, Part.unbound_group, if_pos rfl, Part.frameTaken_group]
    · rw [Part.answer_group, Part.drive_group, Part.unbound_group, if_neg other, Part.frameTaken_group]
    · rw [Part.answer_track, Part.drive_track, record, (Track.dropBound_keeps g _).1, dropGroup]
      exact List.filter_congr fun h _ => by simp [bne, beq_eq_decide]
    · rw [Part.answer_track, Part.drive_track, record]
      exact Track.dropBound_empty
    · rw [Part.answer_track, Part.drive_track, record]
      exact Track.dropBound_still
    · rw [Part.answer_track, Part.drive_track, Part.unbound_track, if_neg other, Part.frameTaken_track]

/-- R138, R120: the unbound part whose head has been armed for its mark. -/
abbrev Part.unboundArmed (p : Part) (t : Trk) (g : Grp) : Part :=
  (p.unbound t g).modQueue g fun q => { q with arming := .awaitingMark }

theorem Part.unboundArmed_agrees (p : Part) (l : Link) (t : Trk) (g : Grp) :
    (p.modGroup g fun y => { y with boundTrack := none }).Agrees ((p.frameTaken l).unboundArmed t g) g := by
  refine ⟨?_, fun ln _ => ?_⟩
  · rw [Part.modQueue_group, Part.unbound_group, if_pos rfl, Part.frameTaken_group, Part.modGroup_group_self]
  · rw [Part.modQueue_chan, (Part.unbound_kept.mono (cs := [.channels]) (by simp)).chan, Part.frameTaken_chan, Part.modGroup_chan]

theorem unbindArmsAnAtMarkHead : Claims.UnbindArmsAnAtMarkHead := by
  intro l tier t g x rest mark s ready low prepared idle bound cues trigger
  have awake : s.part.ctl.mode ≠ .parked := by rcases prepared with mode | mode <;> rw [mode] <;> decide
  have judged := judgeUnbindTrack_accepted (p := s.part.frameTaken l) (l := l) (t := t) (g := g)
    (tier := s.part.effectiveTier l tier) (by simpa [Part.Prepared] using prepared) (by simpa using idle) (by simpa using bound)
  rw [Part.unbind_eq] at judged
  have same : ((s.part.frameTaken l).unbound t g).queue g = s.part.queue g := by rw [Part.unbound_queue, Part.frameTaken_queue]
  have record : ((s.part.frameTaken l).unbound t g).group g = { s.part.group g with boundTrack := none } := by
    rw [Part.unbound_group, if_pos rfl, Part.frameTaken_group]
  have left := ((s.part.frameTaken_kept l).mono (cs := [.channels, .samples, .queues, .clock, .codes]) (by simp)).trans
    (Part.unbound_kept.mono (by simp) : Kept _ ((s.part.frameTaken l).unbound t g) _)
  have beside := Part.Beside.arm ((s.part.frameTaken l).unbound t g) .other g
  refine ⟨_, rfl, ?_⟩
  dsimp only
  rw [Part.judged_driven_accepts ready (by simp) rfl low judged]
  refine ⟨⟨Part.answer_accepted .., fun h other => ?_, Kept.answer (Kept.drive ((left.mono (cs := [.samples, .clock]) (by simp)).trans
    (beside.kept.mono (by simp)))) l _ _ _ _⟩, fun closed => ?_, ?_⟩
  · rw [Part.answer_queue, Part.drive_queue, beside.queues h other, Part.unbound_queue, Part.frameTaken_queue]
  · have barred : ((s.part.frameTaken l).unbound t g).mayArm g = false := by
      rw [← Bool.not_eq_true, Part.mayArm_iff (by rw [record]; exact idle), Part.Armable, same]
      exact fun may => closed may.2
    rw [Part.arm_barred barred]
    exact ⟨by rw [Part.answer_queue, Part.drive_queue, same], by rw [Part.answer_group, Part.drive_group, record]⟩
  have marked (free : (s.part.queue g).blocked = false ∧ (s.part.queue g).arming = .none) :
      ((s.part.frameTaken l).unbound t g).arm .other g = ((s.part.frameTaken l).unboundArmed t g).judgeHead g :=
    Part.arm_mark (by rw [Part.mayArm_iff (by rw [record]; exact idle), Part.Armable, same, record]; exact ⟨rfl, free⟩)
      (by rw [same]; exact cues) trigger
  have taken := left.mono (cs := [.channels, .samples, .clock, .codes]) (by simp) |>.trans
    ((Part.modQueue_kept _ g _).mono (by simp) : Kept _ ((s.part.frameTaken l).unboundArmed t g) _)
  have group : ((s.part.frameTaken l).unboundArmed t g).group g = { s.part.group g with boundTrack := none } := record
  have clock : ((s.part.frameTaken l).unboundArmed t g).clock = s.part.clock := taken .clock (by simp)
  have queue : ((s.part.frameTaken l).unboundArmed t g).queue g = { s.part.queue g with arming := .awaitingMark } := by
    rw [Part.modQueue_queue_self, same]
  have waiting := congrArg CueQueue.arming queue
  have head := (congrArg CueQueue.cues queue).trans cues
  have ctl : ((s.part.frameTaken l).unboundArmed t g).ctl = { s.part.ctl with silenceDisarm := false } := by
    rw [Part.modQueue_ctl, show Part.ctl (Part.unbound _ t g) = _ from Part.unbound_kept .ctl (by simp), Part.frameTaken_ctl]
  have up : ((s.part.frameTaken l).unboundArmed t g).ctl.mode ≠ .parked := by
    rw [ctl]
    exact awake
  refine ⟨fun free ahead => ?_, fun free runs late => ?_, fun free runs reached graced => ?_⟩ <;> rw [marked free]
  · rw [Part.judgeHead_waits waiting head trigger (by rw [clock]; exact ahead)]
    refine ⟨by rw [Part.answer_queue, Part.drive_queue, queue], by rw [Part.answer_group, Part.drive_group, group],
      Kept.answer (Kept.drive (taken.mono (by simp))) l _ _ _ _⟩
  · rw [Part.judgeHead_late waiting head trigger (by rw [clock]; exact runs) (by rw [clock, group]; exact late)]
    obtain ⟨own, code, kept⟩ := (Part.dropped head up (.cueLate x.number)).answered l 0x31 []
    refine ⟨own, ?_, code, (taken.mono (by simp)).trans (kept.mono (by simp))⟩
    exact ((kept.mono (cs := [.groups]) (by simp)).group g).trans group
  rw [Part.judgeHead_due waiting head trigger (by rw [clock]; exact runs) (by rw [clock]; exact reached)
    (by rw [clock, group]; exact graced)]
  refine ⟨fun admits travels => ?_, fun unarmed => ?_⟩
  · have agrees := s.part.unboundArmed_agrees l t g
    have admitted := agrees.admits (by rw [ctl, Part.modGroup_ctl]) (by rw [ctl, Part.modGroup_ctl]) admits
    rw [← agrees.cueTargets] at admitted travels
    rw [Part.dueHead_started head (by rw [group]; exact idle) admitted (agrees.travels.mpr travels)]
    have started := Part.headFired_started (x := x) (rest := rest) admitted.distinct
    rw [agrees.cueTargets] at started
    refine ⟨(agrees.started started).answer l _ _, ?_⟩
    rw [Part.answer_queue, Part.drive_queue, Part.headFired_queue, if_pos rfl, queue, free.1]
    rfl
  · rw [Part.dueHead_refused head (by rw [ctl]; exact unarmed)]
    obtain ⟨own, code, kept⟩ := (Part.dropped_disarmed head up .mode noIndex).answered l 0x31 []
    exact ⟨own, code, (taken.mono (by simp)).trans (kept.mono (by simp))⟩

/-- Settles O53: a binding changes the track, the group and its queue; an unbinding judges arming after it. -/
theorem bindAndUnbindTrack : Obligations.BindAndUnbindTrack := ⟨unbindArmsAnAtMarkHead, bindAndUnbindChangeTheBoundSet⟩

end Sys2Proof.Machine
end

section
set_option Elab.async false
/-! PROOFS. The heads that a clock judges together, in whatever order (R120, R129, R130, log 5). -/

namespace Sys2Proof.Machine

/-! ### A free order -/

theorem insertPlace_perm {α : Type} (k : Nat) (x : α) (l : List α) : (insertPlace k x l).Perm (x :: l) := by
  induction l generalizing k with
  | nil => simp [insertPlace]
  | cons y l ih =>
    cases k with
    | zero => exact .refl _
    | succ k => exact ((ih k).cons y).trans (.swap x y l)

theorem freeOrder_perm {α : Type} (n : Nat) (l : List α) : (freeOrder n l).Perm l := by
  induction l with
  | nil => exact .refl _
  | cons x l ih => exact (insertPlace_perm _ x _).trans (ih.cons x)

/-! ### Steps of several groups -/

/-- Steps of some groups' queues touch nothing beside these groups. -/
structure Part.Besides (l : List Grp) (p q : Part) : Prop where
  kept : Kept p q [.samples, .clock, .tracks]
  groups : ∀ h, h ∉ l → q.group h = p.group h
  lanes : ∀ h, (q.group h).lanes = (p.group h).lanes
  chans : p.ctl.mode ≠ .parked → ∀ c, (∀ h ∈ l, ∀ ln ∈ (p.group h).lanes, ln.channel ≠ c) → q.chan c = p.chan c
  queues : ∀ h, h ∉ l → q.queue h = p.queue h
  codes : ∀ h, h ∉ l → q.codes.groups[h] = p.codes.groups[h]
  awake : p.ctl.mode ≠ .parked → q.ctl.mode ≠ .parked
  unarmed : p.ctl.mode ≠ .armed → q.ctl.mode ≠ .armed
  ctl : p.ctl.mode ≠ .parked → p.ctl.silenceDisarm = false → q.ctl = p.ctl

namespace Part.Besides
variable {p q r : Part} {g : Grp} {l : List Grp}

theorem refl (p : Part) (l : List Grp) : Part.Besides l p p :=
  ⟨.refl p _, fun _ _ => rfl, fun _ => rfl, fun _ _ _ => rfl, fun _ _ => rfl, fun _ _ => rfl, id, id, fun _ _ => rfl⟩

/-- A step of one group, and then steps of others. -/
theorem cons (h : Part.Beside g p q) (k : Part.Besides l q r) : Part.Besides (g :: l) p r where
  kept := h.kept.trans k.kept
  groups i out := by
    rw [List.mem_cons, not_or] at out
    exact (k.groups i out.2).trans (h.groups i out.1)
  lanes i := by
    rw [k.lanes]
    by_cases same : i = g
    · rw [same, h.lanes]
    · rw [h.groups i same]
  chans up c out := by
    refine (k.chans (h.awake up) c fun i mem ln lane => ?_).trans (h.chans up c (out g List.mem_cons_self))
    have lanes : (q.group i).lanes = (p.group i).lanes := by
      by_cases same : i = g
      · rw [same, h.lanes]
      · rw [h.groups i same]
    exact out i (List.mem_cons_of_mem _ mem) ln (by rw [← lanes]; exact lane)
  queues i out := by
    rw [List.mem_cons, not_or] at out
    exact (k.queues i out.2).trans (h.queues i out.1)
  codes i out := by
    rw [List.mem_cons, not_or] at out
    exact (k.codes i out.2).trans (h.codes i out.1)
  awake up := k.awake (h.awake up)
  unarmed off := k.unarmed (h.unarmed off)
  ctl up clear := (k.ctl (h.awake up) (by rw [h.ctl up clear]; exact clear)).trans (h.ctl up clear)

theorem forEach {f : Part → Grp → Part} (each : ∀ q g, Part.Beside g q (f q g)) (l : List Grp) (p : Part) :
    Part.Besides l p (p.forEach l f) := by
  induction l generalizing p with
  | nil => exact refl p []
  | cons g l ih => exact (ih (f p g)).cons (each p g)

/-- In a loop over distinct groups, a group's step stands between steps of other groups. -/
theorem splits {f : Part → Grp → Part} (each : ∀ q g, Part.Beside g q (f q g)) (nodup : l.Nodup) (mem : g ∈ l) (p : Part) :
    ∃ a b q, l = a ++ g :: b ∧ g ∉ a ∧ g ∉ b ∧ q = p.forEach a f ∧ Part.Besides a p q
      ∧ Part.Besides b (f q g) (p.forEach l f) := by
  obtain ⟨a, b, order⟩ := List.append_of_mem mem
  rw [order, List.nodup_middle, List.nodup_cons, List.mem_append, not_or] at nodup
  refine ⟨a, b, _, order, nodup.1.1, nodup.1.2, rfl, forEach each _ _, ?_⟩
  rw [order, Part.forEach_append, Part.forEach_cons]
  exact forEach each _ _

/-- What steps of other groups leave of a group that shares no channel with them. -/
theorem agrees (h : Part.Besides l p q) (out : g ∉ l) (up : p.ctl.mode ≠ .parked)
    (apart : ∀ i ∈ l, ∀ ln ∈ (p.group i).lanes, ∀ k ∈ (p.group g).lanes, ln.channel ≠ k.channel) : p.Agrees q g :=
  ⟨h.groups g out, fun k mem => h.chans up _ fun i there ln lane => apart i there ln lane k mem⟩

end Part.Besides

theorem Part.Started.later {p q r : Part} {g : Grp} {tier : Nat} {l : Link} {src : MoveSource} {v : Option Nat}
    {demandOf : Lane → Int → Nat} {targets : List Int} (h : p.Started q g tier l src v demandOf targets) (same : q.Agrees r g) :
    p.Started r g tier l src v demandOf targets := by
  obtain ⟨record, chans⟩ := h
  obtain ⟨group, lanes⟩ := same
  refine ⟨group.trans record, fun lt mem => (lanes lt.1 ?_).trans (chans lt mem)⟩
  rw [record]
  exact (List.of_mem_zip mem).1

/-! ### The judgement of every waiting head -/

/-- The groups whose heads wait for a mark. -/
def Part.waiting (p : Part) : List Grp := allGroups.filter fun g => (p.queue g).arming == .awaitingMark

theorem Part.mem_waiting {p : Part} {g : Grp} : g ∈ p.waiting ↔ (p.queue g).arming = .awaitingMark := by simp [Part.waiting]

/-- The groups whose heads wait, in the order in which they are judged. -/
def Part.order (p : Part) : List Grp := freeOrder p.draws p.waiting

theorem Part.mem_order {p : Part} {g : Grp} : g ∈ p.order ↔ (p.queue g).arming = .awaitingMark := by
  rw [Part.order, mem_freeOrder, Part.mem_waiting]

theorem Part.order_nodup (p : Part) : p.order.Nodup :=
  (freeOrder_perm _ _).nodup_iff.mpr (allGroups_nodup.filter _)

theorem Part.judgeAll_eq (p : Part) : p.judgeAll = (p.draw p.waiting.length).forEach p.order Part.judgeHead := rfl

theorem Part.judgeAll_besides (p : Part) : Part.Besides p.order (p.draw p.waiting.length) p.judgeAll :=
  .forEach (fun q g => .judgeHead q g) _ _

/-- A waiting head is judged once, between steps of other groups. -/
theorem Part.judgeAll_splits {p : Part} {g : Grp} (waits : (p.queue g).arming = .awaitingMark) :
    ∃ a b q, p.order = a ++ g :: b ∧ g ∉ a ∧ g ∉ b ∧ q = (p.draw p.waiting.length).forEach a Part.judgeHead
      ∧ Part.Besides a (p.draw p.waiting.length) q ∧ Part.Besides b (q.judgeHead g) p.judgeAll :=
  Part.Besides.splits (fun q g => .judgeHead q g) p.order_nodup (Part.mem_order.mpr waits) _

/-- R120: a head that no reached mark waits for is judged without effect. -/
theorem Part.judgeHead_ahead {p : Part} {g : Grp}
    (ahead : ∀ x rest mark, (p.queue g).cues = x :: rest → x.trigger = .atMark mark → p.clock.value < mark) :
    p.judgeHead g = p := by
  by_cases waits : (p.queue g).arming = .awaitingMark
  · cases cues : (p.queue g).cues with
    | nil => simp [Part.judgeHead, Part.judgeMark, waits, cues, Part.fireIf]
    | cons x rest =>
      cases trigger : x.trigger with
      | atMark mark => exact Part.judgeHead_waits waits cues trigger (.inr (ahead x rest mark cues trigger))
      | onGo | afterPrevious n => simp [Part.judgeHead, Part.judgeMark, waits, cues, trigger, Part.fireIf]
  · rw [Part.judgeHead, Part.judgeMark_idle waits, Part.fireIf_waits]

theorem Part.judgeAll_ahead {p : Part}
    (ahead : ∀ g x rest mark, (p.queue g).arming = .awaitingMark → (p.queue g).cues = x :: rest → x.trigger = .atMark mark →
      p.clock.value < mark) : p.judgeAll = p.draw p.waiting.length :=
  Part.forEach_inv (P := fun q => q = p.draw p.waiting.length) rfl fun q g mem same => by
    rw [same]
    exact Part.judgeHead_ahead (ahead g · · · (Part.mem_order.mp mem))

/-! ### What a judgement among others makes of a head -/

/-- R120, R122, R123, R125: what the judgement at a clock value makes of a waiting head. -/
structure Part.HeadJudged (p q : Part) (v : Nat) (g : Grp) (x : Cue) (rest : List Cue) (mark : Nat) : Prop where
  ahead : v < mark → q.queue g = p.queue g ∧ q.group g = p.group g
  late : mark + (p.group g).lateGrace < v →
    q.queue g = droppedQueue rest ∧ q.codes.groups[g] = some (.cueLate x.number) ∧ q.group g = p.group g
  unarmed : mark ≤ v → v ≤ mark + (p.group g).lateGrace → p.ctl.mode ≠ .armed →
    q.queue g = droppedQueue rest ∧ q.codes.groups[g] = some (.cueRefused x.number .mode 0xFF) ∧ q.group g = p.group g
  fires : mark ≤ v → v ≤ mark + (p.group g).lateGrace → p.Admits g x.tier x.origin (p.cueTargets g x) →
    (p.group g).state = .idle →
    (∀ h, h ≠ g → (p.queue h).arming = .awaitingMark →
      ∀ ln ∈ (p.group h).lanes, ∀ k ∈ (p.group g).lanes, ln.channel ≠ k.channel) →
    p.ctl.silenceDisarm = false ∨ (∀ h, h ≠ g → (p.queue h).arming ≠ .awaitingMark) →
    (p.Travels g (p.cueTargets g x) →
      p.Started q g x.tier x.origin (.cue x.number) (some x.speed) (cueSpeed x.speed) (p.cueTargets g x)
      ∧ q.queue g = (p.queue g).rest ((p.queue g).blocked && !rest.isEmpty))
    ∧ (¬p.Travels g (p.cueTargets g x) → rest = [] →
      q.queue g = droppedQueue rest ∧ q.codes.groups[g] = some (.cueDone x.number)
      ∧ q.group g = { p.group g with state := .idle, held := false, move := none, controlTimer := none }
      ∧ ∀ ln ∈ (p.group g).lanes, (q.chan ln.channel).state = .idle ∧ (q.chan ln.channel).mover = .none)

theorem Part.raise_code (p : Part) (g : Grp) (e : Event) : (p.raise (.group g) e).codes.groups[g] = some e := by
  have posted : (p.post (.group g) e).codes.groups[g] = some e := Vector.getElem_set_self_grp ..
  by_cases wakes : p.Wakes (.group g) e
  · rw [Part.raise_wakes wakes, Part.changeMode_codes]
    exact posted
  · rw [Part.raise_sleeps wakes]
    exact posted

/-- R120, R123, R125: a head is dropped, in any mode. -/
theorem Part.drop_leaves {p : Part} {g : Grp} {x : Cue} {rest : List Cue} (cues : (p.queue g).cues = x :: rest) (e : Event) :
    let q := (p.modQueue g fun q => q.pop.block).raise (.group g) e
    q.queue g = droppedQueue rest ∧ q.codes.groups[g] = some e ∧ q.group g = p.group g := by
  have kept := (p.modQueue g fun q => q.pop.block).raise_kept (.group g) e
  refine ⟨?_, Part.raise_code .., ((kept.mono (cs := [.groups]) (by simp)).group g).trans (Part.modQueue_group ..)⟩
  exact ((kept.mono (cs := [.queues]) (by simp)).queue g).trans ((p.modQueue_queue_self g fun q => q.pop.block).trans
    (CueQueue.pop_block cues))

section Judged
variable {p : Part} {g : Grp} {x : Cue} {rest : List Cue} {mark : Nat}

theorem Part.judgeAll_head (waits : (p.queue g).arming = .awaitingMark) (cues : (p.queue g).cues = x :: rest)
    (trigger : x.trigger = .atMark mark) (running : p.clock.running = true) :
    p.HeadJudged p.judgeAll p.clock.value g x rest mark := by
  obtain ⟨a, b, q, order, outa, outb, start, before, after⟩ := Part.judgeAll_splits waits
  have queue : q.queue g = p.queue g := before.queues g outa
  have group : q.group g = p.group g := before.groups g outa
  have clock : q.clock = p.clock := before.kept .clock (by simp)
  have waits' : (q.queue g).arming = .awaitingMark := by rw [queue, waits]
  have cues' : (q.queue g).cues = x :: rest := by rw [queue, cues]
  have running' : q.clock.running = true := by rw [clock, running]
  have due (reached : mark ≤ p.clock.value) (graced : p.clock.value ≤ mark + (p.group g).lateGrace) :
      q.judgeHead g = Part.fireIf (q.modQueue g CueQueue.disarm, true) g :=
    Part.judgeHead_due waits' cues' trigger running' (by rw [clock]; exact reached) (by rw [clock, group]; exact graced)
  refine ⟨fun ahead => ?_, fun late => ?_, fun reached graced unarmed => ?_, fun reached graced admits idle apart clear => ?_⟩
  · rw [after.queues g outb, after.groups g outb, Part.judgeHead_waits waits' cues' trigger (.inr (by rw [clock]; exact ahead))]
    exact ⟨queue, group⟩
  · rw [after.queues g outb, after.groups g outb, after.codes g outb,
      Part.judgeHead_late waits' cues' trigger running' (by rw [clock, group]; exact late), ← group]
    exact Part.drop_leaves cues' _
  · rw [after.queues g outb, after.groups g outb, after.codes g outb, due reached graced,
      Part.dueHead_refused cues' (before.unarmed unarmed), ← group]
    exact Part.drop_leaves (p := q.modQueue g CueQueue.disarm) (by simpa [CueQueue.disarm] using cues') _
  have up : p.ctl.mode ≠ .parked := admits.awake_
  have near (i : Grp) (mem : i ∈ a ∨ i ∈ b) : ∀ ln ∈ (p.group i).lanes, ∀ k ∈ (p.group g).lanes, ln.channel ≠ k.channel := by
    refine apart i (fun same => ?_) (Part.mem_order.mp ?_)
    · rw [same] at mem
      exact mem.elim outa outb
    · rw [order, List.mem_append, List.mem_cons]
      tauto
  have agrees : p.Agrees q g := before.agrees outa up fun i mem => near i (.inl mem)
  have ctl : q.ctl = p.ctl := by
    rcases clear with clear | alone
    · exact before.ctl up clear
    · have none_ : a = [] := List.eq_nil_iff_forall_not_mem.mpr fun i mem =>
        alone i (fun same => outa (same ▸ mem)) (Part.mem_order.mp (by rw [order]; exact List.mem_append_left _ mem))
      rw [start, none_]
      rfl
  have admits' : q.Admits g x.tier x.origin (q.cueTargets g x) := by
    rw [agrees.cueTargets]
    exact agrees.admits (by rw [ctl]) (by rw [ctl]) admits
  have idle' : (q.group g).state = .idle := by rw [group, idle]
  have beside := Part.Beside.judgeHead q g
  have later : (q.judgeHead g).Agrees p.judgeAll g :=
    after.agrees outb (beside.awake (before.awake up)) fun i mem ln lane k there => by
      have other : i ≠ g := fun same => outb (same ▸ mem)
      rw [beside.groups i other, before.lanes i] at lane
      rw [beside.lanes, before.lanes g] at there
      exact near i (.inr mem) ln lane k there
  refine ⟨fun travels => ?_, fun still last => ?_⟩
  · rw [← agrees.cueTargets, ← agrees.travels] at travels
    rw [due reached graced, Part.dueHead_started cues' idle' admits' travels] at later after
    have started := Part.headFired_started (x := x) (rest := rest) admits'.distinct
    rw [agrees.cueTargets] at started
    refine ⟨(agrees.started started).later later, ?_⟩
    rw [after.queues g outb, Part.headFired_queue, if_pos rfl, queue]
  · subst last
    rw [← agrees.cueTargets, ← agrees.travels] at still
    rw [due reached graced, Part.dueHead_completed cues' idle' admits' still] at later after
    obtain ⟨record, own, code, -, lanes⟩ := Part.headFired_completed cues' admits' still
    refine ⟨by rw [after.queues g outb, own]; rfl, by rw [after.codes g outb, code],
      by rw [after.groups g outb, record, group], fun ln mem => ?_⟩
    rw [later.2 ln (by rw [record, group]; exact mem)]
    exact lanes ln (by rw [group]; exact mem)

/-- What follows the judgement of the heads in the same taking leaves their records. -/
theorem Part.HeadJudged.later {q r : Part} {v : Nat} (h : p.HeadJudged q v g x rest mark)
    (kept : Kept q r [.channels, .groups, .queues, .codes]) : p.HeadJudged r v g x rest mark := by
  have chan (c : Chan) : r.chan c = q.chan c := (kept.mono (cs := [.channels]) (by simp)).chan c
  have group : r.group g = q.group g := (kept.mono (cs := [.groups]) (by simp)).group g
  have queue : r.queue g = q.queue g := (kept.mono (cs := [.queues]) (by simp)).queue g
  have codes : r.codes = q.codes := kept .codes (by simp)
  obtain ⟨ahead, late, unarmed, fires⟩ := h
  refine ⟨?_, ?_, ?_, fun reached graced admits idle apart clear => ?_⟩
  · rwa [queue, group]
  · rwa [queue, group, codes]
  · rwa [queue, group, codes]
  obtain ⟨moves, rests⟩ := fires reached graced admits idle apart clear
  refine ⟨fun travels => ?_, fun still last => ?_⟩
  · obtain ⟨started, own⟩ := moves travels
    exact ⟨started.later ⟨group, fun ln _ => chan _⟩, queue.trans own⟩
  · obtain ⟨own, code, record, lanes⟩ := rests still last
    exact ⟨queue.trans own, by rw [codes, code], group.trans record, fun ln mem => by rw [chan]; exact lanes ln mem⟩

end Judged

end Sys2Proof.Machine
end

section
set_option Elab.async false
/-! PROOFS. SET_CLOCK, and the show clock that starts or saturates (R129, R130). -/

namespace Sys2Proof.Machine

/-! ### The clock and the heads -/

section Clock
variable {p : Part} {l : Link}

theorem Part.setClock_kept (p : Part) (v : Nat) (r : Bool) :
    Kept p (p.setClock v r) [.ctl, .link .a, .link .b, .channels, .ports, .samples, .groups, .queues, .tracks, .codes] := by
  simp only [Kept, List.mem_cons, List.not_mem_nil, or_false, forall_eq_or_imp, forall_eq]
  exact ⟨rfl, rfl, rfl, rfl, ⟨rfl, rfl⟩, fun _ => rfl, rfl, rfl, rfl, rfl⟩

theorem Part.draw_kept (p : Part) (n : Nat) :
    Kept p (p.draw n) [.ctl, .link .a, .link .b, .channels, .samples, .groups, .queues, .clock, .tracks, .codes] := by
  simp only [Kept, List.mem_cons, List.not_mem_nil, or_false, forall_eq_or_imp, forall_eq]
  exact ⟨rfl, rfl, rfl, rfl, fun _ => rfl, rfl, rfl, rfl, rfl, rfl⟩

/-- R129, R130: the waiting heads judged by a running clock, which stops at its last value. -/
def Part.clockJudged (p : Part) : Part :=
  if p.clock.value = Config.clockMax then p.judgeAll.setClock Config.clockMax false else p.judgeAll

theorem Part.clockJudged_kept (p : Part) :
    Kept p.judgeAll p.clockJudged [.ctl, .link .a, .link .b, .channels, .ports, .samples, .groups, .queues, .tracks, .codes] := by
  unfold Part.clockJudged
  split
  · exact Part.setClock_kept _ _ _
  · exact .refl _ _

theorem Part.clockJudged_clock (running : p.clock.running = true) :
    p.clockJudged.clock = { value := p.clock.value, running := p.clock.value != 4294967295 } := by
  unfold Part.clockJudged
  split
  · next last =>
    rw [last]
    rfl
  · next before =>
    have same : p.judgeAll.clock = p.clock := p.judgeAll_besides.kept .clock (by simp)
    have moving : (p.clock.value != 4294967295) = true := bne_iff_ne.mpr before
    rw [same, moving, ← running]

theorem Part.startClock_stopped (stopped : p.clock.running = false) :
    p.startClock = (p.setClock p.clock.value true).clockJudged := by
  unfold Part.startClock
  rw [stopped]
  rfl

theorem Part.startClock_running (running : p.clock.running = true) : p.startClock = p := by
  unfold Part.startClock
  rw [running]
  rfl

theorem judgeSetClock_start (tier : Nat) (a b c d : Byte) :
    judgeSetClock l tier [1, a, b, c, d] p = .accepted (clockBytes p.startClock.clock) p.startClock := rfl

theorem judgeSetClock_hold (tier : Nat) (a b c d : Byte) :
    judgeSetClock l tier [2, a, b, c, d] p
      = .accepted (clockBytes { p.clock with running := false }) (p.setClock p.clock.value false) := rfl

theorem judgeSetClock_set (tier : Nat) (a b c d : Byte) :
    judgeSetClock l tier [0, a, b, c, d] p = refuseIf p.clock.running .state noIndex
      (.accepted (clockBytes { value := rd32 a b c d, running := false }) (p.setClock (rd32 a b c d) false)) := rfl

/-- What a judgement of the waiting heads leaves, whatever follows it in the same taking. -/
structure Part.ClockJudges (p q : Part) (v : Nat) : Prop where
  kept : Kept p q [.samples, .tracks]
  unwaiting : ∀ g, (p.queue g).arming ≠ .awaitingMark → q.queue g = p.queue g ∧ q.group g = p.group g
  heads : ∀ g x rest mark, (p.queue g).arming = .awaitingMark → (p.queue g).cues = x :: rest → x.trigger = .atMark mark →
    p.HeadJudged q v g x rest mark

theorem Part.clockJudged_judges (running : p.clock.running = true) {q : Part}
    (later : Kept p.clockJudged q [.channels, .samples, .groups, .queues, .tracks, .codes]) :
    p.ClockJudges q p.clock.value := by
  have besides := p.judgeAll_besides
  have kept := (p.clockJudged_kept.mono (cs := [.channels, .samples, .groups, .queues, .tracks, .codes]) (by simp)).trans later
  refine ⟨?_, fun g unarmed => ?_, fun g x rest mark waits cues trigger => ?_⟩
  · exact (((Part.draw_kept p _).mono (by simp)).trans (besides.kept.mono (by simp))).trans (kept.mono (by simp))
  · have out := mt (Part.mem_order (p := p) (g := g)).mp unarmed
    exact ⟨((kept.mono (cs := [.queues]) (by simp)).queue g).trans (besides.queues g out),
      ((kept.mono (cs := [.groups]) (by simp)).group g).trans (besides.groups g out)⟩
  · exact (Part.judgeAll_head waits cues trigger running).later (kept.mono (by simp))

/-- R120: a judgement told of the part before the request is taken. -/
theorem Part.ClockJudges.taken {q : Part} {v : Nat} {r : Bool} {n : Nat}
    (h : ((p.frameTaken l).setClock v r).ClockJudges q n) : p.ClockJudges q n := by
  obtain ⟨kept, unwaiting, heads⟩ := h
  have same := ((p.frameTaken_kept l).mono (cs := [.channels, .samples, .groups, .queues, .tracks]) (by simp)).trans
    ((Part.setClock_kept (p.frameTaken l) v r).mono (by simp))
  have queue (g : Grp) := (same.mono (cs := [.queues]) (by simp)).queue g
  have agrees (g : Grp) : p.Agrees ((p.frameTaken l).setClock v r) g :=
    ⟨(same.mono (cs := [.groups]) (by simp)).group g, fun ln _ => (same.mono (cs := [.channels]) (by simp)).chan _⟩
  have ctl : ((p.frameTaken l).setClock v r).ctl = { p.ctl with silenceDisarm := false } := Part.frameTaken_ctl p l
  refine ⟨(same.mono (by simp)).trans kept, fun g unarmed => ?_, fun g x rest mark waits cues trigger => ?_⟩
  · have left := unwaiting g (by rw [queue]; exact unarmed)
    rwa [queue, (agrees g).1] at left
  obtain ⟨ahead, late, unarmed, fires⟩ := heads g x rest mark (by rw [queue]; exact waits) (by rw [queue]; exact cues) trigger
  rw [queue, (agrees g).1] at ahead
  rw [(agrees g).1] at late unarmed fires
  rw [ctl] at unarmed fires
  refine ⟨ahead, late, unarmed, fun reached graced admits idle apart _ => ?_⟩
  rw [(agrees g).cueTargets, queue] at fires
  have judged := fires reached graced ((agrees g).admits (by rw [ctl]) (by rw [ctl]) admits) idle
    (fun h other waits ln lane => apart h other (by rw [← queue]; exact waits) ln (by rw [← (agrees h).1]; exact lane)) (.inl rfl)
  rw [(agrees g).travels] at judged
  exact ⟨fun travels => ⟨(agrees g).started (judged.1 travels).1, (judged.1 travels).2⟩, judged.2⟩

end Clock

/-! ### The claims -/

theorem clockBytes_eq (k : ShowClock) : clockBytes k = wr32 k.value ++ [if k.running then 1 else 0] := rfl

theorem exec_showClockSaturate {s : State} (free : s.part.ctl.held = false)
    (last : s.part.clock = { value := 4294967295, running := true }) :
    exec .showClockSaturate s = .next { s with part := s.part.clockJudged.drive } := by
  have taking : exec .showClockSaturate s = execShowClockSaturate s := rfl
  have here : (s.part.clock.running && s.part.clock.value == Config.clockMax) = true := by rw [last]; rfl
  have judged : s.part.clockJudged = s.part.judgeAll.setClock Config.clockMax false := if_pos (by rw [last]; rfl)
  rw [taking, execShowClockSaturate, State.take_next, Part.awake_of_free free, here, judged]
  rfl

/-- What a SET_CLOCK that judges no head leaves. -/
theorem setClock_tells {p q : Part} {l : Link} {k : ShowClock}
    (kept : Kept (p.frameTaken l) q [.ctl, .link .a, .link .b, .channels, .samples, .groups, .queues, .tracks, .codes])
    (clock : q.clock = k) :
    p.Answers (q.drive.answer l 0x27 .ok 0xFF (clockBytes k)) l 0x27 (wr32 k.value ++ [if k.running then 1 else 0])
        [.channels, .samples, .groups, .queues, .tracks, .codes]
      ∧ (q.drive.answer l 0x27 .ok 0xFF (clockBytes k)).clock = k := by
  refine ⟨Part.answers_of_kept (Kept.drive kept) _ _, ?_⟩
  rw [Part.answer_clock, Part.drive_clock, clock]

theorem setClockTellsTheClock : Claims.SetClockSetsStartsAndHolds := by
  intro l tier a b c d s ready low n tells
  have taken : (s.part.frameTaken l).clock = s.part.clock := Part.frameTaken_clock ..
  refine ⟨fun stopped => ⟨_, rfl, ?_⟩, fun running => ⟨_, rfl, ?_⟩, ⟨_, rfl, ?_⟩, fun running => ⟨_, rfl, ?_⟩,
    fun stopped ahead => ⟨_, rfl, ?_⟩, fun last unarmed => ?_⟩ <;> try dsimp only
  · have judged := judgeSetClock_set (p := s.part.frameTaken l) (l := l) (s.part.effectiveTier l tier) a b c d
    rw [taken, stopped] at judged
    rw [Part.judged_driven_accepts ready (by simp) rfl low judged]
    exact setClock_tells ((Part.setClock_kept _ _ _).mono (by simp)) rfl
  · have judged := judgeSetClock_set (p := s.part.frameTaken l) (l := l) (s.part.effectiveTier l tier) a b c d
    rw [taken, running] at judged
    exact Part.judged_driven_refuses ready (by simp) rfl low judged
  · have judged := judgeSetClock_hold (p := s.part.frameTaken l) (l := l) (s.part.effectiveTier l tier) a b c d
    rw [taken] at judged
    rw [Part.judged_driven_accepts ready (by simp) rfl low judged]
    exact setClock_tells ((Part.setClock_kept _ _ _).mono (by simp)) rfl
  · have judged := judgeSetClock_start (p := s.part.frameTaken l) (l := l) (s.part.effectiveTier l tier) a b c d
    rw [Part.startClock_running (by rw [taken, running]), taken] at judged
    rw [Part.judged_driven_accepts ready (by simp) rfl low judged]
    exact setClock_tells (.refl _ _) taken
  · have judged := judgeSetClock_start (p := s.part.frameTaken l) (l := l) (s.part.effectiveTier l tier) a b c d
    rw [Part.startClock_stopped (by rw [taken, stopped]), Part.clockJudged_clock rfl] at judged
    have idle : ((s.part.frameTaken l).setClock (s.part.frameTaken l).clock.value true).judgeAll
        = ((s.part.frameTaken l).setClock (s.part.frameTaken l).clock.value true).draw _ :=
      Part.judgeAll_ahead fun g x rest mark waits cues trigger => by
        have queue : ((s.part.frameTaken l).setClock (s.part.frameTaken l).clock.value true).queue g = s.part.queue g :=
          Part.frameTaken_queue ..
        rw [queue] at waits cues
        have before := ahead g x rest mark waits cues trigger
        rwa [← taken] at before
    have value : (s.part.frameTaken l).clock.value = s.part.clock.value := by rw [taken]
    rw [Part.judged_driven_accepts ready (by simp) rfl low judged]
    have told := setClock_tells (p := s.part) (l := l)
      (q := ((s.part.frameTaken l).setClock (s.part.frameTaken l).clock.value true).clockJudged)
      ((((Part.setClock_kept (s.part.frameTaken l) _ _).mono (by simp)).trans ((Part.draw_kept _ _).mono (by simp))).trans
        (by rw [← idle]; exact (Part.clockJudged_kept _).mono (by simp))) (Part.clockJudged_clock rfl)
    have same : ((s.part.frameTaken l).setClock (s.part.frameTaken l).clock.value true).clock.value = s.part.clock.value := value
    rw [same] at told ⊢
    exact told
  · refine ⟨_, exec_showClockSaturate ready.1 last, ?_, ?_⟩
    · rw [Part.drive_clock, Part.clockJudged_clock (by rw [last]), last]
      rfl
    · have idle : s.part.judgeAll = s.part.draw _ := Part.judgeAll_ahead fun g x rest mark waits => absurd waits (unarmed g)
      exact Kept.drive (((Part.draw_kept s.part _).mono (by simp)).trans
        (by rw [← idle]; exact s.part.clockJudged_kept.mono (by simp)))

theorem clockJudgesTheWaitingHeads : Claims.ClockJudgesTheWaitingHeads := by
  intro i l tier a b c d s free occasion v
  rcases occasion with ⟨rfl, unanswered, low, stopped⟩ | ⟨rfl, last⟩
  · have judged := judgeSetClock_start (p := s.part.frameTaken l) (l := l) (s.part.effectiveTier l tier) a b c d
    rw [Part.startClock_stopped (by rw [Part.frameTaken_clock, stopped]), Part.clockJudged_clock rfl] at judged
    have same : ((s.part.frameTaken l).setClock (s.part.frameTaken l).clock.value true).clock.value = v := by
      show (s.part.frameTaken l).clock.value = v
      rw [Part.frameTaken_clock]
    refine ⟨_, rfl, ?_⟩
    dsimp only
    rw [Part.judged_driven_accepts ⟨free, unanswered⟩ (by simp) rfl low judged]
    have judges := (Part.clockJudged_judges (p := (s.part.frameTaken l).setClock (s.part.frameTaken l).clock.value true) rfl
      (Kept.answer (Kept.drive (.refl _ _)) l 0x27 .ok 0xFF (clockBytes { value := v, running := v != 4294967295 }))).taken
    rw [same] at judges ⊢
    refine ⟨?_, judges.kept, fun _ => Part.answer_accepted .., judges.unwaiting, fun g x rest mark waits cues trigger => ?_⟩
    · rw [Part.answer_clock, Part.drive_clock, Part.clockJudged_clock rfl, same]
    · obtain ⟨ahead, late, unarmed, fires⟩ := judges.heads g x rest mark waits cues trigger
      exact ⟨ahead, late, fun reached graced => ⟨unarmed reached graced, fires reached graced⟩⟩
  · refine ⟨_, exec_showClockSaturate free last, ?_⟩
    have judges := Part.clockJudged_judges (p := s.part) (by rw [last]) (Kept.drive (.refl _ _))
    refine ⟨?_, judges.kept, fun other => absurd rfl other, judges.unwaiting, fun g x rest mark waits cues trigger => ?_⟩
    · rw [Part.drive_clock, Part.clockJudged_clock (by rw [last])]
    · obtain ⟨ahead, late, unarmed, fires⟩ := judges.heads g x rest mark waits cues trigger
      exact ⟨ahead, late, fun reached graced => ⟨unarmed reached graced, fires reached graced⟩⟩

/-- Settles O52: each waiting head is judged once, between steps of groups that do not touch it. -/
theorem setClockSetsStartsAndHolds : Obligations.SetClockSetsStartsAndHolds :=
  ⟨setClockTellsTheClock, clockJudgesTheWaitingHeads⟩

end Sys2Proof.Machine
end

section
set_option Elab.async false
/-! PROOFS. FEED_TRACK, and the start of a segment (R139 to R141, R144, R85). -/

namespace Sys2Proof.Machine

/-! ### The start of a segment -/

section Segment
variable {p q : Part} {t : Trk} {w : Waypoint} {rest : List Waypoint}

theorem Part.retarget_kept (p : Part) (g : Grp) (plan : List (Int × Nat)) :
    Kept p (p.retarget g plan) [.ctl, .link .a, .link .b, .ports, .samples, .queues, .clock, .tracks, .codes] := by
  unfold Part.retarget
  split
  · exact .refl _ _
  · split
    · exact .refl _ _
    · exact Part.forEach_inv (P := fun q => Kept p q _) ((Part.modGroup_kept _ _ _).mono (by simp)) fun _ _ _ kept =>
        kept.trans ((Part.modChan_kept _ _ _).mono (by simp))

theorem Part.startSegment_eq (list : (p.track t).waypoints = w :: rest) :
    p.startSegment t = (p.modTrack t Track.takeHead).forEach (p.track t).playing fun p g =>
      if (p.group g).active then p.retarget g (p.segmentPlan t g w) else p := by
  unfold Part.startSegment
  rw [list]

theorem Part.startSegment_loop_kept (list : (p.track t).waypoints = w :: rest) :
    Kept (p.modTrack t Track.takeHead) (p.startSegment t)
      [.ctl, .link .a, .link .b, .ports, .samples, .queues, .clock, .tracks, .codes] := by
  rw [Part.startSegment_eq list]
  refine Part.forEach_inv (P := fun q => Kept _ q _) (.refl _ _) fun q g _ kept => kept.trans ?_
  split
  · exact Part.retarget_kept _ _ _
  · exact .refl _ _

theorem Part.startSegment_kept (list : (p.track t).waypoints = w :: rest) :
    Kept p (p.startSegment t) [.ctl, .link .a, .link .b, .ports, .samples, .queues, .clock, .codes] :=
  ((Part.modTrack_kept _ _ _).mono (by simp)).trans ((Part.startSegment_loop_kept list).mono (by simp))

theorem Track.takeHead_eq {x : Track} (list : x.waypoints = w :: rest) : x.takeHead = x.segment w rest := by
  unfold Track.takeHead Track.segment
  rw [list]

theorem Part.startSegment_track (list : (p.track t).waypoints = w :: rest) (u : Trk) :
    (p.startSegment t).track u = if u = t then (p.track t).segment w rest else p.track u := by
  rw [((Part.startSegment_loop_kept list).mono (cs := [.tracks]) (by simp)).track]
  split
  · next same => rw [same, Part.modTrack_track_self, Track.takeHead_eq list]
  · next other => exact Part.modTrack_track_ne _ _ _ _ other

/-- R144: what the start of a segment is told of, read from another part that has the same groups, channels and players. -/
theorem Part.SegmentGiven.of_same {p' q' : Part} (h : p'.SegmentGiven q' t w) (groups : ∀ g, p'.group g = p.group g)
    (chans : ∀ c, p'.chan c = p.chan c) (playing : (p'.track t).playing = (p.track t).playing)
    (origins : (p'.track t).origins = (p.track t).origins) (groups' : ∀ g, q.group g = q'.group g)
    (chans' : ∀ c, q.chan c = q'.chan c) : p.SegmentGiven q t w := by
  obtain ⟨others, outside, given⟩ := h
  have originList (g : Grp) : p'.originList t g = p.originList t g := by
    unfold Part.originList
    simp only [origins, groups, chans]
  simp only [playing, groups, chans] at others outside
  refine ⟨fun g out => (groups' g).trans (others g out), fun c out => (chans' c).trans (outside c out), fun apart g reached => ?_⟩
  refine (given ?_ g (by simpa only [playing, groups] using reached)).of_same (groups g) origins (fun _ _ => chans _) (groups' g)
    fun _ _ => chans' _
  unfold Part.PlaysApart at apart ⊢
  simpa only [playing, groups, originList] using apart

end Segment

/-! ### The batch of a FEED_TRACK (R139, R188) -/

theorem rdS16_bytes {d : Int} (low : -32768 ≤ d) (high : d ≤ 32767) :
    rdS16 ((BitVec.ofInt 16 d).extractLsb' 8 8) ((BitVec.ofInt 16 d).extractLsb' 0 8) = d := by
  rw [rdS16, BitVec.extractLsb'_append_extractLsb'_eq_extractLsb' (by rfl),
    show (BitVec.ofInt 16 d).extractLsb' 0 (8 + 8) = BitVec.ofInt 16 d from BitVec.extractLsb'_eq_self, BitVec.toInt_ofInt]
  norm_num [Int.bmod]
  omega

/-- R139: a waypoint whose fields are in their ranges. -/
def Waypoint.Ranged (w : Waypoint) : Prop := -30000 ≤ w.offset ∧ w.offset ≤ 30000 ∧ 40 ≤ w.duration ∧ w.duration ≤ 60000

theorem waypointsOf_bytes {batch : List Waypoint} (ranged : ∀ w ∈ batch, w.Ranged) :
    waypointsOf (batch.flatMap waypointBytes) = batch := by
  induction batch with
  | nil => rfl
  | cons w batch ih =>
    obtain ⟨low, high, -, long⟩ := ranged w List.mem_cons_self
    have bytes : waypointsOf ((w :: batch).flatMap waypointBytes)
        = waypointOf ((BitVec.ofInt 16 w.offset).extractLsb' 8 8) ((BitVec.ofInt 16 w.offset).extractLsb' 0 8)
            (byteOf (w.duration / 256)) (byteOf w.duration) (if w.last then 1 else 0)
          :: waypointsOf (batch.flatMap waypointBytes) := rfl
    rw [bytes, ih fun x mem => ranged x (List.mem_cons_of_mem _ mem), waypointOf, rdS16_bytes (by omega) (by omega),
      rd16_byteOf (by omega)]
    have flag : (if w.last then (1 : Byte) else 0).getLsbD 0 = w.last := by cases w.last <;> decide
    rw [flag]

theorem waypointBytes_length (batch : List Waypoint) : (batch.flatMap waypointBytes).length = 5 * batch.length := by
  induction batch with
  | nil => rfl
  | cons w batch ih =>
    rw [List.flatMap_cons, List.length_append, ih, List.length_cons]
    show 5 + _ = _
    omega

theorem firstBadWaypoint_legal {batch : List Waypoint} (legal : LegalBatch batch) : firstBadWaypoint batch = none := by
  obtain ⟨-, -, ends, ranged⟩ := legal
  rw [firstBadWaypoint, List.findIdx?_eq_none_iff]
  rintro ⟨w, i⟩ mem
  obtain ⟨-, short, here⟩ := List.mem_zipIdx mem
  rw [Nat.zero_add] at short
  simp only [Nat.sub_zero] at here
  obtain ⟨low, high, least, long⟩ := ranged w (by rw [here]; exact List.getElem_mem short)
  have ended : (w.last && !(i + 1 == batch.length)) = false := by
    by_cases final : i + 1 = batch.length
    · simp [final]
    · have inner : i < batch.dropLast.length := by
        rw [List.length_dropLast]
        omega
      have plain : w.last = false := ends w (by rw [here, ← List.getElem_dropLast inner]; exact List.getElem_mem inner)
      simp [plain]
  unfold waypointBad
  rw [ended]
  simp only [Bool.or_false, Bool.or_eq_false_iff, decide_eq_false_iff_not]
  omega

/-! ### The feed (R139, R140) -/

section Feed
variable {p : Part} {l : Link} {t : Trk} {batch : List Waypoint}

/-- R140: the track's record once a batch has joined its list. -/
def Track.fed (batch : List Waypoint) (x : Track) : Track :=
  { x with waypoints := x.waypoints ++ batch, state := if x.state = .empty then .loaded else x.state }

theorem Part.modTrack_modTrack (p : Part) (t : Trk) (f h : Track → Track) :
    (p.modTrack t f).modTrack t h = p.modTrack t fun x => h (f x) := by
  simp only [Part.modTrack, Part.setTrack_track_self]
  simp [Part.setTrack]

theorem Part.feed_idle (fed : (p.track t).state ≠ .starved) : p.feed t batch = p.modTrack t (Track.fed batch) := if_neg fed

theorem Part.feed_starved (starved : (p.track t).state = .starved) :
    p.feed t batch = (p.modTrack t fun x => { x.fed batch with starvationTimer := none }).startSegment t := by
  exact (if_pos starved).trans (congrArg (Part.startSegment · t) (Part.modTrack_modTrack p t (Track.fed batch) _))

theorem judgeFeedTrack_accepted {tier : Nat} (prepared : p.Prepared) (legal : LegalBatch batch) (owner : (p.track t).owner = some l)
    (open_ : ∀ w ∈ (p.track t).waypoints, w.last = false) (room : (p.track t).waypoints.length + batch.length ≤ 32) :
    judgeFeedTrack l tier ([byteOf t.val, byteOf batch.length] ++ batch.flatMap waypointBytes) p
      = .accepted [byteOf ((p.feed t batch).track t).waypoints.length] (p.feed t batch) := by
  obtain ⟨some_, few, -, ranged⟩ := id legal
  have size : (byteOf batch.length).toNat = batch.length := byteOf_toNat (by omega)
  have counted : ((byteOf batch.length).toNat < 1 || 8 < (byteOf batch.length).toNat) = false := by
    rw [size]
    simp only [Bool.or_eq_false_iff, decide_eq_false_iff_not]
    omega
  have ours : ((p.track t).owner != some l) = false := by simp [owner]
  have unended : (p.track t).waypoints.any (·.last) = false := by simpa using open_
  have fits : ¬Config.maxWaypoints < (p.track t).waypoints.length + batch.length := not_lt.mpr room
  rw [List.cons_append, List.cons_append, List.nil_append, judgeFeedTrack, withTrk_byteOf, counted, waypointsOf_bytes ranged,
    firstBadWaypoint_legal legal, Part.feedChecked, Part.standsDown_prepared prepared, ours, unended]
  simp [refuseIf, check, fits]

end Feed

/-- Settles O54: a batch joins the list, and where the track starves its head becomes the segment that the groups follow. -/
theorem feedTrackAppendsTheBatch : Obligations.FeedTrackAppendsTheBatch := by
  intro l tier t batch s ready low prepared legal owner open_ room
  have judged := judgeFeedTrack_accepted (p := s.part.frameTaken l) (l := l) (t := t) (tier := s.part.effectiveTier l tier)
    (by simpa [Part.Prepared] using prepared) legal (by simpa using owner) (by simpa using open_) (by simpa using room)
  have length : ([byteOf t.val, byteOf batch.length] ++ batch.flatMap waypointBytes).length = 2 + 5 * batch.length := by
    rw [List.length_append, waypointBytes_length]
    rfl
  have short : ([byteOf t.val, byteOf batch.length] ++ batch.flatMap waypointBytes).length ≤ 240 := by
    have few := legal.2.1
    omega
  have counted : countedLength 1 2 5 ([byteOf t.val, byteOf batch.length] ++ batch.flatMap waypointBytes) = true :=
    (countedLength_iff _ _ _ _).mpr ⟨byteOf batch.length, rfl, by rw [length, byteOf_toNat (by have := legal.2.1; omega)]⟩
  refine ⟨fun fed => ⟨_, rfl, ?_⟩, fun starved w rest list => ⟨_, rfl, ?_⟩⟩ <;> dsimp only
  · have idle := Part.feed_idle (p := s.part.frameTaken l) (batch := batch) (t := t) (by simpa using fed)
    have record : ((s.part.frameTaken l).feed t batch).track t = (s.part.track t).fed batch := by
      rw [idle, Part.modTrack_track_self, Part.frameTaken_track]
    have size : ((s.part.track t).fed batch).waypoints.length = (s.part.track t).waypoints.length + batch.length :=
      List.length_append
    rw [record, size] at judged
    rw [Part.judged_driven_accepts ready short counted low judged]
    refine ⟨Part.answers_of_kept (Kept.drive ?_) _ _, ?_, fun u other => ?_⟩
    · rw [idle]
      exact (Part.modTrack_kept _ _ _).mono (by simp)
    · rw [Part.answer_track, Part.drive_track, record]
      rfl
    · rw [Part.answer_track, Part.drive_track, idle, Part.modTrack_track_ne _ _ _ _ other, Part.frameTaken_track]
  · have follows := Part.feed_starved (p := s.part.frameTaken l) (batch := batch) (t := t) (by simpa using starved)
    have fedList : (((s.part.frameTaken l).modTrack t fun x => { x.fed batch with starvationTimer := none }).track t).waypoints
        = w :: rest := by
      rw [Part.modTrack_track_self, Part.frameTaken_track]
      exact list
    have record (u : Trk) := Part.startSegment_track fedList u
    rw [← follows] at record
    have own := record t
    rw [if_pos rfl, Part.modTrack_track_self, Part.frameTaken_track] at own
    have size : (((s.part.frameTaken l).feed t batch).track t).waypoints.length = rest.length := by rw [own]; rfl
    rw [size] at judged
    rw [Part.judged_driven_accepts ready short counted low judged]
    have kept := Part.startSegment_kept fedList
    have given := Part.startSegment_given fedList
    rw [← follows] at kept given
    refine ⟨Part.answers_of_kept (Kept.drive (((Part.modTrack_kept _ _ _).mono (by simp)).trans (kept.mono (by simp)))) _ _, ?_,
      fun u other => ?_, fun g out => ?_, ?_⟩
    · rw [Part.answer_track, Part.drive_track, own]
      rfl
    · rw [Part.answer_track, Part.drive_track, record, if_neg other, Part.modTrack_track_ne _ _ _ _ other, Part.frameTaken_track]
    · have same := given.1 g
      rw [Part.modTrack_track_self, Part.frameTaken_track, Part.modTrack_group, Part.frameTaken_group] at same
      rw [Part.answer_group, Part.drive_group]
      exact same fun reached => out reached.1
    · refine given.of_same (fun g => ?_) (fun c => ?_) ?_ ?_ (fun g => ?_) fun c => ?_
      · rw [Part.modTrack_group, Part.frameTaken_group]
      · rw [Part.modTrack_chan, Part.frameTaken_chan]
      · rw [Part.modTrack_track_self, Part.frameTaken_track]
        rfl
      · rw [Part.modTrack_track_self, Part.frameTaken_track]
        rfl
      · rw [Part.answer_group, Part.drive_group]
      · rw [Part.answer_chan, Part.drive_chan]

end Sys2Proof.Machine
end

section
set_option Elab.async false
/-! PROOFS. PLAY_TRACK (R142 to R144, R66). -/

namespace Sys2Proof.Machine

/-! ### Segment targets and demands -/

section Targets
variable {p q : Part} {t : Trk} {g : Grp} {w : Waypoint}

theorem Part.originsOf_eq (p : Part) (t : Trk) (g : Grp) : p.originsOf t g = p.originList t g := by
  unfold Part.originsOf Part.originList Part.positions
  cases (p.track t).origins[g] <;> rfl

/-- R141: the targets of a segment are read from the group, its lane channels and its origins. -/
theorem Part.Agrees.segmentTargets (h : p.Agrees q g) (origins : q.originList t g = p.originList t g) (w : Waypoint) :
    q.segmentTargets t g w = p.segmentTargets t g w := by
  unfold Part.segmentTargets
  rw [origins, h.1]

theorem Part.Agrees.originList (h : p.Agrees q g) (origins : (q.track t).origins = (p.track t).origins) :
    q.originList t g = p.originList t g := by
  obtain ⟨group, chans⟩ := h
  unfold Part.originList
  rw [origins, group]
  cases (p.track t).origins[g] with
  | some o => rfl
  | none => exact List.map_congr_left fun ln mem => by rw [chans ln mem]

/-- A started move has its demands from what the rule gives at its lanes and targets. -/
theorem Part.Started.demand {r : Part} {tier : Nat} {l : Link} {src : MoveSource} {v : Option Nat} {d e : Lane → Int → Nat}
    {targets : List Int} (h : p.Started r g tier l src v d targets)
    (same : ∀ lt ∈ (p.group g).lanes.zip targets, d lt.1 lt.2 = e lt.1 lt.2) : p.Started r g tier l src v e targets := by
  obtain ⟨record, chans⟩ := h
  have entries : ((p.group g).lanes.zip targets).map (fun lt => p.firedLane d lt.1 lt.2)
      = ((p.group g).lanes.zip targets).map fun lt => p.firedLane e lt.1 lt.2 :=
    List.map_congr_left fun lt mem => by simp only [Part.firedLane, same lt mem]
  refine ⟨by rw [record, entries], fun lt mem => ?_⟩
  rw [chans lt mem]
  simp only [Part.firedChannel, Part.firedLane, same lt mem]

/-- R66, R141: a track move that starts in a part that agrees on its group. -/
theorem Part.Agrees.trackMove {r : Part} {tier : Nat} {l : Link} (h : p.Agrees q g)
    (started : q.Started r g tier l (.track t) none (q.segmentSpeed w.duration) (p.segmentTargets t g w)) :
    p.Started r g tier l (.track t) none (p.segmentSpeed w.duration) (p.segmentTargets t g w) :=
  (h.started started).demand fun lt mem => by
    simp only [Part.segmentSpeed, h.2 lt.1 (List.of_mem_zip mem).1]

end Targets

/-! ### The origins (R143) -/

section Origins
variable {p : Part} {t : Trk}

theorem Part.takeOrigins_kept (p : Part) (t : Trk) (g : Grp) :
    Kept p (p.takeOrigins t g)
      [.ctl, .link .a, .link .b, .channels, .ports, .samples, .groups, .queues, .clock, .codes] := Part.modTrack_kept _ _ _

theorem Part.takeOrigins_track (p : Part) (t u : Trk) (g : Grp) :
    (p.takeOrigins t g).track u =
      if u = t then { p.track t with origins := (p.track t).origins.set g (some (p.originList t g)) } else p.track u := by
  unfold Part.takeOrigins
  rw [Part.originsOf_eq]
  split
  · next same => rw [same, Part.modTrack_track_self]
  · next other => exact Part.modTrack_track_ne _ _ _ _ other

/-- Taken origins are the ones that were read before. -/
theorem Part.takeOrigins_originList (p : Part) (t : Trk) (g h : Grp) : (p.takeOrigins t g).originList t h = p.originList t h := by
  have kept := p.takeOrigins_kept t g
  have group := (kept.mono (cs := [.groups]) (by simp)).group
  have chan := (kept.mono (cs := [.channels]) (by simp)).chan
  have own : ((p.takeOrigins t g).track t).origins[h] = if h = g then some (p.originList t g) else (p.track t).origins[h] := by
    rw [Part.takeOrigins_track, if_pos rfl]
    exact Vector.getElem_set_grp ..
  unfold Part.originList at own ⊢
  rw [own, group]
  simp only [chan]
  by_cases same : h = g
  · subst same
    rw [if_pos rfl]
  · rw [if_neg same]

/-- R143: what the taking of origins by a list of groups leaves. -/
structure Part.OriginsTaken (p q : Part) (t : Trk) (l : List Grp) : Prop where
  kept : Kept p q [.ctl, .link .a, .link .b, .channels, .ports, .samples, .groups, .queues, .clock, .codes]
  own : q.track t = { p.track t with origins := (q.track t).origins }
  others : ∀ u, u ≠ t → q.track u = p.track u
  lists : ∀ h, q.originList t h = p.originList t h
  taken : ∀ h, (q.track t).origins[h] = if h ∈ l then some (p.originList t h) else (p.track t).origins[h]

theorem Part.takeOrigins_loop (l : List Grp) (p : Part) : p.OriginsTaken (p.forEach l fun p g => p.takeOrigins t g) t l := by
  induction l generalizing p with
  | nil => exact ⟨.refl _ _, rfl, fun _ _ => rfl, fun _ => rfl, fun _ => rfl⟩
  | cons g l ih =>
    obtain ⟨kept, own, others, lists, taken⟩ := ih (p.takeOrigins t g)
    have here := p.takeOrigins_track t t g
    rw [if_pos rfl] at here
    rw [Part.forEach_cons]
    refine ⟨(p.takeOrigins_kept t g).trans kept, own.trans (by rw [here]), fun u other => ?_, fun h => ?_, fun h => ?_⟩
    · rw [others u other, Part.takeOrigins_track, if_neg other]
    · rw [lists, Part.takeOrigins_originList]
    · rw [taken, Part.takeOrigins_originList]
      by_cases later : h ∈ l
      · rw [if_pos later, if_pos (List.mem_cons_of_mem _ later)]
      · rw [if_neg later, here]
        refine (Vector.getElem_set_grp ..).trans ?_
        by_cases same : h = g
        · rw [if_pos same, same, if_pos List.mem_cons_self]
        · rw [if_neg same, if_neg (by rw [List.mem_cons, not_or]; exact ⟨same, later⟩)]

end Origins

/-- R47, R137: groups that name each channel in one lane alone share none. -/
theorem lanes_apart {p : Part} {l : List Grp} (distinct : ((l.flatMap fun g => (p.group g).lanes).map (·.channel)).Nodup)
    {g i : Grp} (mem : g ∈ l) (mem' : i ∈ l) (other : i ≠ g) :
    ∀ ln ∈ (p.group i).lanes, ∀ k ∈ (p.group g).lanes, ln.channel ≠ k.channel := by
  rw [List.map_flatMap, List.nodup_flatMap] at distinct
  have symmetric : Std.Symm (Function.onFun List.Disjoint fun g => (p.group g).lanes.map (·.channel)) := ⟨fun _ _ d => d.symm⟩
  have apart := distinct.2.forall mem' mem other
  exact fun ln here k there same => apart (List.mem_map_of_mem here) (by rw [same]; exact List.mem_map_of_mem there)

theorem lanes_nodup {p : Part} {l : List Grp} (distinct : ((l.flatMap fun g => (p.group g).lanes).map (·.channel)).Nodup)
    {g : Grp} (mem : g ∈ l) : ((p.group g).lanes.map (·.channel)).Nodup := by
  rw [List.map_flatMap, List.nodup_flatMap] at distinct
  exact distinct.1 g mem

/-! ### The start of a play (R143) -/

section Play
variable {p : Part} {l : Link} {tier : Nat} {t : Trk} {w : Waypoint} {rest : List Waypoint}

theorem Track.beginPlay_eq {x : Track} (list : x.waypoints = w :: rest) :
    x.beginPlay tier = { x.segment w rest with playing := x.bound, tier := some tier } :=
  Track.takeHead_eq (x := { x with tier := some tier, playing := x.bound, arrived := [] }) list

/-- R143: the part once the origins are taken and the play has begun, before the groups fire. -/
def Part.begun (p : Part) (tier : Nat) (t : Trk) : Part :=
  (p.forEach (p.track t).bound fun p g => p.takeOrigins t g).modTrack t (Track.beginPlay tier)

theorem Part.play_eq : p.play l tier t w = (p.begun tier t).forEach (p.track t).bound fun p g =>
    p.startMove g tier l (.track t) none (p.segmentPlan t g w) := rfl

theorem Part.begun_kept : Kept p (p.begun tier t)
    [.ctl, .link .a, .link .b, .channels, .ports, .samples, .groups, .queues, .clock, .codes] :=
  (Part.takeOrigins_loop _ p).kept.trans (Part.modTrack_kept _ _ _)

theorem Part.begun_agrees (g : Grp) : p.Agrees (p.begun tier t) g :=
  ⟨(Part.begun_kept.mono (cs := [.groups]) (by simp)).group g, fun _ _ => (Part.begun_kept.mono (cs := [.channels]) (by simp)).chan _⟩

theorem Part.begun_track (list : (p.track t).waypoints = w :: rest) :
    (p.begun tier t).track t = { (p.track t).segment w rest with
      playing := (p.track t).bound, tier := some tier, origins := ((p.begun tier t).track t).origins } := by
  obtain ⟨-, own, -⟩ := Part.takeOrigins_loop (t := t) (p.track t).bound p
  have list' : ((p.forEach (p.track t).bound fun p g => p.takeOrigins t g).track t).waypoints = w :: rest := by rw [own, list]
  have begun : (p.begun tier t).track t
      = ((p.forEach (p.track t).bound fun p g => p.takeOrigins t g).track t).beginPlay tier := Part.modTrack_track_self ..
  rw [begun]
  generalize (p.forEach (p.track t).bound fun p g => p.takeOrigins t g).track t = y at own list'
  rw [Track.beginPlay_eq list', own]
  rfl

theorem Part.begun_others (u : Trk) (other : u ≠ t) : (p.begun tier t).track u = p.track u :=
  (Part.modTrack_track_ne _ _ _ _ other).trans ((Part.takeOrigins_loop _ p).others u other)

theorem Part.begun_origins (list : (p.track t).waypoints = w :: rest) {g : Grp} (bound : g ∈ (p.track t).bound) :
    ((p.begun tier t).track t).origins[g] = some (p.originList t g) := by
  obtain ⟨-, own, -, -, taken⟩ := Part.takeOrigins_loop (t := t) (p.track t).bound p
  have list' : ((p.forEach (p.track t).bound fun p g => p.takeOrigins t g).track t).waypoints = w :: rest := by rw [own, list]
  have begun : (p.begun tier t).track t
      = ((p.forEach (p.track t).bound fun p g => p.takeOrigins t g).track t).beginPlay tier := Part.modTrack_track_self ..
  have here := taken g
  rw [if_pos bound] at here
  rw [begun, Track.beginPlay_eq list']
  exact here

theorem Part.begun_originList (list : (p.track t).waypoints = w :: rest) {g : Grp} (bound : g ∈ (p.track t).bound) :
    (p.begun tier t).originList t g = p.originList t g := by
  conv_lhs => unfold Part.originList
  rw [Part.begun_origins list bound]

theorem Part.play_besides : Part.Besides (p.track t).bound (p.begun tier t) (p.play l tier t w) :=
  .forEach (fun _ _ => .startMove _ _ _ _ _ _ _) _ _

theorem Part.play_kept :
    Kept (p.begun tier t) (p.play l tier t w)
      [.ctl, .link .a, .link .b, .ports, .samples, .queues, .clock, .tracks, .codes] :=
  Part.forEach_inv (P := fun q => Kept _ q _) (.refl _ _) fun _ _ _ kept => kept.trans (Part.startMove_kept _ _ _ _ _ _ _)

/-- R143, R66: each bound group fires its track move toward its segment targets. -/
theorem Part.play_started (up : p.ctl.mode ≠ .parked) (list : (p.track t).waypoints = w :: rest) (nodup : (p.track t).bound.Nodup)
    (distinct : (((p.track t).bound.flatMap fun g => (p.group g).lanes).map (·.channel)).Nodup) {g : Grp}
    (bound : g ∈ (p.track t).bound) :
    p.Started (p.play l tier t w) g tier l (.track t) none (p.segmentSpeed w.duration) (p.segmentTargets t g w) := by
  obtain ⟨a, b, q, order, outa, outb, -, before, after⟩ := Part.Besides.splits
    (f := fun q h => q.startMove h tier l (.track t) none (q.segmentPlan t h w))
    (fun _ _ => .startMove _ _ _ _ _ _ _) nodup bound (p.begun tier t)
  have began (h : Grp) := p.begun_agrees (tier := tier) (t := t) h
  have ctl : (p.begun tier t).ctl = p.ctl := Part.begun_kept .ctl (by simp)
  have near (i : Grp) (mem : i ∈ a ∨ i ∈ b) : ∀ ln ∈ (p.group i).lanes, ∀ k ∈ (p.group g).lanes, ln.channel ≠ k.channel := by
    refine lanes_apart distinct bound ?_ fun same => ?_
    · rw [order, List.mem_append, List.mem_cons]
      tauto
    · rw [same] at mem
      exact mem.elim outa outb
  have awake : (p.begun tier t).ctl.mode ≠ .parked := by rw [ctl]; exact up
  have agrees : (p.begun tier t).Agrees q g := before.agrees outa awake fun i mem => by
    rw [(began i).1, (began g).1]
    exact near i (.inl mem)
  have beside := Part.Beside.startMove q g tier l (.track t) none (q.segmentPlan t g w)
  have later : (q.startMove g tier l (.track t) none (q.segmentPlan t g w)).Agrees (p.play l tier t w) g :=
    after.agrees outb (beside.awake (before.awake awake)) fun i mem => by
      rw [beside.groups i fun same => outb (same ▸ mem), before.lanes i, (began i).1, beside.lanes, before.lanes g, (began g).1]
      exact near i (.inr mem)
  have tracks : (q.track t).origins = ((p.begun tier t).track t).origins := by
    rw [(before.kept.mono (cs := [.tracks]) (by simp)).track]
  have lists : q.originList t g = p.originList t g := (agrees.originList tracks).trans (Part.begun_originList list bound)
  have targets : q.segmentTargets t g w = p.segmentTargets t g w := by
    have same : q.group g = p.group g := agrees.1.trans (began g).1
    unfold Part.segmentTargets
    rw [lists, same]
  have started := q.startMove_started (g := g) (by rw [agrees.1, (began g).1]; exact lanes_nodup distinct bound) tier l (.track t)
    none (q.segmentSpeed w.duration) (q.segmentTargets t g w)
  rw [← Part.segmentPlan_planOf, targets] at started
  have whole : p.Agrees q g := ⟨agrees.1.trans (began g).1, fun ln mem =>
    (agrees.2 ln (by rw [(began g).1]; exact mem)).trans ((began g).2 ln mem)⟩
  exact (whole.trackMove started).later later

end Play

end Sys2Proof.Machine
end

section
set_option Elab.async false
/-! PROOFS. The admission of a PLAY_TRACK, and its obligation (R142, R143). -/

namespace Sys2Proof.Machine

/-! ### The first lane of the bound groups -/

section First
variable {p : Part} {t : Trk} {w : Waypoint}

theorem Part.firstBound_eq_none_iff {test : Channel → Bool} :
    p.firstBound t test = none ↔ ∀ ln ∈ p.trackLanes t, test (p.chan ln.channel) = false := by
  rw [Part.firstBound, Option.map_eq_none_iff, List.find?_eq_none]
  simp only [Bool.not_eq_true]
  exact Iff.rfl

theorem find?_getElem {α : Type} {l : List α} {test : α → Bool} {n : Nat} {x : α} (found : l[n]? = some x) (meets : test x = true)
    (before : ∀ k u, k < n → l[k]? = some u → test u = false) : l.find? test = some x := by
  obtain ⟨short, rfl⟩ := List.getElem?_eq_some_iff.mp found
  refine List.find?_eq_some_iff_getElem.mpr ⟨meets, n, short, rfl, fun j less => ?_⟩
  rw [before j _ less (List.getElem?_eq_getElem (less.trans short))]
  rfl

theorem Part.firstBound_of_first {test : Channel → Bool} {bad : Channel → Prop} {n : Nat} {ln : Lane}
    (found : (p.trackLanes t)[n]? = some ln) (first : p.FirstIn (p.trackLanes t) n bad) (same : ∀ x, test x = true ↔ bad x) :
    p.firstBound t test = some (byteOf ln.channel.val) := by
  obtain ⟨⟨ln', found', meets⟩, before⟩ := first
  cases found.symm.trans found'
  have index : (p.trackLanes t).find? (fun ln => test (p.chan ln.channel)) = some ln :=
    find?_getElem found ((same _).mpr meets) fun k u less here => by
      rw [← Bool.not_eq_true, same]
      exact before k u less here
  exact congrArg (Option.map fun ln : Lane => byteOf ln.channel.val) index

/-- R142: the first lane whose segment target is out of bounds. -/
theorem Part.firstBoundOut_eq : p.firstBoundOut t w =
    (((p.track t).bound.flatMap fun g => (p.group g).lanes.zip (p.segmentTargets t g w)).find? fun lt =>
      outOfBounds (p.chan lt.1.channel) lt.2).map fun lt => byteOf lt.1.channel.val := by
  have pairs : ((p.track t).bound.flatMap fun g => (p.group g).lanes.zip (p.segmentPlan t g w))
      = ((p.track t).bound.flatMap fun g => (p.group g).lanes.zip (p.segmentTargets t g w)).map fun lt =>
        (lt.1, lt.2, (p.chan lt.1.channel).capDemand (p.segmentSpeed w.duration lt.1 lt.2)) := by
    rw [List.map_flatMap]
    refine List.flatMap_congr fun g _ => ?_
    rw [Part.segmentPlan_planOf, Part.planOf, zip_map_zip]
  rw [Part.firstBoundOut, pairs, List.find?_map, Option.map_map]
  rfl

end First

/-! ### The admission (R142) -/

section Admission
variable {p : Part} {l : Link} {tier : Nat} {t : Trk} {w : Waypoint} {rest : List Waypoint} {code : Result} {index : Byte}

theorem judgePlayTrack_eq : judgePlayTrack l tier [byteOf t.val] p = p.playChecked l tier t := by
  rw [judgePlayTrack, withTrk_byteOf]

theorem Part.play_unarmed (unarmed : p.ctl.mode ≠ .armed) : p.playChecked l tier t = .refused .mode noIndex := by
  have barred : (p.ctl.mode != .armed) = true := by simpa using unarmed
  unfold Part.playChecked
  rw [barred]
  rfl

theorem Part.play_guarded (armed : p.ctl.mode = .armed) (first : p.firstBound t (aboveGuard tier) = some index) :
    p.playChecked l tier t = .refused .tier index := by
  unfold Part.playChecked
  rw [armed, first]
  rfl

theorem Part.lanes_let (lets : ∀ ln ∈ p.trackLanes t, (p.chan ln.channel).Lets tier) : p.firstBound t (aboveGuard tier) = none :=
  Part.firstBound_eq_none_iff.mpr fun ln mem => by simpa [aboveGuard] using lets ln mem

theorem Part.lanes_owned (owned : ∀ ln ∈ p.trackLanes t, (p.chan ln.channel).owner = some l) :
    p.firstBound t (notOwnedBy l) = none :=
  Part.firstBound_eq_none_iff.mpr fun ln mem => by simp [notOwnedBy, owned ln mem]

theorem Part.lanes_referenced (referenced : ∀ ln ∈ p.trackLanes t, (p.chan ln.channel).referenced = true) :
    p.firstBound t unreferenced = none :=
  Part.firstBound_eq_none_iff.mpr fun ln mem => by simp [unreferenced, referenced ln mem]

theorem Part.play_foreign (armed : p.ctl.mode = .armed) (lets : ∀ ln ∈ p.trackLanes t, (p.chan ln.channel).Lets tier)
    (foreign : (p.track t).owner ≠ some l) : p.playChecked l tier t = .refused .claim noIndex := by
  have barred : ((p.track t).owner != some l) = true := by simpa using foreign
  unfold Part.playChecked
  rw [armed, Part.lanes_let lets, barred]
  rfl

theorem Part.play_unclaimed (armed : p.ctl.mode = .armed) (lets : ∀ ln ∈ p.trackLanes t, (p.chan ln.channel).Lets tier)
    (owner : (p.track t).owner = some l) (first : p.firstBound t (notOwnedBy l) = some index) :
    p.playChecked l tier t = .refused .claim index := by
  have ours : ((p.track t).owner != some l) = false := by simp [owner]
  unfold Part.playChecked
  rw [armed, Part.lanes_let lets, ours, first]
  rfl

theorem Part.play_unreferenced (armed : p.ctl.mode = .armed) (lets : ∀ ln ∈ p.trackLanes t, (p.chan ln.channel).Lets tier)
    (owner : (p.track t).owner = some l) (owned : ∀ ln ∈ p.trackLanes t, (p.chan ln.channel).owner = some l)
    (first : p.firstBound t unreferenced = some index) : p.playChecked l tier t = .refused .unreferenced index := by
  have ours : ((p.track t).owner != some l) = false := by simp [owner]
  unfold Part.playChecked
  rw [armed, Part.lanes_let lets, ours, Part.lanes_owned owned, first]
  rfl

/-- R142: the conditions of a PLAY_TRACK up to UNREFERENCED. -/
structure Part.PlayAllowed (p : Part) (l : Link) (tier : Nat) (t : Trk) : Prop where
  armed : p.ctl.mode = .armed
  lets : ∀ ln ∈ p.trackLanes t, (p.chan ln.channel).Lets tier
  owner : (p.track t).owner = some l
  owned : ∀ ln ∈ p.trackLanes t, (p.chan ln.channel).owner = some l
  referenced : ∀ ln ∈ p.trackLanes t, (p.chan ln.channel).referenced = true

theorem Part.play_bare (allowed : p.PlayAllowed l tier t) (bare : (p.track t).waypoints = []) :
    p.playChecked l tier t = .refused .state noIndex := by
  obtain ⟨armed, lets, owner, owned, referenced⟩ := allowed
  have ours : ((p.track t).owner != some l) = false := by simp [owner]
  unfold Part.playChecked
  rw [armed, Part.lanes_let lets, ours, Part.lanes_owned owned, Part.lanes_referenced referenced, bare]
  cases (p.track t).inPlay <;> rfl

theorem Part.play_listed (allowed : p.PlayAllowed l tier t) (list : (p.track t).waypoints = w :: rest) :
    p.playChecked l tier t = refuseIf (p.track t).inPlay .state noIndex
      (refuseIf ((p.track t).bound.any fun g => (p.group g).state != .idle) .state noIndex
        (check .state (p.firstBound t unreservable) (check .limit (p.firstBoundOut t w)
          (.accepted [] (p.play l tier t w))))) := by
  obtain ⟨armed, lets, owner, owned, referenced⟩ := allowed
  have ours : ((p.track t).owner != some l) = false := by simp [owner]
  unfold Part.playChecked
  rw [armed, Part.lanes_let lets, ours, Part.lanes_owned owned, Part.lanes_referenced referenced, list]
  rfl

theorem Track.inPlay_iff (x : Track) : x.inPlay = true ↔ x.state = .playing ∨ x.state = .starved := by simp [Track.inPlay]

/-- R142: STATE, for a play under way and for a group that is not IDLE. -/
theorem Part.play_barred (allowed : p.PlayAllowed l tier t)
    (barred : (p.track t).state = .playing ∨ (p.track t).state = .starved ∨ ∃ g ∈ (p.track t).bound, (p.group g).state ≠ .idle) :
    p.playChecked l tier t = .refused .state noIndex := by
  cases list : (p.track t).waypoints with
  | nil => exact Part.play_bare allowed list
  | cons w rest =>
    rw [Part.play_listed allowed list]
    by_cases under : (p.track t).state = .playing ∨ (p.track t).state = .starved
    · rw [(Track.inPlay_iff _).mpr under]
      rfl
    · have busy : ((p.track t).bound.any fun g => (p.group g).state != .idle) = true := by
        rw [List.any_eq_true]
        obtain ⟨g, bound, state⟩ := (or_assoc.mpr barred).resolve_left under
        exact ⟨g, bound, by simpa using state⟩
      rw [busy]
      cases (p.track t).inPlay <;> rfl

/-- R142: a track at rest with IDLE groups. -/
theorem Part.play_ready (allowed : p.PlayAllowed l tier t) (list : (p.track t).waypoints = w :: rest)
    (rests : (p.track t).state ≠ .playing ∧ (p.track t).state ≠ .starved)
    (idle : ∀ g ∈ (p.track t).bound, (p.group g).state = .idle) :
    p.playChecked l tier t = check .state (p.firstBound t unreservable) (check .limit (p.firstBoundOut t w)
      (.accepted [] (p.play l tier t w))) := by
  have still : (p.track t).inPlay = false := by
    rw [← Bool.not_eq_true, Track.inPlay_iff, not_or]
    exact rests
  have free : ((p.track t).bound.any fun g => (p.group g).state != .idle) = false := by simpa using idle
  rw [Part.play_listed allowed list, still, free]
  rfl

theorem Part.lanes_free
    (free : ∀ ln ∈ p.trackLanes t, (p.chan ln.channel).state = .idle ∧ (p.chan ln.channel).mover = .none) :
    p.firstBound t unreservable = none :=
  Part.firstBound_eq_none_iff.mpr fun ln mem => by simp [unreservable, free ln mem]

end Admission

/-! ### A taken frame changes nothing that a play reads -/

section Taken
variable {p : Part} {m : Link} {t : Trk}

@[simp] theorem Part.frameTaken_trackLanes : (p.frameTaken m).trackLanes t = p.trackLanes t := by cases m <;> rfl

@[simp] theorem Part.frameTaken_originList (g : Grp) : (p.frameTaken m).originList t g = p.originList t g := by cases m <;> rfl

@[simp] theorem Part.frameTaken_segmentTargets (g : Grp) (w : Waypoint) :
    (p.frameTaken m).segmentTargets t g w = p.segmentTargets t g w := by cases m <;> rfl

theorem Part.PlayAllowed.taken {l : Link} {tier : Nat} (h : p.PlayAllowed l tier t) : (p.frameTaken m).PlayAllowed l tier t := by
  obtain ⟨armed, lets, owner, owned, referenced⟩ := h
  exact ⟨by simpa using armed, by simpa using lets, by simpa using owner, by simpa using owned, by simpa using referenced⟩

end Taken

theorem playStartsTheBoundGroups : Claims.PlayTrackStartsTheBoundGroups := by
  intro l tier t w rest s ready low armed owner loaded list nodup distinct groups
  have every {good : Lane → Prop} (each : ∀ g ∈ (s.part.track t).bound, ∀ ln ∈ (s.part.group g).lanes, good ln) :
      ∀ ln ∈ s.part.trackLanes t, good ln := fun ln mem => by
    obtain ⟨g, bound, lane⟩ := List.mem_flatMap.mp mem
    exact each g bound ln lane
  have allowed : s.part.PlayAllowed l (s.part.effectiveTier l tier) t :=
    ⟨armed, every fun g bound ln lane => ((groups g bound).2.1 ln lane).1, owner,
      every fun g bound ln lane => ((groups g bound).2.1 ln lane).2.1,
      every fun g bound ln lane => ((groups g bound).2.1 ln lane).2.2⟩
  have within : (s.part.frameTaken l).firstBoundOut t w = none := by
    rw [Part.firstBoundOut_eq, Option.map_eq_none_iff, List.find?_eq_none]
    intro lt mem
    rw [Part.frameTaken_track] at mem
    obtain ⟨g, bound, pair⟩ := List.mem_flatMap.mp mem
    rw [Part.frameTaken_group, Part.frameTaken_segmentTargets] at pair
    obtain ⟨above, below, lower, upper⟩ := (groups g bound).2.2.2.2 lt pair
    rw [outOfBounds_iff, Part.frameTaken_chan]
    unfold Channel.Bars
    omega
  have judged : judgePlayTrack l (s.part.effectiveTier l tier) [byteOf t.val] (s.part.frameTaken l)
      = .accepted [] ((s.part.frameTaken l).play l (s.part.effectiveTier l tier) t w) := by
    rw [judgePlayTrack_eq, Part.play_ready allowed.taken (w := w) (rest := rest) (by simpa using list) (by simp [loaded])
      (fun g bound => by simpa using (groups g (by simpa using bound)).1), within,
      Part.lanes_free (by simpa using every fun g bound => (groups g bound).2.2.2.1)]
    rfl
  refine ⟨_, rfl, ?_⟩
  dsimp only
  rw [Part.judged_driven_accepts ready (by simp) rfl low judged]
  have list' : ((s.part.frameTaken l).track t).waypoints = w :: rest := by rw [Part.frameTaken_track, list]
  have kept := Part.play_kept (p := s.part.frameTaken l) (l := l) (tier := s.part.effectiveTier l tier) (t := t) (w := w)
  have tracks := (kept.mono (cs := [.tracks]) (by simp)).track
  have besides := Part.play_besides (p := s.part.frameTaken l) (l := l) (tier := s.part.effectiveTier l tier) (t := t) (w := w)
  have began (g : Grp) := (s.part.frameTaken l).begun_agrees (tier := s.part.effectiveTier l tier) (t := t) g
  have up : (s.part.frameTaken l).ctl.mode ≠ .parked := by
    rw [Part.frameTaken_ctl]
    exact fun parked => by rw [armed] at parked; cases parked
  have record := Part.begun_track (p := s.part.frameTaken l) (tier := s.part.effectiveTier l tier) list'
  refine ⟨Part.answers_of_kept (Kept.drive ((Part.begun_kept.mono (by simp)).trans (kept.mono (by simp)))) _ _, ?_,
    fun u other => ?_, fun g bound => ⟨?_, ?_⟩, fun g out => ?_, fun c out => ?_⟩
  · rw [Part.answer_track, Part.drive_track, tracks]
    rwa [Part.frameTaken_track] at record
  · rw [Part.answer_track, Part.drive_track, tracks, Part.begun_others u other, Part.frameTaken_track]
  · rw [Part.answer_track, Part.drive_track, tracks, Part.begun_origins list' (by simpa using bound), Part.frameTaken_originList]
  · have started := Part.play_started (p := s.part.frameTaken l) (l := l) (tier := s.part.effectiveTier l tier) (t := t) up list'
      (by simpa using nodup) (by simpa using distinct) (g := g) (by simpa using bound)
    rw [Part.frameTaken_segmentTargets] at started
    have taken : s.part.Agrees (s.part.frameTaken l) g := ⟨Part.frameTaken_group .., fun _ _ => Part.frameTaken_chan ..⟩
    exact (taken.trackMove started).answer l _ _
  · rw [Part.answer_group, Part.drive_group, besides.groups g (by simpa using out), (began g).1, Part.frameTaken_group]
  · have chans := (Part.begun_kept (p := s.part.frameTaken l) (tier := s.part.effectiveTier l tier) (t := t)).mono
      (cs := [.ctl, .channels]) (by simp)
    rw [Part.answer_chan, Part.drive_chan, besides.chans (by rw [show Part.ctl (Part.begun _ _ _) = _ from chans .ctl (by simp)]; exact up) c
      fun h bound ln lane => out h (by simpa using bound) ln (by rwa [(began h).1, Part.frameTaken_group] at lane),
      (chans.mono (cs := [.channels]) (by simp)).chan, Part.frameTaken_chan]

theorem playTrackRefusals : Claims.PlayTrackRefusals := by
  intro l tier b t s ready low p lanes refused refusedAt
  have refuses {code : Result} {index : Byte}
      (checked : (p.frameTaken l).playChecked l (p.effectiveTier l tier) t = .refused code index) : refused code index :=
    ⟨_, rfl, Part.judged_driven_refuses ready (by simp) rfl low (judgePlayTrack_eq.trans checked)⟩
  have firstAt {n : Nat} {ln : Lane} {bad : Channel → Prop} {test : Channel → Bool} (found : lanes[n]? = some ln)
      (first : p.FirstIn lanes n bad) (same : ∀ x, test x = true ↔ bad x) :
      (p.frameTaken l).firstBound t test = some (byteOf ln.channel.val) :=
    Part.firstBound_of_first (n := n) (bad := bad) (by rw [Part.frameTaken_trackLanes]; exact found)
      (by rw [Part.frameTaken_trackLanes]; simpa [Part.FirstIn] using first) same
  refine ⟨fun above => ⟨_, rfl, Part.judged_driven_refuses ready (by simp) rfl low (withTrk_above above _)⟩,
    fun unarmed => refuses (Part.play_unarmed (by simpa using unarmed)), fun armed => ?_⟩
  have armed' : (p.frameTaken l).ctl.mode = .armed := by simpa using armed
  refine ⟨fun n ln found first => refuses (Part.play_guarded armed' (firstAt found first fun x => by simp [aboveGuard])),
    fun lets => ?_⟩
  have lets' : ∀ ln ∈ (p.frameTaken l).trackLanes t, ((p.frameTaken l).chan ln.channel).Lets (p.effectiveTier l tier) := by
    simpa using lets
  refine ⟨fun foreign => refuses (Part.play_foreign armed' lets' (by simpa using foreign)), fun owner => ?_⟩
  have owner' : ((p.frameTaken l).track t).owner = some l := by simpa using owner
  refine ⟨fun n ln found first => refuses (Part.play_unclaimed armed' lets' owner' (firstAt found first fun x => by
    simp [notOwnedBy])), fun owned => ?_⟩
  have owned' : ∀ ln ∈ (p.frameTaken l).trackLanes t, ((p.frameTaken l).chan ln.channel).owner = some l := by simpa using owned
  refine ⟨fun n ln found first => refuses (Part.play_unreferenced armed' lets' owner' owned' (firstAt found first fun x => by
    simp [unreferenced])), fun referenced => ?_⟩
  have allowed : (p.frameTaken l).PlayAllowed l (p.effectiveTier l tier) t :=
    Part.PlayAllowed.taken ⟨armed, lets, owner, owned, referenced⟩
  refine ⟨fun under => refuses (Part.play_barred allowed ?_), fun bare => refuses (Part.play_bare allowed (by simpa using bare)),
    fun busy => refuses (Part.play_barred allowed (.inr (.inr (by simpa using busy)))), fun w rest list unplayed fed idle => ?_⟩
  · rw [Part.frameTaken_track]
    exact under.imp_right .inl
  have checked := Part.play_ready allowed (w := w) (rest := rest) (by simpa using list) (by simpa using ⟨unplayed, fed⟩)
    (by simpa using idle)
  refine ⟨fun n ln found first => refuses ?_, fun free => ?_⟩
  · rw [checked, firstAt found first fun x => by simp [unreservable]]
    rfl
  · intro aims n lt found out before
    refine refuses ?_
    have index : aims.find? (fun lt => outOfBounds (p.chan lt.1.channel) lt.2) = some lt :=
      find?_getElem found ((outOfBounds_iff _ _).mpr out) fun k u less here => by
        rw [← Bool.not_eq_true, outOfBounds_iff]
        exact before k u less here
    rw [checked, Part.lanes_free (by simpa using free), Part.firstBoundOut_eq]
    simp only [Part.frameTaken_track, Part.frameTaken_group, Part.frameTaken_segmentTargets, Part.frameTaken_chan]
    rw [show ((s.part.track t).bound.flatMap _).find? _ = some lt from index]
    rfl

/-- Settles O55: the checks of R142 come in their order, and the groups that then fire share no channel. -/
theorem playTrackStartsTheBoundGroups : Obligations.PlayTrackStartsTheBoundGroups := ⟨playStartsTheBoundGroups, playTrackRefusals⟩

end Sys2Proof.Machine
end

section
set_option Elab.async false
/-! PROOFS. How a group's move ends, whatever its kind, and what the end of several groups leaves (R81 to R84). -/

namespace Sys2Proof.Machine

/-! ### One group -/

section One
variable {p : Part} {g : Grp} {reason : StopReason}

theorem Part.enterStopping_kept (p : Part) (g : Grp) (reason : StopReason) :
    Kept p (p.enterStopping g reason) [.ctl, .link .a, .link .b, .ports, .samples, .queues, .clock, .tracks, .codes] :=
  Part.forEach_inv (P := fun q => Kept p q _) ((Part.modGroup_kept _ _ _).mono (by simp)) fun _ _ _ kept =>
    kept.trans ((Part.modChan_kept _ _ _).mono (by simp))

theorem Part.enterStopping_lanes (p : Part) (g : Grp) (reason : StopReason) :
    ((p.enterStopping g reason).group g).lanes = (p.group g).lanes := by rw [Part.enterStopping_group, if_pos rfl]

namespace Part.Beside

theorem enterStopping (p : Part) (g : Grp) (reason : StopReason) : Part.Beside g p (p.enterStopping g reason) :=
  have kept := p.enterStopping_kept g reason
  .of_kept (kept.mono (by simp)) (fun h other => by rw [Part.enterStopping_group, if_neg other]) (p.enterStopping_lanes g reason)
    (fun c out => p.enterStopping_chan_out g reason c out) fun h _ => (kept.mono (cs := [.queues]) (by simp)).queue h

theorem exitCore (p : Part) (g : Grp) : Part.Beside g p (p.exitCore g) := by
  have cleared := clearLanes p g
  unfold Part.exitCore
  split
  · exact refl g p
  · dsimp only
    split
    · have faulted := cleared.trans (modGroup (p.clearLanes g) g (f := fun x => { x with state := .faulted }) rfl)
      split
      · exact faulted.trans (raise _ g _)
      · exact faulted
    · exact (cleared.trans (modGroup _ g (f := fun x => { x with state := .idle, move := none }) rfl)).trans (raise _ g _)
    · exact cleared.trans (modGroup _ g rfl)
    · exact (cleared.trans (modGroup _ g (f := fun x => { x with state := .held, held := true }) rfl)).trans (raise _ g _)

end Part.Beside

/-- R81, R82, R84: the end of a group's move for a reason, where the group is PREPARING or RUNNING: STOPPING, and out of it in the same
taking where it is at rest. -/
def Part.endOf (p : Part) (g : Grp) (reason : StopReason) : Part :=
  if (p.group g).active then
    if (p.enterStopping g reason).atRest g then (p.enterStopping g reason).exitCore g else p.enterStopping g reason
  else p

theorem Part.completionOrder_endOf (p : Part) (g : Grp) : p.completionOrder g = p.endOf g .complete := p.completionOrder_eq g

theorem Part.endOf_inactive (idle : (p.group g).active = false) : p.endOf g reason = p := if_neg (by simp [idle])

theorem Part.Beside.endOf (p : Part) (g : Grp) (reason : StopReason) : Part.Beside g p (p.endOf g reason) := by
  unfold Part.endOf
  split
  · split
    · exact (enterStopping p g reason).trans (exitCore _ g)
    · exact enterStopping p g reason
  · exact refl g p

/-- R82: a group that leaves STOPPING is not under way. -/
theorem Part.exitCore_active (stopping : (p.group g).state = .stopping) : ((p.exitCore g).group g).active = false := by
  have raised (q : Part) (e : Event) : (q.raise (.group g) e).group g = q.group g :=
    ((q.raise_kept (.group g) e).mono (cs := [.groups]) (by simp)).group g
  unfold Part.exitCore
  split
  · simp [Group.active, stopping]
  · dsimp only
    split
    · split
      · rw [raised, Part.modGroup_group_self]
        rfl
      · rw [Part.modGroup_group_self]
        rfl
    · rw [raised, Part.modGroup_group_self]
      rfl
    · rw [Part.modGroup_group_self]
      rfl
    · rw [raised, Part.modGroup_group_self]
      rfl

theorem Part.enterStopping_active (p : Part) (g : Grp) (reason : StopReason) :
    ((p.enterStopping g reason).group g).active = false := by
  rw [Part.enterStopping_group, if_pos rfl]
  rfl

/-- R81, R82: a group whose move has been ended is no longer PREPARING or RUNNING. -/
theorem Part.endOf_active (p : Part) (g : Grp) (reason : StopReason) : ((p.endOf g reason).group g).active = false := by
  unfold Part.endOf
  split
  · split
    · exact Part.exitCore_active (p.enterStopping_state g reason)
    · exact p.enterStopping_active g reason
  · next idle => simpa using idle

/-! ### What an end makes of a channel, whichever groups share it -/

/-- What no end of a move brings about in a channel: it neither runs again nor comes to rest on its way. -/
structure Channel.Slows (x y : Channel) : Prop where
  live : x.live = false → y.live = false
  moving : x.state ≠ .holding ∧ x.state ≠ .faulted → y.state ≠ .holding ∧ y.state ≠ .faulted

theorem Channel.Slows.refl (x : Channel) : x.Slows x := ⟨id, id⟩

theorem Channel.Slows.trans {x y z : Channel} (h : x.Slows y) (k : y.Slows z) : x.Slows z :=
  ⟨fun rests => k.live (h.live rests), fun moves => k.moving (h.moving moves)⟩

theorem Channel.stop_slows (x : Channel) : x.Slows x.stop := by
  rw [Channel.stop_eq]
  unfold Channel.afterStop
  constructor
  · intro rests
    cases h : x.state <;> simp_all [Channel.live]
  · rintro ⟨unheld, whole⟩
    cases h : x.state <;> simp_all [Channel.stopped]

theorem Channel.stop_live (x : Channel) : x.stop.live = false := by
  rw [Channel.stop_eq]
  unfold Channel.afterStop Channel.live
  cases h : x.state <;> simp [h, Channel.stopped]

theorem Channel.dropMover_slows (x : Channel) : x.Slows x.dropMover := by
  rw [Channel.dropMover_eq]
  constructor
  · intro rests
    cases h : x.state <;> simp_all [Channel.live, Channel.freed]
  · rintro ⟨unheld, whole⟩
    cases h : x.state <;> simp_all [Channel.freed]

theorem Part.modChan_slows {f : Channel → Channel} (slows : ∀ x : Channel, x.Slows (f x)) (p : Part) (c d : Chan) :
    (p.chan d).Slows ((p.modChan c f).chan d) := by
  by_cases same : d = c
  · rw [same, Part.modChan_chan_self]
    exact slows _
  · rw [Part.modChan_chan_ne _ _ _ _ same]
    exact .refl _

theorem Part.enterStopping_slows (p : Part) (g : Grp) (reason : StopReason) (d : Chan) :
    (p.chan d).Slows ((p.enterStopping g reason).chan d) :=
  Part.forEach_inv (P := fun q => (p.chan d).Slows (q.chan d)) (.refl _) fun q ln _ slows =>
    slows.trans (Part.modChan_slows Channel.stop_slows q ln.channel d)

theorem Part.clearLanes_slows (p : Part) (g : Grp) (d : Chan) : (p.chan d).Slows ((p.clearLanes g).chan d) :=
  Part.forEach_inv (P := fun q => (p.chan d).Slows (q.chan d)) (.refl _) fun q ln _ slows => by
    unfold Part.clearMover
    rw [Part.judgeDisarm_chan]
    exact slows.trans (Part.modChan_slows Channel.dropMover_slows q ln.channel d)

/-- A change of mode touches a watch baseline alone. -/
theorem Part.raise_slows (p : Part) (pair : NoticePair) (e : Event) (d : Chan) : (p.chan d).Slows ((p.raise pair e).chan d) := by
  by_cases wakes : p.Wakes pair e
  · rw [Part.raise_wakes wakes, Part.changeMode_chan]
    exact ⟨id, id⟩
  · rw [Part.raise_sleeps wakes, Part.post_chan]
    exact .refl _

theorem Part.exitCore_slows (p : Part) (g : Grp) (d : Chan) : (p.chan d).Slows ((p.exitCore g).chan d) := by
  have cleared := p.clearLanes_slows g d
  unfold Part.exitCore
  split
  · exact .refl _
  · dsimp only
    split
    · split
      · exact cleared.trans (Part.raise_slows ((p.clearLanes g).modGroup g fun x => { x with state := .faulted }) _ _ d)
      · exact cleared
    · exact cleared.trans (Part.raise_slows ((p.clearLanes g).modGroup g fun x => { x with state := .idle, move := none }) _ _ d)
    · exact cleared
    · exact cleared.trans (Part.raise_slows ((p.clearLanes g).modGroup g fun x => { x with state := .held, held := true }) _ _ d)

theorem Part.endOf_slows (p : Part) (g : Grp) (reason : StopReason) (d : Chan) :
    (p.chan d).Slows ((p.endOf g reason).chan d) := by
  have stops := p.enterStopping_slows g reason d
  unfold Part.endOf
  split
  · split
    · exact stops.trans (Part.exitCore_slows _ g d)
    · exact stops
  · exact .refl _

/-- R81: every lane channel has had a stop. -/
theorem Part.endOf_rests (active : (p.group g).active = true) {ln : Lane} (mem : ln ∈ (p.group g).lanes) :
    ((p.endOf g reason).chan ln.channel).live = false := by
  have stopped : ((p.enterStopping g reason).chan ln.channel).live = false := by
    rw [Part.enterStopping_chan_in p g reason ln mem]
    exact Channel.stop_live _
  unfold Part.endOf
  rw [if_pos active]
  split
  · exact (Part.exitCore_slows _ g ln.channel).live stopped
  · exact stopped

/-- R81: a group with a lane channel under way stays STOPPING. -/
theorem Part.endOf_underway (active : (p.group g).active = true) (moves : p.Underway g) :
    (p.endOf g reason).group g = { p.group g with
      state := .stopping, controlTimer := none, move := (p.group g).move.map fun m => { m with reason := some reason } } := by
  unfold Part.endOf
  rw [if_pos active, if_neg fun rests => (p.enterStopping_atRest g reason).mp rests moves, Part.enterStopping_group, if_pos rfl]

/-- R82, R84: the end of a track move raises no event of the group. -/
theorem Part.endOf_codes {t : Trk} (source : ∀ m, (p.group g).active = true → (p.group g).move = some m → m.source = .track t)
    (mild : reason ≠ .fault) : (p.endOf g reason).codes.groups = p.codes.groups := by
  by_cases active : (p.group g).active = true
  · cases move : (p.group g).move with
    | none =>
      have bare : (p.enterStopping g reason).exitCore g = p.enterStopping g reason := by
        unfold Part.exitCore
        rw [Part.enterStopping_group, if_pos rfl, move]
        rfl
      unfold Part.endOf
      rw [if_pos active, bare, ite_self, show (p.enterStopping g reason).codes = _ from p.enterStopping_kept g reason .codes (by simp)]
    | some m =>
      have ends := (Part.endOfMove move (source m active move) mild).2.2.1
      unfold Part.endOf
      rw [if_pos active]
      exact ends
  · rw [Part.endOf_inactive (by simpa using active)]

/-- R82: a stop ends a move as its reason does, but for what the group tells. -/
theorem Part.stopGroup_endOf {t : Trk} (source : ∀ m, (p.group g).active = true → (p.group g).move = some m → m.source = .track t)
    (out : g ∉ (p.track t).playing) (mild : reason ≠ .fault) : p.stopGroup g reason = p.endOf g reason := by
  by_cases active : (p.group g).active = true
  · cases move : (p.group g).move with
    | none =>
      have record : (p.enterStopping g reason).group g = { p.group g with state := .stopping, controlTimer := none, move := none } := by
        rw [Part.enterStopping_group, if_pos rfl, move]
        rfl
      unfold Part.stopGroup Part.endOf Part.exitStopping Part.exitCore
      rw [if_pos active, if_pos active, record]
      dsimp only
      rw [ite_self, ite_self]
    | some m =>
      rw [Part.stopGroup_out move (source m active move) out mild]
      rfl
  · rw [Part.endOf_inactive (by simpa using active), Part.stopGroup_inactive (by simpa using active)]

end One

end Sys2Proof.Machine
end

section
set_option Elab.async false
/-! PROOFS. The ends of several groups' moves, and the end of a play (R84, R147, R148). -/

namespace Sys2Proof.Machine

/-! ### Several groups -/

section Several
variable {p q : Part} {g : Grp} {l m : List Grp} {reason : StopReason} {t : Trk}

theorem Part.Besides.mono (h : Part.Besides l p q) (sub : l ⊆ m) : Part.Besides m p q where
  kept := h.kept
  groups i out := h.groups i fun mem => out (sub mem)
  lanes := h.lanes
  chans up c out := h.chans up c fun i mem => out i (sub mem)
  queues i out := h.queues i fun mem => out (sub mem)
  codes i out := h.codes i fun mem => out (sub mem)
  awake := h.awake
  unarmed := h.unarmed
  ctl := h.ctl

/-- The groups of a list that are PREPARING or RUNNING. -/
def Part.moving (p : Part) (l : List Grp) : List Grp := l.filter fun g => (p.group g).active

theorem Part.mem_moving : g ∈ p.moving l ↔ g ∈ l ∧ (p.group g).active = true := List.mem_filter

/-- The moves of several groups ended in turn. -/
def Part.endAll (p : Part) (l : List Grp) (reason : StopReason) : Part := p.forEach l fun q g => q.endOf g reason

theorem Part.endOf_moving (p : Part) (g : Grp) (l : List Grp) (reason : StopReason) :
    (p.endOf g reason).moving l ⊆ p.moving l := fun h mem => by
  obtain ⟨listed, active⟩ := Part.mem_moving.mp mem
  have other : h ≠ g := fun same => by rw [same, Part.endOf_active] at active; cases active
  rw [(Part.Beside.endOf p g reason).groups h other] at active
  exact Part.mem_moving.mpr ⟨listed, active⟩

/-- The ends touch the groups that were PREPARING or RUNNING alone. -/
theorem Part.endAll_besides (p : Part) (l : List Grp) (reason : StopReason) :
    Part.Besides (p.moving l) p (p.endAll l reason) := by
  induction l generalizing p with
  | nil => exact .refl p _
  | cons g l ih =>
    have later := ih (p.endOf g reason)
    cases active : (p.group g).active with
    | true =>
      refine ((later.mono (p.endOf_moving g l reason)).cons (.endOf p g reason)).mono fun h mem => ?_
      rw [Part.mem_moving]
      rcases List.mem_cons.mp mem with rfl | moved
      · exact ⟨List.mem_cons_self, active⟩
      · exact ⟨List.mem_cons_of_mem _ (Part.mem_moving.mp moved).1, (Part.mem_moving.mp moved).2⟩
    | false =>
      rw [Part.endOf_inactive active] at later
      have same : p.endAll (g :: l) reason = p.endAll l reason := by
        rw [Part.endAll, Part.forEach_cons, Part.endOf_inactive active]
        rfl
      rw [same]
      exact later.mono fun h mem =>
        Part.mem_moving.mpr ⟨List.mem_cons_of_mem _ (Part.mem_moving.mp mem).1, (Part.mem_moving.mp mem).2⟩

theorem Part.endAll_slows (p : Part) (l : List Grp) (reason : StopReason) (d : Chan) :
    (p.chan d).Slows ((p.endAll l reason).chan d) :=
  Part.forEach_inv (P := fun q => (p.chan d).Slows (q.chan d)) (.refl _) fun q g _ slows =>
    slows.trans (q.endOf_slows g reason d)

/-- A group's end stands between ends of other groups. -/
theorem Part.endAll_splits (mem : g ∈ l) (p : Part) (reason : StopReason) :
    ∃ a b, (∀ h ∈ a, h ∈ l ∧ h ≠ g) ∧ b ⊆ l ∧ p.endAll l reason = ((p.endAll a reason).endOf g reason).endAll b reason := by
  obtain ⟨a, b, rfl, fresh⟩ := List.eq_append_cons_of_mem mem
  refine ⟨a, b, fun h here => ⟨List.mem_append_left _ here, fun same => fresh (same ▸ here)⟩,
    fun h here => List.mem_append_right _ (List.mem_cons_of_mem _ here), ?_⟩
  rw [Part.endAll, Part.forEach_append, Part.forEach_cons]
  rfl

theorem Part.endAll_group_before {a : List Grp} (others : ∀ h ∈ a, h ∈ l ∧ h ≠ g) (p : Part) (reason : StopReason) :
    (p.endAll a reason).group g = p.group g :=
  (p.endAll_besides a reason).groups g fun mem => (others g (Part.mem_moving.mp mem).1).2 rfl

theorem Part.endAll_group_after (p : Part) (g : Grp) (b : List Grp) (reason : StopReason) :
    ((p.endOf g reason).endAll b reason).group g = (p.endOf g reason).group g :=
  ((p.endOf g reason).endAll_besides b reason).groups g fun mem => by
    have active := (Part.mem_moving.mp mem).2
    rw [Part.endOf_active] at active
    cases active

theorem Part.endAll_active (mem : g ∈ l) (p : Part) (reason : StopReason) : ((p.endAll l reason).group g).active = false := by
  obtain ⟨a, b, -, -, split⟩ := Part.endAll_splits mem p reason
  rw [split, Part.endAll_group_after, Part.endOf_active]

theorem Part.endAll_underway (mem : g ∈ l) (active : (p.group g).active = true) (moves : p.Underway g) :
    (p.endAll l reason).group g = { p.group g with
      state := .stopping, controlTimer := none, move := (p.group g).move.map fun m => { m with reason := some reason } } := by
  obtain ⟨a, b, others, -, split⟩ := Part.endAll_splits mem p reason
  have before := Part.endAll_group_before others p reason
  obtain ⟨ln, lane, moving⟩ := moves
  rw [split, Part.endAll_group_after, Part.endOf_underway (by rw [before, active]) ⟨ln, by rw [before]; exact lane,
    (p.endAll_slows a reason ln.channel).moving moving⟩, before]

theorem Part.endAll_rests (mem : g ∈ l) (active : (p.group g).active = true) {ln : Lane} (lane : ln ∈ (p.group g).lanes) :
    ((p.endAll l reason).chan ln.channel).live = false := by
  obtain ⟨a, b, others, -, split⟩ := Part.endAll_splits mem p reason
  have before := Part.endAll_group_before others p reason
  rw [split]
  exact (Part.endAll_slows _ b reason ln.channel).live (Part.endOf_rests (by rw [before, active]) (by rw [before]; exact lane))

/-- R84: the end of a track move that shares no channel with the others'. -/
theorem Part.endAll_ends (up : p.ctl.mode ≠ .parked) (mild : reason ≠ .fault) (mem : g ∈ l)
    (distinct : ((l.flatMap fun g => (p.group g).lanes).map (·.channel)).Nodup) (active : (p.group g).active = true) {m : MoveRecord}
    (move : (p.group g).move = some m) (source : m.source = .track t) :
    let q := p.endAll l reason
    q.codes.groups[g] = p.codes.groups[g]
      ∧ (p.Underway g →
          q.group g = { p.group g with state := .stopping, controlTimer := none, move := some { m with reason := some reason } }
          ∧ ∀ ln ∈ (p.group g).lanes, q.chan ln.channel = (p.chan ln.channel).afterStop)
      ∧ (¬p.Underway g →
          q.group g = { p.group g with state := .idle, controlTimer := none, move := none }
          ∧ ∀ ln ∈ (p.group g).lanes, q.chan ln.channel = (p.chan ln.channel).freed) := by
  obtain ⟨a, b, others, listed, split⟩ := Part.endAll_splits mem p reason
  have before := p.endAll_besides a reason
  have group := Part.endAll_group_before others p reason
  have out : g ∉ p.moving a := fun mem => (others g (Part.mem_moving.mp mem).1).2 rfl
  have agrees : p.Agrees (p.endAll a reason) g := before.agrees out up fun i mem =>
    lanes_apart distinct ‹g ∈ l› (others i (Part.mem_moving.mp mem).1).1 (others i (Part.mem_moving.mp mem).1).2
  have underway : (p.endAll a reason).Underway g ↔ p.Underway g := by
    unfold Part.Underway
    rw [agrees.1]
    exact exists_congr fun ln => and_congr_right fun lane => by rw [agrees.2 ln lane]
  have beside := Part.Beside.endOf (p.endAll a reason) g reason
  have after := ((p.endAll a reason).endOf g reason).endAll_besides b reason
  have done : g ∉ ((p.endAll a reason).endOf g reason).moving b := fun mem => by
    have active := (Part.mem_moving.mp mem).2
    rw [Part.endOf_active] at active
    cases active
  have later : ((p.endAll a reason).endOf g reason).Agrees (p.endAll l reason) g := by
    rw [split]
    refine after.agrees done (beside.awake (before.awake up)) fun i mem => ?_
    have other : i ≠ g := fun same => done (same ▸ mem)
    rw [beside.groups i other, before.lanes i, beside.lanes, group]
    exact lanes_apart distinct ‹g ∈ l› (listed (Part.mem_moving.mp mem).1) other
  have ends := Part.endOfMove (reason := reason) ((congrArg Group.move group).trans move) source mild
  have unfolded : (p.endAll a reason).endOf g reason = if ((p.endAll a reason).enterStopping g reason).atRest g then
      ((p.endAll a reason).enterStopping g reason).exitCore g else (p.endAll a reason).enterStopping g reason :=
    if_pos (by rw [group, active])
  rw [← unfolded] at ends
  obtain ⟨-, -, codes, -, stops, rests⟩ := ends
  rw [underway, group] at stops rests
  refine ⟨?_, fun moves => ⟨?_, fun ln lane => ?_⟩, fun still => ⟨?_, fun ln lane => ?_⟩⟩
  · rw [split, after.codes g done, codes, before.codes g out]
  · rw [later.1, (stops moves).1]
  · rw [later.2 ln (by rw [beside.lanes, group]; exact lane), (stops moves).2 ln lane, agrees.2 ln lane]
  · rw [later.1, (rests still).1]
  · rw [later.2 ln (by rw [beside.lanes, group]; exact lane), (rests still).2 (lanes_nodup distinct ‹g ∈ l›) ln lane, agrees.2 ln lane]

/-- R147, R148: what the end of a play makes of its groups. -/
theorem Part.endAll_playersEnd (up : p.ctl.mode ≠ .parked) (mild : reason ≠ .fault)
    (distinct : (((p.track t).playing.flatMap fun g => (p.group g).lanes).map (·.channel)).Nodup) :
    p.PlayersEnd ((p.modTrack t Track.clearPlay).endAll (p.track t).playing reason) t reason := by
  have besides := (p.modTrack t Track.clearPlay).endAll_besides (p.track t).playing reason
  refine ⟨fun g out => ?_, fun c out => besides.chans up c fun g mem => out g (Part.mem_moving.mp mem), fun g m reached move source =>
    Part.endAll_ends (p := p.modTrack t Track.clearPlay) up mild reached.1 distinct reached.2 move source⟩
  have other := mt (Part.mem_moving (p := p.modTrack t Track.clearPlay) (g := g) (l := (p.track t).playing)).mp out
  exact ⟨besides.groups g other, besides.codes g other⟩

/-- R148: with the playing set emptied, stops of a track's groups are ends of their moves, and raise no event of a group. -/
theorem Part.stopAll_endAll (l : List Grp) (p : Part) (empty : (p.track t).playing = []) (mild : reason ≠ .fault)
    (source : ∀ g ∈ l, ∀ m, (p.group g).active = true → (p.group g).move = some m → m.source = .track t) :
    (p.forEach l fun q g => q.stopGroup g reason) = p.endAll l reason
      ∧ (p.endAll l reason).codes.groups = p.codes.groups := by
  induction l generalizing p with
  | nil => exact ⟨rfl, rfl⟩
  | cons g l ih =>
    have here := source g List.mem_cons_self
    have beside := Part.Beside.endOf p g reason
    obtain ⟨loop, codes⟩ := ih (p.endOf g reason) (by rw [(beside.kept.mono (cs := [.tracks]) (by simp)).track, empty])
      fun h mem m active move => by
        have other : h ≠ g := fun same => by rw [same, Part.endOf_active] at active; cases active
        rw [beside.groups h other] at active move
        exact source h (List.mem_cons_of_mem _ mem) m active move
    refine ⟨?_, codes.trans (Part.endOf_codes here mild)⟩
    rw [Part.forEach_cons, Part.stopGroup_endOf here (by rw [empty]; exact List.not_mem_nil) mild]
    exact loop

end Several

end Sys2Proof.Machine
end

section
set_option Elab.async false
/-! PROOFS. STOP_TRACK, and the play that a completion order ends (R146 to R148, R84). -/

namespace Sys2Proof.Machine

/-! ### The end of a play -/

section Play
variable {p q : Part} {g : Grp} {t : Trk} {reason : StopReason}

theorem Part.exitCore_kept (p : Part) (g : Grp) : Kept p (p.exitCore g) [.ports, .samples, .queues, .clock, .tracks] := by
  have cleared := (p.clearLanes_kept g).mono (cs := [.ports, .samples, .queues, .clock, .tracks]) (by simp)
  have changed (f : Group → Group) := cleared.trans (((p.clearLanes g).modGroup_kept g f).mono (by simp))
  have told (f : Group → Group) (e : Event) :=
    (changed f).trans ((((p.clearLanes g).modGroup g f).raise_kept (.group g) e).mono (by simp))
  unfold Part.exitCore
  split
  · exact .refl _ _
  · dsimp only
    split
    · split
      · exact told _ _
      · exact changed _
    · exact told _ _
    · exact changed _
    · exact told _ _

theorem Part.endOf_kept (p : Part) (g : Grp) (reason : StopReason) :
    Kept p (p.endOf g reason) [.ports, .samples, .queues, .clock, .tracks] := by
  have stopped := (p.enterStopping_kept g reason).mono (cs := [.ports, .samples, .queues, .clock, .tracks]) (by simp)
  unfold Part.endOf
  split
  · split
    · exact stopped.trans (Part.exitCore_kept _ _)
    · exact stopped
  · exact .refl _ _

theorem Part.endAll_kept (p : Part) (l : List Grp) (reason : StopReason) :
    Kept p (p.endAll l reason) [.ports, .samples, .queues, .clock, .tracks] :=
  Part.forEach_inv (P := fun q => Kept p q _) (.refl _ _) fun q g _ kept => kept.trans (q.endOf_kept g reason)

theorem Track.clearPlay_ended (x : Track) : x.clearPlay = x.ended := by
  unfold Track.clearPlay Track.endSegment Track.restState Track.ended
  simp only [List.isEmpty_iff]

/-- R147, R148: what the end of a play is told of, read from another part with the same groups, channels, players and codes. -/
theorem Part.PlayersEnd.of_same {p' q' : Part} (h : p'.PlayersEnd q' t reason) (groups : ∀ g, p'.group g = p.group g)
    (chans : ∀ c, p'.chan c = p.chan c) (playing : (p'.track t).playing = (p.track t).playing)
    (codes : p'.codes.groups = p.codes.groups) (groups' : ∀ g, q.group g = q'.group g) (chans' : ∀ c, q.chan c = q'.chan c)
    (codes' : q.codes.groups = q'.codes.groups) : p.PlayersEnd q t reason := by
  obtain ⟨others, outside, ends⟩ := h
  simp only [playing, groups, chans, codes, Part.Underway] at others outside ends
  refine ⟨fun g out => ?_, fun c out => (chans' c).trans (outside c out), fun g m reached move source => ?_⟩
  · rw [groups', codes']
    exact others g out
  · obtain ⟨code, stops, rests⟩ := ends g m reached move source
    refine ⟨by rw [codes', code], fun moves => ?_, fun still => ?_⟩
    · obtain ⟨record, lanes⟩ := stops moves
      exact ⟨(groups' g).trans record, fun ln lane => (chans' _).trans (lanes ln lane)⟩
    · obtain ⟨record, lanes⟩ := rests still
      exact ⟨(groups' g).trans record, fun ln lane => (chans' _).trans (lanes ln lane)⟩

/-- R147, R148: the part whose play has ended for a reason, with the track's event raised. -/
def Part.playEnded (p : Part) (t : Trk) (reason : StopReason) (e : Event) : Part :=
  ((p.modTrack t Track.clearPlay).endAll (p.track t).playing reason).raise (.track t) e

theorem Part.endPlay_eq (p : Part) (t : Trk) (e : Event) : p.endPlay t e = p.playEnded t .complete e := by
  have steps : Part.completionOrder = fun (q : Part) g => q.endOf g .complete := by
    funext q g
    exact q.completionOrder_endOf g
  unfold Part.endPlay Part.playEnded Part.endAll
  rw [steps]

/-- R147, R148: what an end of a play leaves. -/
structure Part.PlayEnded (p q : Part) (t : Trk) (reason : StopReason) (e : Event) : Prop where
  own : q.track t = (p.track t).ended
  code : q.codes.tracks[t] = some e
  active : ∀ g ∈ (p.track t).playing, (q.group g).active = false
  underway : ∀ g ∈ (p.track t).playing, (p.group g).active = true → p.Underway g → q.group g = { p.group g with
      state := .stopping, controlTimer := none, move := (p.group g).move.map fun m => { m with reason := some reason } }
  players : (((p.track t).playing.flatMap fun g => (p.group g).lanes).map (·.channel)).Nodup → p.PlayersEnd q t reason
  rests : ∀ g ∈ (p.track t).playing, (p.group g).active = true → ∀ ln ∈ (p.group g).lanes, (q.chan ln.channel).live = false
  tracks : ∀ u, u ≠ t → q.track u = p.track u
  groups : ∀ g, g ∉ (p.track t).playing → q.group g = p.group g
  kept : Kept p q [.samples, .queues, .clock]
  ctl : p.ctl.silenceDisarm = false → q.ctl = p.ctl

theorem Vector.getElem_set_self_trk {α : Type} (v : Vector α 2) (t : Trk) (x : α) : (v.set t x)[t] = x := by simp

theorem Part.playEnded_ends (up : p.ctl.mode ≠ .parked) (mild : reason ≠ .fault) (e : Event) :
    p.PlayEnded (p.playEnded t reason e) t reason e := by
  have besides := (p.modTrack t Track.clearPlay).endAll_besides (p.track t).playing reason
  have kept := (p.modTrack t Track.clearPlay).endAll_kept (p.track t).playing reason
  have awake := besides.awake up
  have told : p.playEnded t reason e = ((p.modTrack t Track.clearPlay).endAll (p.track t).playing reason).post (.track t) e :=
    Part.raise_awake awake _ _
  have track := (kept.mono (cs := [.tracks]) (by simp)).track
  rw [told]
  refine ⟨?_, Vector.getElem_set_self_trk .., fun g mem => ?_, fun g mem active moves => ?_, fun distinct => ?_,
    fun g mem active ln lane => ?_, fun u other => ?_, fun g out => ?_, ?_, fun clear => ?_⟩
  · rw [Part.post_track, track, Part.modTrack_track_self, Track.clearPlay_ended]
  · rw [Part.post_group]
    exact Part.endAll_active mem _ _
  · rw [Part.post_group]
    exact Part.endAll_underway (p := p.modTrack t Track.clearPlay) mem active moves
  · exact (Part.endAll_playersEnd up mild distinct).of_same (fun _ => rfl) (fun _ => rfl) rfl rfl (fun _ => rfl) (fun _ => rfl) rfl
  · rw [Part.post_chan]
    exact Part.endAll_rests (p := p.modTrack t Track.clearPlay) mem active lane
  · rw [Part.post_track, track, Part.modTrack_track_ne _ _ _ _ other]
  · rw [Part.post_group, besides.groups g fun mem => out (Part.mem_moving.mp mem).1, Part.modTrack_group]
  · exact (((Part.modTrack_kept p t _).mono (by simp)).trans (kept.mono (by simp))).trans ((Part.post_kept _ _ _).mono (by simp))
  · rw [Part.post_ctl, besides.ctl up clear, Part.modTrack_ctl]

end Play

/-! ### STOP_TRACK (R148) -/

section Stop
variable {p : Part} {t : Trk}

theorem Part.haltTrack_playing (playing : (p.track t).state = .playing ∨ (p.track t).state = .starved)
    (source : ∀ g ∈ (p.track t).playing, ∀ m, (p.group g).move = some m → m.source = .track t) :
    p.haltTrack t = p.playEnded t .request .trackStopped
      ∧ ((p.modTrack t Track.clearPlay).endAll (p.track t).playing .request).codes.groups = p.codes.groups := by
  obtain ⟨loop, codes⟩ := Part.stopAll_endAll (reason := .request) (t := t) (p.track t).playing (p.modTrack t Track.clearPlay)
    (by rw [Part.modTrack_track_self]; rfl) (by decide) fun g mem m _ move => source g mem m move
  refine ⟨?_, codes⟩
  unfold Part.haltTrack Part.playEnded
  rw [← loop]
  rcases playing with state | state <;> rw [state]

theorem Part.haltTrack_idle (idle : (p.track t).state = .empty ∨ (p.track t).state = .loaded) :
    p.haltTrack t = p.modTrack t fun x => { x with origins := Vector.replicate 8 none } := by
  unfold Part.haltTrack
  rcases idle with state | state <;> rw [state]

theorem judgeStopTrack_eq {l : Link} {tier : Nat} : judgeStopTrack l tier [byteOf t.val] p = .accepted [] (p.haltTrack t) := by
  rw [judgeStopTrack, withTrk_byteOf]

end Stop

/-- Settles O56: the stops of a play's groups are the ends of their moves, since the playing set is emptied first. -/
theorem stopTrackEndsThePlay : Obligations.StopTrackEndsThePlay := by
  intro l tier t s ready low
  have judged := judgeStopTrack_eq (p := s.part.frameTaken l) (l := l) (t := t) (tier := s.part.effectiveTier l tier)
  refine ⟨fun playing up source => ⟨_, rfl, ?_⟩, fun idle => ⟨_, rfl, ?_⟩⟩ <;> dsimp only
  · obtain ⟨halts, codes⟩ := Part.haltTrack_playing (p := s.part.frameTaken l) (t := t) (by simpa using playing)
      (by simpa using source)
    rw [halts] at judged
    rw [Part.judged_driven_accepts ready (by simp) rfl low judged]
    have awake : (s.part.frameTaken l).ctl.mode ≠ .parked := by simpa using up
    obtain ⟨own, code, active, underway, players, rests, tracks, -, kept, ctl⟩ :=
      Part.playEnded_ends (t := t) (reason := .request) awake (by decide) .trackStopped
    have told : ((s.part.frameTaken l).playEnded t .request .trackStopped).codes.groups = s.part.codes.groups := by
      have besides := ((s.part.frameTaken l).modTrack t Track.clearPlay).endAll_besides ((s.part.frameTaken l).track t).playing .request
      rw [Part.playEnded, Part.raise_awake (besides.awake awake)]
      exact codes.trans (by rw [Part.frameTaken_codes])
    simp only [Part.frameTaken_track, Part.frameTaken_group, Part.Underway, Part.frameTaken_chan] at own active underway players rests tracks
    refine ⟨Part.answer_accepted .., ?_, ?_, fun g mem => ⟨?_, fun moving under => ?_⟩, fun distinct => ?_,
      fun g mem moving ln lane => ?_, ?_, fun u other => ?_, ?_⟩
    · rw [Part.answer_track, Part.drive_track, own]
    · rw [Part.answer_codes, Part.drive_codes, code]
    · rw [Part.answer_group, Part.drive_group, active g mem]
    · rw [Part.answer_group, Part.drive_group, underway g mem moving under]
      exact ⟨rfl, rfl⟩
    · refine (players distinct).of_same (fun _ => Part.frameTaken_group ..) (fun _ => Part.frameTaken_chan ..)
        (by rw [Part.frameTaken_track]) (by rw [Part.frameTaken_codes]) (fun g => ?_) (fun c => ?_) ?_
      · rw [Part.answer_group, Part.drive_group]
      · rw [Part.answer_chan, Part.drive_chan]
      · rw [Part.answer_codes, Part.drive_codes]
    · rw [Part.answer_port]
      exact Part.drive_safe (rests g mem moving ln lane)
    · rw [Part.answer_codes, Part.drive_codes, told]
    · rw [Part.answer_track, Part.drive_track, tracks u other]
    · refine Kept.answer (Kept.drive (.mono (cs := [.samples, .queues, .clock, .taken]) (Kept.taken_trans
        ((s.part.frameTaken_kept l).mono (cs := [.taken, .samples, .queues, .clock]) (by simp)) (.cons ?_ kept)) (by simp))) l _ _ _ _
      exact ctl (by simp)
  · rw [Part.haltTrack_idle (by simpa using idle)] at judged
    rw [Part.judged_driven_accepts ready (by simp) rfl low judged]
    refine ⟨Part.answers_of_kept (Kept.drive ((Part.modTrack_kept _ _ _).mono (by simp))) _ _, ?_, fun u other => ?_⟩
    · rw [Part.answer_track, Part.drive_track, Part.modTrack_track_self, Part.frameTaken_track]
    · rw [Part.answer_track, Part.drive_track, Part.modTrack_track_ne _ _ _ _ other, Part.frameTaken_track]

end Sys2Proof.Machine
end

section
set_option Elab.async false
/-! PROOFS. The expiry of a segment with no lane lagging, and the end of a play with a completion order (R144 to R147, R84). -/

namespace Sys2Proof.Machine

/-! ### The lag check (R146) -/

section Lag
variable {p : Part} {t : Trk} {g : Grp} {w : Waypoint}

/-- R146: the first lane that lags, told of the segment targets. -/
theorem Part.lagging_eq (p : Part) (t : Trk) (g : Grp) (w : Waypoint) :
    p.lagging t g w = ((p.group g).lanes.zip (p.segmentTargets t g w)).findIdx? fun lt =>
      (p.group g).levelLimit < ((p.chan lt.1.channel).pos - lt.2).natAbs := by
  rw [Part.lagging, Part.segmentPlan_planOf, Part.planOf, zip_map_zip, List.findIdx?_map]
  rfl

theorem Part.judgeLag_near
    (near : ∀ lt ∈ (p.group g).lanes.zip (p.segmentTargets t g w),
      ((p.chan lt.1.channel).pos - lt.2).natAbs ≤ (p.group g).levelLimit) : p.judgeLag t w g = p := by
  have none_ : p.lagging t g w = none := by
    rw [Part.lagging_eq, List.findIdx?_eq_none_iff]
    exact fun lt mem => by simpa using near lt mem
  unfold Part.judgeLag
  rw [none_]
  exact ite_self _

/-- The part once the segment timer has run out. -/
abbrev Part.segmentOut (p : Part) (t : Trk) : Part := p.modTrack t fun x => { x with segmentTimer := none }

theorem Part.segmentOut_agrees (p : Part) (t : Trk) (g : Grp) : p.Agrees (p.segmentOut t) g := ⟨rfl, fun _ _ => rfl⟩

theorem Part.segmentOut_targets (p : Part) (t : Trk) (g : Grp) (w : Waypoint) :
    (p.segmentOut t).segmentTargets t g w = p.segmentTargets t g w :=
  (p.segmentOut_agrees t g).segmentTargets ((p.segmentOut_agrees t g).originList (by rw [Part.modTrack_track_self])) w

theorem Part.judgeLags_near (keeps : p.KeepsUp t w) :
    (p.segmentOut t).forEach (p.track t).playing (fun q g => q.judgeLag t w g) = p.segmentOut t :=
  Part.forEach_inv (P := fun q => q = p.segmentOut t) rfl fun q g mem same => by
    rw [same]
    refine Part.judgeLag_near ?_
    rw [Part.segmentOut_targets]
    exact keeps g mem

/-- R146: the expiry of a segment that no lane lags behind. -/
theorem Part.segmentExpires_near (keeps : p.KeepsUp t w) (playing : (p.track t).state = .playing) :
    p.segmentExpires t w = (p.segmentOut t).afterSegment t w := by
  unfold Part.segmentExpires
  dsimp only
  rw [Part.judgeLags_near keeps]
  exact if_pos (by rw [Part.modTrack_track_self]; exact playing)

theorem exec_segmentTimerExpiry {s : State} (free : s.part.ctl.held = false) (out : (s.part.track t).segmentTimer = some 0)
    (current : (s.part.track t).current = some w) :
    exec (.segmentTimerExpiry t) s = .next { s with part := (s.part.segmentExpires t w).drive } := by
  have taking : exec (.segmentTimerExpiry t) s = execSegmentTimerExpiry t s := rfl
  rw [taking, execSegmentTimerExpiry, State.take_next, Part.awake_of_free free, current, out]
  rfl

theorem exec_starvationTimerExpiry {s : State} (free : s.part.ctl.held = false)
    (out : (s.part.track t).starvationTimer = some 0) :
    exec (.starvationTimerExpiry t) s = .next { s with part := (s.part.endPlay t .trackStopped).drive } := by
  have taking : exec (.starvationTimerExpiry t) s = execStarvationTimerExpiry t s := rfl
  rw [taking, execStarvationTimerExpiry, State.take_next, Part.awake_of_free free, out]
  rfl

theorem Track.allReached_iff (x : Track) : x.allReached = true ↔ ∀ g ∈ x.playing, g ∈ x.arrived := by simp [Track.allReached]

/-- R146: an END segment closes the track, and the play ends where every group has arrived. -/
theorem Part.afterSegment_last (last : w.last = true) :
    p.afterSegment t w = if ∀ g ∈ (p.track t).playing, g ∈ (p.track t).arrived
      then (p.modTrack t fun x => { x with closing := true }).endPlay t .trackEnded
      else p.modTrack t fun x => { x with closing := true } := by
  unfold Part.afterSegment
  rw [if_pos last]
  refine if_congr ?_ rfl rfl
  rw [Track.allReached_iff, Part.modTrack_track_self]

end Lag

/-- A play that ends is told of the track as it stood before its segment ran out. -/
theorem Part.PlayEnded.before {p q : Part} {t : Trk} {reason : StopReason} {e : Event} {f : Track → Track}
    (h : (p.modTrack t f).PlayEnded q t reason e) (ended : (f (p.track t)).ended = (p.track t).ended)
    (playing : (f (p.track t)).playing = (p.track t).playing) : p.PlayEnded q t reason e := by
  have list : ((p.modTrack t f).track t).playing = (p.track t).playing := by rw [Part.modTrack_track_self, playing]
  obtain ⟨own, code, active, underway, players, rests, tracks, groups, kept, ctl⟩ := h
  rw [list] at active underway rests groups
  refine ⟨own.trans (by rw [Part.modTrack_track_self, ended]), code, active, underway, fun distinct => ?_, rests, fun u other => ?_,
    groups, ((Part.modTrack_kept p t f).mono (by simp)).trans kept, ctl⟩
  · exact (players (by rw [list]; exact distinct)).of_same (fun _ => rfl) (fun _ => rfl) list rfl (fun _ => rfl) (fun _ => rfl) rfl
  · rw [tracks u other, Part.modTrack_track_ne _ _ _ _ other]

/-- Settles O58: both expiries come to the end of a play, whose groups end their moves with reason COMPLETE. -/
theorem playEndsWithACompletionOrder : Obligations.PlayEndsWithACompletionOrder := by
  intro t i e s free up distinct occasion
  have ends : ∃ q, exec i s = .next { s with part := q.drive } ∧ s.part.PlayEnded q t .complete e := by
    rcases occasion with ⟨rfl, out, rfl⟩ | ⟨w, rfl, out, current, last, playing, keeps, arrived, rfl⟩
    · refine ⟨_, exec_starvationTimerExpiry free out, ?_⟩
      rw [Part.endPlay_eq]
      exact Part.playEnded_ends up (by decide) _
    · refine ⟨_, exec_segmentTimerExpiry free out current, ?_⟩
      have reached : ∀ g ∈ ((s.part.segmentOut t).track t).playing, g ∈ ((s.part.segmentOut t).track t).arrived := by
        rw [Part.modTrack_track_self]
        exact arrived
      rw [Part.segmentExpires_near keeps playing, Part.afterSegment_last last, if_pos reached, Part.modTrack_modTrack,
        Part.endPlay_eq]
      exact (Part.playEnded_ends (p := s.part.modTrack t fun x => { x with segmentTimer := none, closing := true }) up (by decide)
        .trackEnded).before rfl rfl
  obtain ⟨q, takes, ended⟩ := ends
  obtain ⟨own, code, active, underway, players, -, tracks, groups, kept, -⟩ := ended
  refine ⟨_, takes, ?_, ?_, fun g mem => ⟨?_, fun m moving move source holding => ?_⟩, ?_, fun u other => ?_, fun g out => ?_,
    Kept.drive kept⟩
  · rw [Part.drive_track, own]
  · rw [Part.drive_codes, code]
  · rw [Part.drive_group, active g mem]
  · obtain ⟨-, -, players⟩ := players distinct
    obtain ⟨-, -, rests⟩ := players g m ⟨mem, moving⟩ move source
    obtain ⟨record, lanes⟩ := rests fun ⟨ln, lane, unheld, _⟩ => unheld (holding ln lane)
    rw [Part.drive_group, record]
    refine ⟨rfl, rfl, fun ln lane => ?_⟩
    rw [Part.drive_chan, lanes ln lane]
    rfl
  · exact (players distinct).of_same (fun _ => rfl) (fun _ => rfl) rfl rfl (fun _ => Part.drive_group ..) (fun _ => Part.drive_chan ..)
      (by rw [Part.drive_codes])
  · rw [Part.drive_track, tracks u other]
  · rw [Part.drive_group, groups g out]

end Sys2Proof.Machine
end

section
set_option Elab.async false
/-! PROOFS. A retarget, lane by lane (R85, R141, R10, R12, R98). -/

namespace Sys2Proof.Machine

/-! ### The channel of a lane after a new target -/

section Aimed
variable {x : Channel} {target : Int} {demand : Nat}

/-- R98: arming a watch touches the watch alone. -/
theorem Channel.watched_eq (x : Channel) : ∃ mark timer, x.watched = { x with watchArmed := true, progressMark := mark, progressTimer := timer } := by
  unfold Channel.watched
  split
  · exact ⟨_, _, rfl⟩
  · split <;> exact ⟨_, _, rfl⟩

/-- R85: the direction toward a target. -/
def Channel.wayTo (x : Channel) (target : Int) : Dir := if target - x.pos < 0 then .down else .up

theorem Channel.aimed_near (near : (target - x.pos).natAbs ≤ 5) :
    x.aimed target demand = { x.afterStop with watchArmed := false, progressMark := none, progressTimer := .stopped } := if_pos near

/-- R12: a stop by the state in which it finds a channel. -/
theorem Channel.afterStop_facts (x : Channel) :
    (x.state = .starting ∨ x.state = .moving →
        x.afterStop.state = .stopping ∧ x.afterStop.direction = none ∧ x.afterStop.pendingRelease = none)
      ∧ (x.state = .stopping → x.afterStop.state = .stopping ∧ x.afterStop.pendingRelease = none)
      ∧ (x.state = .holding → x.afterStop.state = .holding) := by
  unfold Channel.afterStop
  refine ⟨fun runs => ?_, fun stops => ?_, fun holds => ?_⟩
  · rw [if_pos runs]
    exact ⟨rfl, rfl, rfl⟩
  · rw [if_neg (by simp [stops]), if_pos stops]
    exact ⟨stops, rfl⟩
  · rw [if_neg (by simp [holds]), if_neg (by simp [holds])]
    exact holds

theorem Channel.wayTo_eq (x : Channel) (target : Int) : (if target < x.pos then Dir.down else Dir.up) = x.wayTo target := by
  unfold Channel.wayTo
  simp only [sub_neg]

@[simp] theorem Channel.watched_state (x : Channel) : x.watched.state = x.state := by
  obtain ⟨mark, timer, armed⟩ := x.watched_eq
  rw [armed]

@[simp] theorem Channel.watched_direction (x : Channel) : x.watched.direction = x.direction := by
  obtain ⟨mark, timer, armed⟩ := x.watched_eq
  rw [armed]

@[simp] theorem Channel.watched_demand (x : Channel) : x.watched.demand = x.demand := by
  obtain ⟨mark, timer, armed⟩ := x.watched_eq
  rw [armed]

@[simp] theorem Channel.watched_confirmMark (x : Channel) : x.watched.confirmMark = x.confirmMark := by
  obtain ⟨mark, timer, armed⟩ := x.watched_eq
  rw [armed]

@[simp] theorem Channel.watched_confirmTimer (x : Channel) : x.watched.confirmTimer = x.confirmTimer := by
  obtain ⟨mark, timer, armed⟩ := x.watched_eq
  rw [armed]

@[simp] theorem Channel.watched_pendingRelease (x : Channel) : x.watched.pendingRelease = x.pendingRelease := by
  obtain ⟨mark, timer, armed⟩ := x.watched_eq
  rw [armed]

section Far
variable (far : 5 < (target - x.pos).natAbs)
include far

theorem Channel.aimed_holding (holds : x.state = .holding) : x.aimed target demand = ({ x with
    state := .starting, direction := some (x.wayTo target), demand := demand, confirmMark := some x.raw, confirmTimer := some 600
    pendingRelease := none, reversalExtreme := some x.raw, settling := false, settleTimer := none } : Channel).watched := by
  unfold Channel.aimed
  dsimp only
  rw [if_neg (not_le.mpr far), Channel.wayTo_eq, holds]

theorem Channel.aimed_toward (runs : x.state = .starting ∨ x.state = .moving) (toward : x.direction = some (x.wayTo target)) :
    x.aimed target demand = ({ x with demand := demand } : Channel).watched := by
  unfold Channel.aimed
  dsimp only
  rw [if_neg (not_le.mpr far), Channel.wayTo_eq, if_pos toward]
  rcases runs with state | state <;> rw [state]

theorem Channel.aimed_away (runs : x.state = .starting ∨ x.state = .moving) (away : x.direction ≠ some (x.wayTo target)) :
    x.aimed target demand
      = ({ x.stopped with pendingRelease := some { direction := x.wayTo target, demand := demand } } : Channel).watched := by
  unfold Channel.aimed
  dsimp only
  rw [if_neg (not_le.mpr far), Channel.wayTo_eq, if_neg away]
  rcases runs with state | state <;> rw [state]

theorem Channel.aimed_stopping (stops : x.state = .stopping) (whole : x.fault = none) (moved : x.mover ≠ .none) :
    x.aimed target demand
      = ({ x with pendingRelease := some { direction := x.wayTo target, demand := demand } } : Channel).watched := by
  unfold Channel.aimed
  dsimp only
  rw [if_neg (not_le.mpr far), Channel.wayTo_eq,
    if_pos (show x.fault = none ∧ x.mover ≠ .none from ⟨whole, moved⟩), stops]

end Far

/-- R85, R10: a release toward a target off the arrival band, by the state in which it finds a channel. -/
theorem Channel.aimed_far (far : 5 < (target - x.pos).natAbs) :
    let z := x.aimed target demand
    let way := x.wayTo target
    z.watchArmed = true
      ∧ (x.state = .holding → z.state = .starting ∧ z.direction = some way ∧ z.demand = demand ∧ z.confirmMark = some x.raw
          ∧ z.confirmTimer = some 600)
      ∧ (x.state = .starting ∨ x.state = .moving →
          (x.direction = some way → z.state = x.state ∧ z.direction = some way ∧ z.demand = demand)
          ∧ (x.direction ≠ some way →
              z.state = .stopping ∧ z.direction = none ∧ z.pendingRelease = some { direction := way, demand := demand }))
      ∧ (x.state = .stopping → x.fault = none → x.mover ≠ .none →
          z.state = .stopping ∧ z.pendingRelease = some { direction := way, demand := demand }) := by
  dsimp only
  obtain ⟨y, released⟩ : ∃ y : Channel, x.aimed target demand = y.watched := ⟨_, if_neg (not_le.mpr far)⟩
  obtain ⟨mark, timer, armed⟩ := y.watched_eq
  refine ⟨by rw [released, armed], fun holds => ?_, fun runs => ⟨fun toward => ?_, fun away => ?_⟩, fun stops whole moved => ?_⟩
  · simp [Channel.aimed_holding far holds]
  · simp [Channel.aimed_toward far runs toward, toward]
  · simp [Channel.aimed_away far runs away, Channel.stopped]
  · simp [Channel.aimed_stopping far stops whole moved, stops]

end Aimed

/-! ### The entry of a lane after a new target -/

section Entry
variable {p : Part} {ln : Lane} {r : LaneRecord} {target : Int} {duration : Nat}

theorem Part.retargetedLane_near (near : (target - (p.chan ln.channel).pos).natAbs ≤ 5) :
    p.retargetedLane duration ln r target = { r with
      start := (p.chan ln.channel).pos, target := target, travel := target - (p.chan ln.channel).pos
      state := .arrived, confirmed := true, demand := 0, full := 0 } := by
  simp [Part.retargetedLane, Part.firedLane, near]

theorem Part.retargetedLane_far (far : 5 < (target - (p.chan ln.channel).pos).natAbs) :
    p.retargetedLane duration ln r target = { r with
      start := (p.chan ln.channel).pos, target := target, travel := target - (p.chan ln.channel).pos
      state := .driving
      confirmed := r.confirmed && ((p.chan ln.channel).state == .moving
        && (p.chan ln.channel).direction == some ((p.chan ln.channel).wayTo target))
      demand := if (p.chan ln.channel).kind = .variableSpeed
        then min (p.segmentSpeed duration ln target) (p.chan ln.channel).config.nominalSpeed else 0
      full := if (p.chan ln.channel).kind = .variableSpeed
        then min (p.segmentSpeed duration ln target) (p.chan ln.channel).config.nominalSpeed else 0 } := by
  have off : ¬(target - (p.chan ln.channel).pos).natAbs ≤ 5 := not_le.mpr far
  have way := (p.chan ln.channel).wayTo_eq target
  by_cases kind : (p.chan ln.channel).kind = .variableSpeed <;>
    simp [Part.retargetedLane, Part.firedLane, off, way, kind, Bool.and_assoc]

end Entry

theorem retargetGivesNewTargets : Claims.RetargetGivesNewTargets := by
  intro p t g w m move entries origins distinct barred q
  obtain ⟨stays, gives⟩ := p.retarget_retargeted t g w distinct fun m' move' => by
    rw [move] at move'
    cases move'
    exact entries
  refine ⟨Part.retarget_barred, fun clear => ?_⟩
  obtain ⟨record, chans⟩ := gives clear m move
  have lists : (q.group g).records = (((p.group g).lanes.zip (p.segmentTargets t g w)).zip m.lanes).map fun x =>
      p.retargetedLane w.duration x.1.1 x.2 x.1.2 := by
    unfold Group.records
    rw [record]
    rfl
  have targets : (p.segmentTargets t g w).length = (p.group g).lanes.length := by simp [Part.segmentTargets, origins]
  refine ⟨⟨fun h other => p.retarget_group_out g h _ other, fun c out => p.retarget_chan_out g _ c out⟩,
    (p.retarget_kept g _).mono (by simp), fun c out => p.retarget_chan_out g _ c out, ?_, ?_, fun n ln r target lane entry aim => ?_⟩
  · simp [lists, targets, entries]
  · rw [lists]
    exact record
  have pair := List.getElem?_zip_eq_some (z := (ln, target)).mpr ⟨lane, aim⟩
  have found : (q.group g).records[n]? = some (p.retargetedLane w.duration ln r target) := by
    rw [lists, List.getElem?_map, List.getElem?_zip_eq_some (z := ((ln, target), r)).mpr ⟨pair, entry⟩]
    rfl
  have follows := chans (ln, target) (List.mem_of_getElem? pair)
  refine ⟨fun near => ?_, fun far => ?_⟩
  · rw [found, Part.retargetedLane_near near]
    dsimp only at follows ⊢
    rw [follows, Channel.aimed_near near]
    exact ⟨rfl, rfl, rfl, Channel.afterStop_facts _⟩
  · have demand : (p.firedLane (p.segmentSpeed w.duration) ln target).demand
        = if (p.chan ln.channel).kind = .variableSpeed
          then min (p.segmentSpeed w.duration ln target) (p.chan ln.channel).config.nominalSpeed else 0 := by
      have off : ¬(target - (p.chan ln.channel).pos).natAbs ≤ 5 := not_le.mpr far
      by_cases kind : (p.chan ln.channel).kind = .variableSpeed <;> simp [Part.firedLane, off, kind]
    rw [found, Part.retargetedLane_far far]
    dsimp only at follows ⊢
    rw [follows, demand]
    exact ⟨rfl, Channel.aimed_far far⟩

end Sys2Proof.Machine
end

section
set_option Elab.async false
/-! PROOFS. A group fault that names a lane, and what a step leaves of a group that it does not touch (R80, R81, R101, R102). -/

namespace Sys2Proof.Machine

/-! ### A channel but for its watch baseline -/

/-- A channel that a change of the device mode may have touched: its watch baseline alone. -/
def Channel.Like (x y : Channel) : Prop := y = { x with watchBaseline := y.watchBaseline }

namespace Channel.Like
variable {x y z : Channel}

theorem refl (x : Channel) : x.Like x := rfl

theorem of_eq (h : y = x) : x.Like y := by rw [h]; exact refl x

theorem trans (h : x.Like y) (k : y.Like z) : x.Like z := by
  unfold Channel.Like at h k ⊢
  rw [k, h]

theorem state (h : x.Like y) : y.state = x.state := by
  unfold Channel.Like at h
  rw [h]

theorem fault (h : x.Like y) : y.fault = x.fault := by
  unfold Channel.Like at h
  rw [h]

theorem pos (h : x.Like y) : y.pos = x.pos := by
  unfold Channel.Like at h
  rw [h]
  rfl

end Channel.Like

theorem Part.raise_like (p : Part) (pair : NoticePair) (e : Event) (c : Chan) : (p.chan c).Like ((p.raise pair e).chan c) := by
  by_cases wakes : p.Wakes pair e
  · rw [Part.raise_wakes wakes]
    exact Part.changeMode_chan _ _ _ _
  · rw [Part.raise_sleeps wakes]
    exact .refl _

/-- R174: an event writes the code of its pair alone. -/
theorem Part.raise_codes (p : Part) (pair : NoticePair) (e : Event) :
    (p.raise pair e).codes = { p.codes.write pair e with mode := (p.raise pair e).codes.mode } := by
  by_cases wakes : p.Wakes pair e
  · have other : pair ≠ .mode := wakes.2.2.1
    rw [Part.raise_wakes wakes, Part.changeMode_codes]
    rfl
  · rw [Part.raise_sleeps wakes]
    rfl

/-! ### What a step spares -/

/-- A step leaves a group, a channel but for its watch baseline, and the fault codes. -/
structure Part.Spares (g : Grp) (c : Chan) (p q : Part) : Prop where
  group : q.group g = p.group g
  chan : (p.chan c).Like (q.chan c)
  faults : q.codes.faults = p.codes.faults

namespace Part.Spares
variable {p q r : Part} {g h : Grp} {c : Chan}

theorem refl (g : Grp) (c : Chan) (p : Part) : Part.Spares g c p p := ⟨rfl, .refl _, rfl⟩

theorem trans (s : Part.Spares g c p q) (k : Part.Spares g c q r) : Part.Spares g c p r :=
  ⟨k.group.trans s.group, s.chan.trans k.chan, k.faults.trans s.faults⟩

theorem raise (p : Part) {pair : NoticePair} (e : Event) (other : ∀ d, pair ≠ .channelFault d) :
    Part.Spares g c p (p.raise pair e) := by
  refine ⟨((p.raise_kept pair e).mono (cs := [.groups]) (by simp)).group g, p.raise_like pair e c, ?_⟩
  rw [Part.raise_codes]
  cases pair with
  | channelFault d => exact absurd rfl (other d)
  | mode | link | group | track | loadWatch => rfl

theorem modTrack (p : Part) (t : Trk) (f : Track → Track) : Part.Spares g c p (p.modTrack t f) := ⟨rfl, .refl _, rfl⟩

theorem modGroup (p : Part) (f : Group → Group) (other : g ≠ h) : Part.Spares g c p (p.modGroup h f) :=
  ⟨Part.modGroup_group_ne _ _ _ _ other, .refl _, rfl⟩

theorem judgeDisarm (p : Part) : p.judgeDisarm.codes.faults = p.codes.faults := by
  rcases p.judgeDisarm_eq with same | ⟨-, -, -, disarmed⟩
  · rw [same]
  · rw [disarmed, Part.changeMode_codes]
    rfl

theorem clearLanes (p : Part) (out : ∀ ln ∈ (p.group h).lanes, ln.channel ≠ c) : Part.Spares g c p (p.clearLanes h) := by
  refine ⟨Part.clearLanes_group .., .of_eq (p.clearLanes_chan_out h c out), ?_⟩
  exact Part.forEach_keeps (fun q => q.codes.faults) _ _ fun q ln _ => judgeDisarm _

theorem exitCore (p : Part) (other : g ≠ h) (out : ∀ ln ∈ (p.group h).lanes, ln.channel ≠ c) :
    Part.Spares g c p (p.exitCore h) := by
  have cleared := clearLanes (g := g) p out
  have changed (f : Group → Group) := cleared.trans (modGroup (p.clearLanes h) f other)
  have told (f : Group → Group) (e : Event) :=
    (changed f).trans (raise ((p.clearLanes h).modGroup h f) (pair := .group h) e fun d => by simp)
  unfold Part.exitCore
  split
  · exact refl g c p
  · dsimp only
    split
    · split
      · exact told _ _
      · exact changed _
    · exact told _ _
    · exact changed _
    · exact told _ _

theorem enterStopping (p : Part) (reason : StopReason) (other : g ≠ h) (out : ∀ ln ∈ (p.group h).lanes, ln.channel ≠ c) :
    Part.Spares g c p (p.enterStopping h reason) :=
  ⟨by rw [Part.enterStopping_group, if_neg other], .of_eq (p.enterStopping_chan_out h reason c out),
    congrArg EventCodes.faults (p.enterStopping_kept h reason .codes (by simp))⟩

theorem endOf (p : Part) (reason : StopReason) (other : g ≠ h) (out : ∀ ln ∈ (p.group h).lanes, ln.channel ≠ c) :
    Part.Spares g c p (p.endOf h reason) := by
  have stopped := enterStopping p reason other out
  unfold Part.endOf
  split
  · split
    · exact stopped.trans (exitCore _ other (by rw [Part.enterStopping_lanes]; exact out))
    · exact stopped
  · exact refl g c p

/-- R84: the ends of moves spare a group that is not among them, and a channel of none of them. -/
theorem endAll (p : Part) (l : List Grp) (reason : StopReason) (idle : (p.group g).active = false)
    (out : ∀ h ∈ l, (p.group h).active = true → ∀ ln ∈ (p.group h).lanes, ln.channel ≠ c) :
    Part.Spares g c p (p.endAll l reason) := by
  induction l generalizing p with
  | nil => exact refl g c p
  | cons h l ih =>
    have beside := Part.Beside.endOf p h reason
    have step : Part.Spares g c p (p.endOf h reason) := by
      cases active : (p.group h).active with
      | false =>
        rw [Part.endOf_inactive active]
        exact refl g c p
      | true => exact endOf p reason (fun same => by rw [same, active] at idle; cases idle) (out h List.mem_cons_self active)
    refine step.trans (ih _ (by rw [step.group, idle]) fun i mem active ln lane => ?_)
    have other : i ≠ h := fun same => by rw [same, Part.endOf_active] at active; cases active
    rw [beside.groups i other] at active lane
    exact out i (List.mem_cons_of_mem _ mem) active ln lane

end Part.Spares

/-! ### A group fault that names a lane (R80) -/

section GroupFault
variable {p : Part} {g : Grp} {n : Nat} {ln : Lane} {cause : GroupFault} {k : FaultKind}

/-- R80, R101: the part once a group has stopped for a fault that its lane's channel has in its record. -/
def Part.groupFailed (p : Part) (g : Grp) (c : Chan) (cause : GroupFault) (k : FaultKind) : Part :=
  (((p.modGroup g fun x => { x with fault := some cause }).enterStopping g .fault).modChan c fun x =>
    (x.enterFault k).faultState).raise (.channelFault c) (.fault k)

/-- A channel that a group fault names: it runs or stops for its group, without a record. -/
structure Channel.Named (x : Channel) (g : Grp) : Prop where
  present : x.kind ≠ .absent
  moved : x.mover = .group g
  runs : x.state = .starting ∨ x.state = .moving ∨ x.state = .stopping
  whole : x.fault = none

/-- R12: what a stop makes of a channel that runs or stops. -/
theorem Channel.stop_facts {x : Channel} (runs : x.state = .starting ∨ x.state = .moving ∨ x.state = .stopping) :
    x.stop.state = .stopping ∧ x.stop.pendingRelease = none ∧ x.stop.fault = x.fault ∧ x.stop.mover = x.mover ∧ x.stop.kind = x.kind
      ∧ x.stop.position = x.position ∧ x.stop.load = x.load := by
  rw [Channel.stop_eq]
  unfold Channel.afterStop
  rcases runs with state | state | state
  · rw [if_pos (.inl state)]
    exact ⟨rfl, rfl, rfl, rfl, rfl, rfl, rfl⟩
  · rw [if_pos (.inr state)]
    exact ⟨rfl, rfl, rfl, rfl, rfl, rfl, rfl⟩
  · rw [if_neg (by simp [state]), if_pos state]
    exact ⟨state, rfl, rfl, rfl, rfl, rfl, rfl⟩

/-- R17, R101: a channel that has been stopped for its group's fault takes it into its record. -/
theorem Channel.Named.failed {x : Channel} (h : x.Named g) (k : FaultKind) :
    (x.stop.enterFault k).faultState = { x.stop with
      fault := some { first := k, position := x.position, load := x.load, further := [] } } := by
  obtain ⟨state, pending, fault, -, -, position, load⟩ := Channel.stop_facts h.runs
  unfold Channel.enterFault Channel.faultState
  rw [fault, h.whole]
  dsimp only
  rw [state, position, load]
  dsimp only
  rw [pending]

theorem Part.failing_group (p : Part) (g h : Grp) (cause : GroupFault) :
    ((p.modGroup g fun x => { x with fault := some cause }).enterStopping g .fault).group h =
      if h = g then { p.group g with
        state := .stopping, controlTimer := none, fault := some cause
        move := (p.group g).move.map fun m => { m with reason := some .fault } }
      else p.group h := by
  rw [Part.enterStopping_group]
  split
  · rw [Part.modGroup_group_self]
  · next other => exact Part.modGroup_group_ne _ _ _ _ other

theorem Part.failing_lanes (p : Part) (g : Grp) (cause : GroupFault) :
    ((p.modGroup g fun x => { x with fault := some cause }).group g).lanes = (p.group g).lanes := by
  rw [Part.modGroup_group_self]

theorem Part.failing_chan (mem : ln ∈ (p.group g).lanes) :
    ((p.modGroup g fun x => { x with fault := some cause }).enterStopping g .fault).chan ln.channel = (p.chan ln.channel).stop :=
  Part.enterStopping_chan_in _ g .fault ln (by rw [Part.failing_lanes]; exact mem)

theorem Part.groupFailed_group (h : Grp) {c : Chan} :
    (p.groupFailed g c cause k).group h =
      if h = g then { p.group g with
        state := .stopping, controlTimer := none, fault := some cause
        move := (p.group g).move.map fun m => { m with reason := some .fault } }
      else p.group h := by
  rw [Part.groupFailed, ((Part.raise_kept _ _ _).mono (cs := [.groups]) (by simp)).group, Part.modChan_group, Part.failing_group]

theorem Part.groupFailed_kept {c : Chan} : Kept p (p.groupFailed g c cause k) [.ports, .samples, .queues, .clock, .tracks] :=
  ((((Part.modGroup_kept p g _).mono (by simp)).trans ((Part.enterStopping_kept _ g .fault).mono (by simp))).trans
    ((Part.modChan_kept _ c _).mono (by simp))).trans ((Part.raise_kept _ _ _).mono (by simp))

/-- R17, R101, R102: the channel that the fault names. -/
theorem Part.groupFailed_named (named : (p.chan ln.channel).Named g) (mem : ln ∈ (p.group g).lanes) :
    ({ (p.chan ln.channel).stop with
        fault := some { first := k, position := (p.chan ln.channel).position, load := (p.chan ln.channel).load, further := [] } } :
      Channel).Like ((p.groupFailed g ln.channel cause k).chan ln.channel) := by
  have before : (((p.modGroup g fun x => { x with fault := some cause }).enterStopping g .fault).modChan ln.channel fun x =>
      (x.enterFault k).faultState).chan ln.channel = { (p.chan ln.channel).stop with
        fault := some { first := k, position := (p.chan ln.channel).position, load := (p.chan ln.channel).load, further := [] } } := by
    rw [Part.modChan_chan_self, Part.failing_chan mem, named.failed]
  rw [← before]
  exact Part.raise_like _ _ _ _

theorem Part.groupFailed_state (named : (p.chan ln.channel).Named g) (mem : ln ∈ (p.group g).lanes) :
    ((p.groupFailed g ln.channel cause k).chan ln.channel).state = .stopping :=
  (Part.groupFailed_named named mem).state.trans (Channel.stop_facts named.runs).1

theorem Part.groupFailed_out {c d : Chan} (out : ∀ ln ∈ (p.group g).lanes, ln.channel ≠ d) (other : d ≠ c) :
    (p.chan d).Like ((p.groupFailed g c cause k).chan d) := by
  have before : (((p.modGroup g fun x => { x with fault := some cause }).enterStopping g .fault).modChan c fun x =>
      (x.enterFault k).faultState).chan d = p.chan d := by
    rw [Part.modChan_chan_ne _ _ _ _ other, Part.enterStopping_chan_out _ _ _ _ (by rw [Part.failing_lanes]; exact out),
      Part.modGroup_chan]
  rw [← before]
  exact Part.raise_like _ _ _ _

theorem Vector.getElem_set_self_chan {α : Type} (v : Vector α 16) (c : Chan) (x : α) : (v.set c x)[c] = x := by simp

theorem Part.groupFailed_code {c : Chan} : (p.groupFailed g c cause k).codes.faults[c] = some (.fault k) := by
  rw [Part.groupFailed, Part.raise_codes]
  exact Vector.getElem_set_self_chan ..

/-- R80, R79: a group fault that names a lane with a running channel. The group waits in STOPPING for that channel. -/
theorem Part.raiseGroupFault_eq (named : (p.chan ln.channel).Named g) (found : (p.group g).lanes[n]? = some ln)
    (moves : (p.group g).move ≠ none) (mild : k.isDevice = false) :
    p.raiseGroupFault g n cause k = p.groupFailed g ln.channel cause k := by
  have mem := List.mem_of_getElem? found
  have chan := Part.failing_chan (cause := cause) mem
  have group := p.failing_group g g cause
  rw [if_pos rfl] at group
  obtain ⟨-, -, fault, mover, kind, -, -⟩ := Channel.stop_facts named.runs
  rw [named.moved] at mover
  have unheld : ((p.chan ln.channel).stop).holdsFault k = false := by
    unfold Channel.holdsFault
    rw [fault, named.whole]
  have present : (p.chan ln.channel).stop.configured = true := by
    unfold Channel.configured
    rw [kind]
    exact bne_iff_ne.mpr named.present
  have fresh : ((p.chan ln.channel).stop.configured && !(p.chan ln.channel).stop.holdsFault k) = true := by rw [present, unheld]; rfl
  have reason : ((p.group g).move.map fun m => { m with reason := some StopReason.fault }).bind (·.reason) = some .fault := by
    cases move : (p.group g).move with
    | none => exact absurd move moves
    | some m => rfl
  have reached : ((p.modGroup g fun x => { x with fault := some cause }).enterStopping g .fault).faultReaches ln.channel k
      = p.groupFailed g ln.channel cause k := by
    unfold Part.faultReaches Part.groupFailed
    rw [chan, if_pos fresh, mover, mild]
    dsimp only
    unfold Part.memberFault
    rw [Part.modChan_group, group]
    dsimp only
    rw [if_pos reason]
    rfl
  have waits : ¬(p.groupFailed g ln.channel cause k).atRest g = true := fun rests => by
    unfold Part.atRest at rests
    rw [Part.groupFailed_group, if_pos rfl, List.all_eq_true] at rests
    have rest := rests ln mem
    rw [Part.groupFailed_state named mem] at rest
    exact Bool.false_ne_true rest
  unfold Part.raiseGroupFault
  rw [found]
  dsimp only
  rw [reached]
  exact if_neg fun exits => waits (by simpa using (Bool.and_eq_true_iff.mp exits).2)

end GroupFault

theorem groupFaultNamesTheLane : Claims.GroupFaultNamesTheLane := by
  intro p g n ln m cause k kinds found move present moved runs whole q
  have named : (p.chan ln.channel).Named g := ⟨present, moved, .inr (.inl runs), whole⟩
  have mild : k.isDevice = false := by
    simp only [List.mem_cons, List.not_mem_nil, or_false, Prod.mk.injEq] at kinds
    rcases kinds with ⟨-, rfl⟩ | ⟨-, rfl⟩ | ⟨-, rfl⟩ <;> rfl
  have failed : q = p.groupFailed g ln.channel cause k :=
    Part.raiseGroupFault_eq named found (by rw [move]; simp) mild
  have group := p.groupFailed_group (g := g) (cause := cause) (k := k) (c := ln.channel) g
  rw [if_pos rfl, move] at group
  have chan := Part.groupFailed_named (cause := cause) (k := k) named (List.mem_of_getElem? found)
  rw [failed, group, Part.groupFailed_state named (List.mem_of_getElem? found), chan.fault]
  exact ⟨rfl, rfl, rfl, rfl, rfl, rfl, Part.groupFailed_code⟩

end Sys2Proof.Machine
end

section
set_option Elab.async false
/-! PROOFS. The expiry of a segment: the next segment, and the lag that stops one group (R144, R146, R80). -/

namespace Sys2Proof.Machine

/-! ### What follows the expiry (R146) -/

section After
variable {p q : Part} {t : Trk} {g h : Grp} {w v : Waypoint} {rest : List Waypoint} {n : Nat} {c : Chan}

/-- R146: a track whose list has run dry. -/
def Track.starve (x : Track) : Track := { x with current := none, state := .starved, starvationTimer := some 10000 }

theorem Part.afterSegment_dry (goes : w.last = false) (dry : (p.track t).waypoints = []) :
    p.afterSegment t w = (p.modTrack t Track.starve).raise (.track t) .trackStarved := by
  unfold Part.afterSegment
  rw [if_neg (by rw [goes]; decide), if_pos (by rw [dry]; rfl)]
  rfl

theorem Part.afterSegment_next (goes : w.last = false) (list : (p.track t).waypoints = v :: rest) :
    p.afterSegment t w = p.startSegment t := by
  unfold Part.afterSegment
  rw [if_neg (by rw [goes]; decide), if_neg (by rw [list]; exact Bool.false_ne_true)]

theorem Part.raise_trackCode (p : Part) (t : Trk) (e : Event) : (p.raise (.track t) e).codes.tracks[t] = some e := by
  rw [Part.raise_codes]
  exact Vector.getElem_set_self_trk ..

/-- R144: a segment that starts leaves a group that it does not reach, and the channels of the groups that it does not. -/
theorem Part.Spares.startSegment (list : (p.track t).waypoints = v :: rest) (idle : (p.group g).active = false)
    (out : ∀ h ∈ (p.track t).playing, (p.group h).active = true → ∀ ln ∈ (p.group h).lanes, ln.channel ≠ c) :
    Part.Spares g c p (p.startSegment t) := by
  obtain ⟨others, outside, -⟩ := Part.startSegment_given list
  refine ⟨others g fun given => ?_, .of_eq (outside c fun h given => out h given.1 given.2), ?_⟩
  · rw [given.2] at idle
    cases idle
  · exact congrArg EventCodes.faults ((Part.startSegment_kept list).mono (cs := [.codes]) (by simp) .codes (by simp))

theorem Part.Spares.playEnded (p : Part) (t : Trk) (reason : StopReason) (e : Event) (idle : (p.group g).active = false)
    (out : ∀ h ∈ (p.track t).playing, (p.group h).active = true → ∀ ln ∈ (p.group h).lanes, ln.channel ≠ c) :
    Part.Spares g c p (p.playEnded t reason e) :=
  ((Part.Spares.modTrack p t _).trans (Part.Spares.endAll (p.modTrack t Track.clearPlay) _ _ idle out)).trans
    (Part.Spares.raise _ _ fun d => by simp)

/-- R146: what follows the expiry of a segment leaves a group that is not PREPARING or RUNNING. -/
theorem Part.Spares.afterSegment (p : Part) (t : Trk) (w : Waypoint) (idle : (p.group g).active = false)
    (out : ∀ h ∈ (p.track t).playing, (p.group h).active = true → ∀ ln ∈ (p.group h).lanes, ln.channel ≠ c) :
    Part.Spares g c p (p.afterSegment t w) := by
  cases last : w.last with
  | true =>
    rw [Part.afterSegment_last last]
    split
    · rw [Part.endPlay_eq]
      refine (Part.Spares.modTrack p t _).trans (Part.Spares.playEnded _ t _ _ idle fun h mem => out h ?_)
      rw [Part.modTrack_track_self] at mem
      exact mem
    · exact .modTrack p t _
  | false =>
    cases list : (p.track t).waypoints with
    | nil =>
      rw [Part.afterSegment_dry last list]
      exact (Part.Spares.modTrack p t _).trans (.raise _ _ fun d => by simp)
    | cons v rest =>
      rw [Part.afterSegment_next last list]
      exact .startSegment list idle out

end After

/-! ### The expiry with no lane lagging -/

theorem segmentExpiryTakesTheNextSegment : Claims.SegmentExpiryTakesTheNextSegment := by
  intro t w s free out current playing keeps
  have takes := exec_segmentTimerExpiry free out current
  rw [Part.segmentExpires_near keeps playing] at takes
  have track : (s.part.segmentOut t).track t = { s.part.track t with segmentTimer := none } := Part.modTrack_track_self ..
  refine ⟨fun last awaited => ⟨_, takes, ?_⟩, fun goes dry up => ⟨_, takes, ?_⟩, fun v rest goes list => ⟨_, takes, ?_⟩⟩ <;>
    dsimp only
  · have waits : ¬∀ g ∈ ((s.part.segmentOut t).track t).playing, g ∈ ((s.part.segmentOut t).track t).arrived := by
      rw [track]
      obtain ⟨g, mem, missing⟩ := awaited
      exact fun all => missing (all g mem)
    rw [Part.afterSegment_last last, if_neg waits, Part.modTrack_modTrack]
    refine ⟨?_, fun u other => ?_, Kept.drive ((Part.modTrack_kept _ _ _).mono (by simp))⟩
    · rw [Part.drive_track, Part.modTrack_track_self]
    · rw [Part.drive_track, Part.modTrack_track_ne _ _ _ _ other]
  · have awake : ((s.part.segmentOut t).modTrack t Track.starve).ctl.mode ≠ .parked := up
    rw [Part.afterSegment_dry goes (by rw [track]; exact dry), Part.raise_awake awake, Part.modTrack_modTrack]
    refine ⟨?_, fun u other => ?_, ?_, Kept.drive (((Part.modTrack_kept _ _ _).mono (by simp)).trans
      ((Part.post_kept _ _ _).mono (by simp)))⟩
    · rw [Part.drive_track, Part.post_track, Part.modTrack_track_self]
      rfl
    · rw [Part.drive_track, Part.post_track, Part.modTrack_track_ne _ _ _ _ other]
    · rw [Part.drive_codes]
      exact Vector.getElem_set_self_trk ..
  · have list' : ((s.part.segmentOut t).track t).waypoints = v :: rest := by
      rw [track]
      exact list
    have given := Part.startSegment_given list'
    have kept := ((Part.modTrack_kept s.part t _).mono (by simp)).trans (Part.startSegment_kept list')
    rw [Part.afterSegment_next goes list']
    refine ⟨?_, fun u other => ?_, fun g out => ?_, ?_, Kept.drive (kept.mono (by simp))⟩
    · rw [Part.drive_track, Part.startSegment_track list', if_pos rfl, track]
      rfl
    · rw [Part.drive_track, Part.startSegment_track list', if_neg other, Part.modTrack_track_ne _ _ _ _ other]
    · rw [Part.drive_group, given.1 g fun reached => out (by rw [track] at reached; exact reached.1)]
      rfl
    · refine given.of_same (fun _ => rfl) (fun _ => rfl) ?_ ?_ (fun _ => Part.drive_group ..) fun _ => Part.drive_chan ..
      · rw [track]
      · rw [track]

/-! ### The group that lags -/

section Lagging
variable {p q : Part} {t : Trk} {g h : Grp} {w v : Waypoint} {rest : List Waypoint} {n : Nat} {ln : Lane} {m : MoveRecord}

/-- R146: no lane of a group stands farther than its level limit from its target. -/
def Part.Near (p : Part) (t : Trk) (w : Waypoint) (h : Grp) : Prop :=
  ∀ lt ∈ (p.group h).lanes.zip (p.segmentTargets t h w), ((p.chan lt.1.channel).pos - lt.2).natAbs ≤ (p.group h).levelLimit

/-- R141: the origins and targets of a group are read from the positions of its channels. -/
theorem Part.originList_like (group : q.group h = p.group h) (like : ∀ ln ∈ (p.group h).lanes, (p.chan ln.channel).Like (q.chan ln.channel))
    (origins : (q.track t).origins = (p.track t).origins) : q.originList t h = p.originList t h := by
  unfold Part.originList
  rw [origins, group]
  cases (p.track t).origins[h] with
  | some o => rfl
  | none => exact List.map_congr_left fun ln mem => (like ln mem).pos

theorem Part.Near.like (near : p.Near t w h) (group : q.group h = p.group h)
    (like : ∀ ln ∈ (p.group h).lanes, (p.chan ln.channel).Like (q.chan ln.channel))
    (origins : (q.track t).origins = (p.track t).origins) : q.Near t w h := by
  unfold Part.Near Part.segmentTargets at near ⊢
  rw [group, Part.originList_like group like origins]
  intro lt mem
  rw [(like lt.1 (List.of_mem_zip mem).1).pos]
  exact near lt mem

/-- R146, R80: the part once a group has stopped for the lag of a lane, with the track's event raised. -/
def Part.lagged (p : Part) (t : Trk) (g : Grp) (n : Nat) (c : Chan) : Part :=
  (p.groupFailed g c (.trackLag n) .trackLag).raise (.track t) (.trackLag g n)

theorem Part.judgeLag_lagged (active : (p.group g).active = true) (named : (p.chan ln.channel).Named g)
    (found : (p.group g).lanes[n]? = some ln) (moves : (p.group g).move ≠ none) (lags : p.lagging t g w = some n) :
    p.judgeLag t w g = p.lagged t g n ln.channel := by
  unfold Part.judgeLag Part.lagged
  rw [if_pos active, lags]
  dsimp only
  rw [Part.raiseGroupFault_eq named found moves rfl]

theorem Part.lagged_spares (p : Part) (t : Trk) (g : Grp) (n : Nat) (c : Chan) (h : Grp) (d : Chan) :
    Part.Spares h d (p.groupFailed g c (.trackLag n) .trackLag) (p.lagged t g n c) := .raise _ _ fun d => by simp

theorem Part.lagged_group (p : Part) (t : Trk) (g : Grp) (n : Nat) (c : Chan) (h : Grp) :
    (p.lagged t g n c).group h =
      if h = g then { p.group g with
        state := .stopping, controlTimer := none, fault := some (.trackLag n)
        move := (p.group g).move.map fun m => { m with reason := some .fault } }
      else p.group h := by
  rw [(p.lagged_spares t g n c h c).group, Part.groupFailed_group]

theorem Part.lagged_lanes (p : Part) (t : Trk) (g : Grp) (n : Nat) (c : Chan) (h : Grp) :
    ((p.lagged t g n c).group h).lanes = (p.group h).lanes := by
  rw [Part.lagged_group]
  split
  · next same => rw [same]
  · rfl

theorem Part.lagged_kept (p : Part) (t : Trk) (g : Grp) (n : Nat) (c : Chan) :
    Kept p (p.lagged t g n c) [.ports, .samples, .queues, .clock, .tracks] :=
  Part.groupFailed_kept.trans ((Part.raise_kept _ _ _).mono (by simp))

theorem Part.lagged_out {d : Chan} (mem : ln ∈ (p.group g).lanes) (out : ∀ k ∈ (p.group g).lanes, k.channel ≠ d) :
    (p.chan d).Like ((p.lagged t g n ln.channel).chan d) :=
  (Part.groupFailed_out out fun same => out ln mem same.symm).trans (p.lagged_spares t g n ln.channel g d).chan

/-- Awake, the stop of a group leaves the channels of other groups as they were. -/
theorem Part.lagged_out_awake (up : p.ctl.mode ≠ .parked) {d : Chan} (mem : ln ∈ (p.group g).lanes)
    (out : ∀ k ∈ (p.group g).lanes, k.channel ≠ d) : (p.lagged t g n ln.channel).chan d = p.chan d := by
  have stopped := (((p.modGroup_kept g fun x => { x with fault := some (.trackLag n) }).mono (cs := [.ctl]) (by simp)).trans
    ((Part.enterStopping_kept _ g .fault).mono (by simp))).trans
    ((Part.modChan_kept _ ln.channel fun x => (x.enterFault .trackLag).faultState).mono (by simp))
  have awake := up
  rw [← stopped .ctl (by simp)] at awake
  unfold Part.lagged Part.groupFailed
  rw [Part.raise_awake awake, Part.raise_awake (by rw [Part.post_ctl]; exact awake), Part.post_chan, Part.post_chan,
    Part.modChan_chan_ne _ _ _ _ fun same => out ln mem same.symm,
    Part.enterStopping_chan_out _ _ _ _ (by rw [Part.failing_lanes]; exact out), Part.modGroup_chan]

theorem Part.PlaysApart.lagged (apart : p.PlaysApart t) (g : Grp) (n : Nat) (c : Chan) : (p.lagged t g n c).PlaysApart t := by
  obtain ⟨once, distinct, entries⟩ := apart
  have track := ((p.lagged_kept t g n c).mono (cs := [.tracks]) (by simp)).track t
  unfold Part.PlaysApart Part.originList at *
  simp only [track, Part.lagged_lanes]
  refine ⟨once, distinct, fun h mem => ?_⟩
  obtain ⟨origins, lanes⟩ := entries h mem
  refine ⟨?_, fun m move => ?_⟩
  · cases own : (p.track t).origins[h] with
    | none => exact List.length_map ..
    | some o =>
      rw [own] at origins
      exact origins
  · rw [Part.lagged_group] at move
    split at move
    · next same =>
      obtain ⟨m', move', rfl⟩ := Option.map_eq_some_iff.mp move
      exact lanes m' (same ▸ move')
    · exact lanes m move

end Lagging

/-- R146: the lag of one lane, judged among the groups that play. -/
theorem Part.judgeLags_lagged {p : Part} {t : Trk} {g : Grp} {w : Waypoint} {n : Nat} {ln : Lane} {l : List Grp} (mem : g ∈ l)
    (once : l.Nodup) (distinct : ((l.flatMap fun h => (p.group h).lanes).map (·.channel)).Nodup)
    (lane : ln ∈ (p.group g).lanes) (judged : p.judgeLag t w g = p.lagged t g n ln.channel)
    (near : ∀ h ∈ l, h ≠ g → p.Near t w h) :
    p.forEach l (fun q h => q.judgeLag t w h) = p.lagged t g n ln.channel := by
  obtain ⟨a, b, rfl⟩ := List.append_of_mem mem
  have apart (h : Grp) (here : h ∈ a ++ g :: b) (other : h ≠ g) := lanes_apart distinct mem here other
  obtain ⟨-, once', disjoint⟩ := List.nodup_append.mp once
  have before : p.forEach a (fun q h => q.judgeLag t w h) = p :=
    Part.forEach_inv (P := fun q => q = p) rfl fun q h here same => by
      rw [same]
      exact Part.judgeLag_near (near h (List.mem_append_left _ here) (disjoint h here g List.mem_cons_self))
  have after : (p.lagged t g n ln.channel).forEach b (fun q h => q.judgeLag t w h) = p.lagged t g n ln.channel :=
    Part.forEach_inv (P := fun q => q = p.lagged t g n ln.channel) rfl fun q h here same => by
      have other : h ≠ g := fun e => (List.nodup_cons.mp once').1 (e ▸ here)
      have mem' : h ∈ a ++ g :: b := List.mem_append_right _ (List.mem_cons_of_mem _ here)
      rw [same]
      refine Part.judgeLag_near ((near h mem' other).like ?_ (fun k there => ?_) ?_)
      · rw [Part.lagged_group, if_neg other]
      · exact Part.lagged_out lane fun i own e => apart h mem' other k there i own e.symm
      · rw [((p.lagged_kept t g n ln.channel).mono (cs := [.tracks]) (by simp)).track t]
  rw [Part.forEach_append, before, Part.forEach_cons, judged, after]

theorem segmentExpiryJudgesLag : Claims.SegmentExpiryJudgesLag := by
  intro t w g n ln m s free out current playing mem once distinct active move found present moved runs whole far lags first near
  have named : (s.part.chan ln.channel).Named g := ⟨present, moved, runs.elim .inl fun moving => .inr (.inl moving), whole⟩
  have lane := List.mem_of_getElem? found
  have targets := s.part.segmentOut_targets t
  obtain ⟨lt, aim, beyond⟩ := lags
  have lagging : (s.part.segmentOut t).lagging t g w = some n := by
    rw [Part.lagging_eq, targets, List.findIdx?_eq_some_iff_getElem]
    obtain ⟨short, here⟩ := List.getElem?_eq_some_iff.mp aim
    refine ⟨short, ?_, fun j before => ?_⟩
    · rw [← here] at beyond
      exact decide_eq_true beyond
    · have within : ¬far g j := first j before
      rw [decide_eq_true_iff]
      exact fun e => within ⟨_, List.getElem?_eq_getElem (before.trans short), e⟩
  have judged := Part.judgeLag_lagged (p := s.part.segmentOut t) active named found (by rw [Part.modTrack_group, move]; simp) lagging
  have loop := Part.judgeLags_lagged (p := s.part.segmentOut t) mem once distinct lane judged fun h here other lt there => by
    rw [targets] at there
    obtain ⟨j, aim'⟩ := List.mem_iff_getElem?.mp there
    have within : ¬far h j := near h here other j
    exact not_lt.mp fun e => within ⟨lt, aim', e⟩
  have track : ((s.part.segmentOut t).lagged t g n ln.channel).track t = { s.part.track t with segmentTimer := none } := by
    rw [((Part.lagged_kept _ t g n _).mono (cs := [.tracks]) (by simp)).track, Part.modTrack_track_self]
  have takes := exec_segmentTimerExpiry free out current
  unfold Part.segmentExpires at takes
  dsimp only at takes
  rw [loop, track, if_pos playing] at takes
  refine ⟨_, takes, ?_⟩
  dsimp only
  have group := (s.part.segmentOut t).lagged_group t g n ln.channel g
  rw [if_pos rfl, Part.modTrack_group, move] at group
  have apart (h : Grp) (here : h ∈ (s.part.track t).playing) (other : h ≠ g) := lanes_apart distinct mem here other
  have reached (h : Grp) (moving : (((s.part.segmentOut t).lagged t g n ln.channel).group h).active = true) : h ≠ g := fun e => by
    rw [e, group] at moving
    cases moving
  have spares := Part.Spares.afterSegment (g := g) (c := ln.channel) ((s.part.segmentOut t).lagged t g n ln.channel) t w
    (by rw [group]; rfl) fun h here moving k there => by
      rw [track] at here
      rw [Part.lagged_lanes] at there
      exact apart h here (reached h moving) k there ln lane
  have chan := ((Part.groupFailed_named (p := s.part.segmentOut t) (cause := .trackLag n) (k := .trackLag) named lane).trans
    (Part.lagged_spares _ t g n ln.channel g ln.channel).chan).trans spares.chan
  have code : (((s.part.segmentOut t).lagged t g n ln.channel).afterSegment t w).codes.faults[ln.channel]
      = some (.fault .trackLag) := by
    rw [spares.faults, (Part.lagged_spares _ t g n ln.channel g ln.channel).faults, Part.groupFailed_code]
  have told : ((s.part.segmentOut t).lagged t g n ln.channel).codes.tracks[t] = some (.trackLag g n) := Part.raise_trackCode ..
  simp only [Part.drive_group, Part.drive_chan, Part.drive_codes, Part.drive_track]
  rw [spares.group, chan.state.trans (Channel.stop_facts named.runs).1, chan.fault, group]
  refine ⟨rfl, rfl, rfl, rfl, rfl, rfl, code, fun ⟨last, missing⟩ => ?_, fun v rest goes list => ?_, fun goes dry => ?_⟩
  · have waits : ¬∀ h ∈ (((s.part.segmentOut t).lagged t g n ln.channel).track t).playing,
        h ∈ (((s.part.segmentOut t).lagged t g n ln.channel).track t).arrived := by
      rw [track]
      exact fun all => missing (all g mem)
    rw [Part.afterSegment_last last, if_neg waits]
    refine ⟨told, ?_⟩
    rw [Part.modTrack_track_self, track]
  · have list' : (((s.part.segmentOut t).lagged t g n ln.channel).track t).waypoints = v :: rest := by
      rw [track]
      exact list
    rw [Part.afterSegment_next goes list']
    refine ⟨?_, ?_, fun up plays h here other moving => ?_⟩
    · have codes := (Part.startSegment_kept list').mono (cs := [.codes]) (by simp) .codes (by simp)
      exact (congrArg (fun c : EventCodes => c.tracks[t]) codes).trans told
    · rw [Part.startSegment_track list', if_pos rfl, track]
      rfl
    · have same := (s.part.segmentOut t).lagged_group t g n ln.channel h
      rw [if_neg other, Part.modTrack_group] at same
      obtain ⟨-, -, given⟩ := Part.startSegment_given list'
      have plays' : (s.part.segmentOut t).PlaysApart t := by
        have lists (i : Grp) : (s.part.segmentOut t).originList t i = s.part.originList t i :=
          (s.part.segmentOut_agrees t i).originList (by rw [Part.modTrack_track_self])
        unfold Part.PlaysApart
        simpa only [lists, Part.modTrack_track_self, Part.modTrack_group] using plays
      refine (given (plays'.lagged g n ln.channel) h ⟨by rw [track]; exact here, by rw [same]; exact moving⟩).of_same same (by rw [track])
        (fun k there => ?_) (Part.drive_group ..) fun _ _ => Part.drive_chan ..
      exact Part.lagged_out_awake (p := s.part.segmentOut t) up lane fun i own e => apart h here other k there i own e.symm
  · rw [Part.afterSegment_dry goes (by rw [track]; exact dry)]
    exact Part.raise_trackCode ..

/-- Settles O57. -/
theorem segmentExpiryGivesTheNextSegment : Obligations.SegmentExpiryGivesTheNextSegment :=
  ⟨segmentExpiryTakesTheNextSegment, segmentExpiryJudgesLag, retargetGivesNewTargets⟩

end Sys2Proof.Machine
end

section
set_option Elab.async false
/-! PROOFS. The steps of a control period (R69 to R77). -/

namespace Sys2Proof.Machine

/-! ### What a mover's orders leave of a channel -/

/-- A channel that its mover has steered: nothing but its motion and its progress watch may have changed. -/
def Channel.Steered (x y : Channel) : Prop :=
  y = { x with
    state := y.state, direction := y.direction, demand := y.demand, confirmMark := y.confirmMark, confirmTimer := y.confirmTimer
    pendingRelease := y.pendingRelease, history := y.history, standstillTimer := y.standstillTimer, settling := y.settling
    settleTimer := y.settleTimer, reversalExtreme := y.reversalExtreme, watchArmed := y.watchArmed
    progressMark := y.progressMark, progressTimer := y.progressTimer }

namespace Channel.Steered
variable {x y z : Channel}

theorem refl (x : Channel) : x.Steered x := rfl

theorem trans (h : x.Steered y) (k : y.Steered z) : x.Steered z := by
  unfold Channel.Steered at h k ⊢
  rw [k, h]

theorem ite {c : Prop} [Decidable c] (h : x.Steered y) (k : x.Steered z) : x.Steered (if c then y else z) := by
  split
  · exact h
  · exact k

section Facts
variable (h : x.Steered y)
include h

theorem kind : y.kind = x.kind := by
  unfold Channel.Steered at h
  rw [h]

theorem load : y.load = x.load := by
  unfold Channel.Steered at h
  rw [h]

theorem mover : y.mover = x.mover := by
  unfold Channel.Steered at h
  rw [h]

theorem fault : y.fault = x.fault := by
  unfold Channel.Steered at h
  rw [h]

theorem pos : y.pos = x.pos := by
  unfold Channel.Steered at h
  rw [h]
  rfl

theorem position : y.position = x.position := by
  unfold Channel.Steered at h
  rw [h]
  rfl

end Facts
end Channel.Steered

theorem Channel.syncWatch_steered (x : Channel) : x.Steered x.syncWatch := by
  unfold Channel.syncWatch
  split
  · cases x.progressTimer with
    | stopped => exact rfl
    | running n => exact .refl x
    | expired => exact .refl x
  · exact rfl

theorem Channel.armWatch_steered (on : Bool) (x : Channel) : x.Steered (x.armWatch on) :=
  .trans (y := { x with watchArmed := on }) rfl (Channel.syncWatch_steered _)

theorem Channel.Steered.synced {x y : Channel} (h : x.Steered y) : x.Steered y.syncWatch := h.trans y.syncWatch_steered

theorem Channel.toStopping_steered (x : Channel) : x.Steered x.toStopping := by
  unfold Channel.toStopping
  exact .synced rfl

theorem Channel.start_steered (d : Dir) (v : Nat) (x : Channel) : x.Steered (x.start d v) := by
  unfold Channel.start
  exact .synced rfl

theorem Channel.stop_steered (x : Channel) : x.Steered x.stop := by
  rw [Channel.stop_eq]
  exact .ite rfl (.ite rfl (.refl x))

theorem Channel.release_steered (d : Dir) (v : Nat) (x : Channel) : x.Steered (x.release d v) := by
  unfold Channel.release
  cases x.state with
  | idle | holding => exact x.start_steered d v
  | starting | moving => exact .ite rfl (x.toStopping_steered.trans rfl)
  | stopping => exact .ite rfl (.refl x)
  | absent | faulted => exact .refl x

theorem Channel.trim_steered (t : Trim) (r : LaneRecord) (x : Channel) : x.Steered (x.trim t r) := by
  cases t with
  | keep => exact .refl x
  | hold => exact Channel.Steered.trans (.ite x.stop_steered (x.release_steered _ _)) (Channel.armWatch_steered _ _)
  | resume => exact (x.release_steered _ _).trans (Channel.armWatch_steered _ _)

/-! ### The state of a channel that is trimmed or stopped -/

theorem Channel.stop_holding {x : Channel} (unheld : x.state ≠ .holding) : x.stop.state ≠ .holding := by
  unfold Channel.stop
  cases state : x.state <;> simp_all

theorem Channel.release_holding (d : Dir) (v : Nat) {x : Channel} (unheld : x.state ≠ .holding) :
    (x.release d v).state ≠ .holding := by
  unfold Channel.release
  cases state : x.state with
  | holding => exact absurd state unheld
  | idle => simp
  | starting | moving | stopping =>
    dsimp only
    split <;> simp [state]
  | absent | faulted => simp [state]

/-- R71, R72: no trim puts a channel in HOLDING. -/
theorem Channel.trim_holding (t : Trim) (r : LaneRecord) {x : Channel} (unheld : x.state ≠ .holding) :
    (x.trim t r).state ≠ .holding := by
  cases t with
  | keep => exact unheld
  | hold =>
    unfold Channel.trim
    dsimp only
    rw [Channel.armWatch_state]
    split
    · exact Channel.stop_holding unheld
    · exact Channel.release_holding _ _ unheld
  | resume =>
    unfold Channel.trim
    dsimp only
    rw [Channel.armWatch_state]
    exact Channel.release_holding _ _ unheld

theorem Channel.release_runs (d : Dir) (v : Nat) {x : Channel} (runs : x.state = .starting ∨ x.state = .moving) :
    (x.release d v).state = .starting ∨ (x.release d v).state = .moving ∨ (x.release d v).state = .stopping := by
  unfold Channel.release
  rcases runs with state | state <;> rw [state] <;> dsimp only <;> split <;> simp

/-- R71, R72: a trim of a running channel leaves it running or stopping. -/
theorem Channel.trim_runs (t : Trim) (r : LaneRecord) {x : Channel} (runs : x.state = .starting ∨ x.state = .moving) :
    (x.trim t r).state = .starting ∨ (x.trim t r).state = .moving ∨ (x.trim t r).state = .stopping := by
  cases t with
  | keep => exact runs.elim .inl fun moving => .inr (.inl moving)
  | hold =>
    unfold Channel.trim
    dsimp only
    rw [Channel.armWatch_state]
    split
    · exact .inr (.inr (Channel.stop_facts (runs.elim .inl fun moving => .inr (.inl moving))).1)
    · exact Channel.release_runs _ _ runs
  | resume =>
    unfold Channel.trim
    dsimp only
    rw [Channel.armWatch_state]
    exact Channel.release_runs _ _ runs

/-! ### The beginning of the period: the timer, and RUNNING (R69, R76) -/

section Period
variable {p q : Part} {g : Grp} {m : MoveRecord} {n : Nat} {ln : Lane} {r : LaneRecord} {lead : Int}

/-- R76: the state of a group once its lanes' confirmations are told. -/
def Group.ranState (x : Group) (m : MoveRecord) : GroupState :=
  if x.state = .preparing ∧ ∀ r ∈ m.lanes, r.state = .arrived ∨ r.confirmed = true then .running else x.state

theorem Group.startRunning_eq {x : Group} (move : x.move = some m) : x.startRunning = { x with state := x.ranState m } := by
  have all : (m.lanes.all fun r => r.state == .arrived || r.confirmed) = true ↔ ∀ r ∈ m.lanes, r.state = .arrived ∨ r.confirmed = true := by
    simp
  unfold Group.startRunning Group.ranState
  split
  · next m' move' =>
    obtain rfl : m' = m := by rw [move] at move'; exact (Option.some.inj move').symm
    simp only [Bool.and_eq_true_iff, decide_eq_true_iff, all]
    split <;> rfl
  · next none_ =>
    rw [move] at none_
    cases none_

theorem Part.modGroup_modGroup (p : Part) (g : Grp) (f h : Group → Group) :
    (p.modGroup g f).modGroup g h = p.modGroup g fun x => h (f x) := by
  simp only [Part.modGroup, Part.setGroup_group_self]
  simp [Part.setGroup]

/-- R69, R76: the part after step 1 of a control period, its timer restarted. -/
def Part.timed (p : Part) (g : Grp) (m : MoveRecord) : Part :=
  p.modGroup g fun x => { x with state := x.ranState m, controlTimer := some 20 }

theorem Part.timed_group : (p.timed g m).group g =
    { p.group g with state := (p.group g).ranState m, controlTimer := some 20 } := Part.modGroup_group_self ..

theorem Part.timed_lanes : ((p.timed g m).group g).lanes = (p.group g).lanes := by rw [Part.timed_group]

/-- R70: the leads are read from the lanes and the positions of their channels. -/
theorem Part.leads_timed : (p.timed g m).leads g m = p.leads g m := by
  unfold Part.leads Part.progress
  rw [Part.timed_lanes]
  rfl

/-- R69, R71: the part after step 3 of a control period. -/
def Part.trimmed (p : Part) (g : Grp) (m : MoveRecord) : Part := (p.timed g m).trimStep g m (p.leads g m)

theorem Part.period_eq (move : (p.group g).move = some m) :
    p.period g = (p.trimmed g m).superviseLanes g m (p.leads g m) := by
  have start : (p.modGroup g fun x => { x with controlTimer := some Config.controlMs }).modGroup g Group.startRunning
      = p.timed g m := by
    rw [Part.modGroup_modGroup]
    exact congrArg (p.setGroup g) (Group.startRunning_eq (x := { p.group g with controlTimer := some Config.controlMs }) move)
  unfold Part.period
  dsimp only
  rw [start, Part.timed_group, move]
  dsimp only
  rw [Part.leads_timed]
  rfl

/-! ### Trim hold (R71, R72) -/

/-- R71, R72: what trim hold decides for a lane with its lead. -/
abbrev Part.trimFor (p : Part) (g : Grp) (r : LaneRecord) (lead : Int) : Trim := trimOf (p.group g).syncWindow r.state lead

/-- R71, R72: the lane entries after trim hold. -/
def Part.trimmedLanes (p : Part) (g : Grp) (m : MoveRecord) : List LaneRecord :=
  (m.lanes.zip (trims (p.group g).syncWindow m (p.leads g m))).map fun rt => rt.1.trim rt.2

theorem Part.trims_getElem? (entry : m.lanes[n]? = some r) (leads : (p.leads g m)[n]? = some lead) :
    (trims (p.group g).syncWindow m (p.leads g m))[n]? = some (p.trimFor g r lead) := by
  unfold trims
  rw [List.getElem?_map, List.getElem?_zip_eq_some (z := (r, lead)).mpr ⟨entry, leads⟩]
  rfl

theorem Part.trimmedLanes_getElem? (entry : m.lanes[n]? = some r) (leads : (p.leads g m)[n]? = some lead) :
    (p.trimmedLanes g m)[n]? = some (r.trim (p.trimFor g r lead)) := by
  unfold Part.trimmedLanes
  rw [List.getElem?_map, List.getElem?_zip_eq_some (z := (r, p.trimFor g r lead)).mpr ⟨entry, Part.trims_getElem? entry leads⟩]
  rfl

theorem Part.trimmedLanes_length (entries : m.lanes.length = (p.group g).lanes.length) :
    (p.trimmedLanes g m).length = m.lanes.length := by
  simp [Part.trimmedLanes, trims, Part.leads_length, entries]

theorem Part.trimmed_group_self : (p.trimmed g m).group g = { p.group g with
    state := (p.group g).ranState m, controlTimer := some 20, move := some { m with lanes := p.trimmedLanes g m } } := by
  unfold Part.trimmed
  rw [Part.trimStep_group, if_pos rfl, Part.timed_group]
  rfl

theorem Part.trimmed_group_ne {h : Grp} (other : h ≠ g) : (p.trimmed g m).group h = p.group h := by
  unfold Part.trimmed
  rw [Part.trimStep_group, if_neg other]
  exact Part.modGroup_group_ne _ _ _ _ other

theorem Part.trimmed_lanes : ((p.trimmed g m).group g).lanes = (p.group g).lanes := by rw [Part.trimmed_group_self]

theorem Part.trimmed_kept : Kept p (p.trimmed g m) [.ctl, .link .a, .link .b, .ports, .samples, .queues, .clock, .tracks, .codes] :=
  ((Part.modGroup_kept p g _).mono (by simp)).trans (((Part.modGroup_kept _ g _).mono (by simp)).trans
    ((Part.forEach_modChan_kept _ _ (fun lrt : Lane × LaneRecord × Trim => lrt.1.channel) fun lrt => Channel.trim lrt.2.2 lrt.2.1).mono
      (by simp)))

theorem Part.trimmed_chan_out {c : Chan} (out : ∀ ln ∈ (p.group g).lanes, ln.channel ≠ c) : (p.trimmed g m).chan c = p.chan c := by
  refine (Part.forEach_modChan_out _ _ (fun lrt : Lane × LaneRecord × Trim => lrt.1.channel)
    (fun lrt => Channel.trim lrt.2.2 lrt.2.1) c fun lrt mem => out lrt.1 ?_).trans rfl
  have lane := (List.of_mem_zip mem).1
  rwa [Part.timed_lanes] at lane

theorem Part.trimmed_chan_in (distinct : ((p.group g).lanes.map (·.channel)).Nodup) (lane : (p.group g).lanes[n]? = some ln)
    (entry : m.lanes[n]? = some r) (leads : (p.leads g m)[n]? = some lead) :
    (p.trimmed g m).chan ln.channel = (p.chan ln.channel).trim (p.trimFor g r lead) r := by
  have mem : (ln, r, p.trimFor g r lead) ∈ ((p.timed g m).group g).lanes.zip
      (m.lanes.zip (trims ((p.timed g m).group g).syncWindow m (p.leads g m))) := by
    rw [Part.timed_group]
    exact List.mem_of_getElem? (List.getElem?_zip_eq_some (z := (ln, r, _)).mpr
      ⟨lane, List.getElem?_zip_eq_some (z := (r, _)).mpr ⟨entry, Part.trims_getElem? entry leads⟩⟩)
  refine (Part.forEach_modChan_in _ _ (fun lrt : Lane × LaneRecord × Trim => lrt.1.channel)
    (fun lrt => Channel.trim lrt.2.2 lrt.2.1) ?_ mem).trans rfl
  refine Lane.zip_channels_nodup ?_ _
  rw [Part.timed_lanes]
  exact distinct

/-- R71, R72: trim hold steers the lane channels, and no other. -/
theorem Part.trimmed_steered (p : Part) (g : Grp) (m : MoveRecord) (c : Chan) : (p.chan c).Steered ((p.trimmed g m).chan c) := by
  refine Part.forEach_inv (P := fun q => (p.chan c).Steered (q.chan c)) (.refl _) fun q lrt _ steered => steered.trans ?_
  by_cases same : c = lrt.1.channel
  · rw [same, Part.modChan_chan_self]
    exact Channel.trim_steered _ _ _
  · rw [Part.modChan_chan_ne _ _ _ _ same]
    exact .refl _

end Period

end Sys2Proof.Machine
end

section
set_option Elab.async false
/-! PROOFS. Arrivals, and the steady control period (R69, R71 to R77). -/

namespace Sys2Proof.Machine

/-! ### Arrivals (R75) -/

/-- R75, R76: the entry of a lane after step 6 of a control period. -/
def LaneRecord.arrive (r : LaneRecord) (pos : Int) : LaneRecord :=
  if r.reaches pos then { r with state := .arrived, confirmed := true } else r

/-- R75: the channel of a lane after step 6 of a control period. -/
def Channel.arrive (r : LaneRecord) (x : Channel) : Channel := if r.reaches x.pos then x.stop.armWatch false else x

theorem Channel.arrive_holding (r : LaneRecord) {x : Channel} (unheld : x.state ≠ .holding) : (x.arrive r).state ≠ .holding := by
  unfold Channel.arrive
  split
  · rw [Channel.armWatch_state]
    exact Channel.stop_holding unheld
  · exact unheld

theorem Part.modGroup_same {p : Part} {g : Grp} {f : Group → Group} (same : f (p.group g) = p.group g) : p.modGroup g f = p := by
  have groups : (p.modGroup g f).groups = p.groups := Part.groups_ext fun h => by
    by_cases e : h = g
    · rw [e, Part.modGroup_group_self, same]
    · rw [Part.modGroup_group_ne _ _ _ _ e]
  have parts : p.modGroup g f = { p with groups := (p.modGroup g f).groups } := rfl
  rw [parts, groups]

section Arrivals
variable {p q : Part} {g : Grp} {m : MoveRecord} {n : Nat} {ln : Lane} {r : LaneRecord}

theorem Part.arriveLane_eq (move : (p.group g).move = some m) (entry : m.lanes[n]? = some r) :
    p.arriveLane g (n, ln) = (p.modGroup g fun x => { x with
      move := some { m with lanes := m.lanes.set n (r.arrive (p.chan ln.channel).pos) } }).modChan ln.channel (Channel.arrive r) := by
  unfold Part.arriveLane
  rw [move]
  dsimp only
  rw [entry]
  dsimp only
  by_cases reaches : r.reaches (p.chan ln.channel).pos = true
  · rw [if_pos reaches, LaneRecord.arrive, if_pos reaches]
    refine congrArg (Part.setChan _ ln.channel) ?_
    exact (if_pos reaches).symm
  · have stays : r.arrive (p.chan ln.channel).pos = r := if_neg reaches
    have same : m.lanes.set n r = m.lanes := by
      obtain ⟨short, here⟩ := List.getElem?_eq_some_iff.mp entry
      rw [← here]
      exact List.set_getElem_self short
    rw [if_neg reaches, stays, same, Part.modGroup_same (by rw [← move]), Part.modChan_self (f := Channel.arrive r) (if_neg reaches)]

/-- R75: what step 6 makes of the lanes of a list, each with its index. -/
structure Part.Arrives (p q : Part) (g : Grp) (m : MoveRecord) (l : List (Nat × Lane)) : Prop where
  group : q.group g = { p.group g with move := some { m with lanes := (q.group g).records } }
  length : (q.group g).records.length = m.lanes.length
  others : ∀ i, i ∉ l.map (·.1) → (q.group g).records[i]? = m.lanes[i]?
  entries : ∀ i ln r, (i, ln) ∈ l → m.lanes[i]? = some r → (q.group g).records[i]? = some (r.arrive (p.chan ln.channel).pos)
  chans : ∀ i ln r, (i, ln) ∈ l → m.lanes[i]? = some r → q.chan ln.channel = (p.chan ln.channel).arrive r
  outside : ∀ c, c ∉ l.map (·.2.channel) → q.chan c = p.chan c
  groups : ∀ h, h ≠ g → q.group h = p.group h
  kept : Kept p q [.ctl, .link .a, .link .b, .ports, .samples, .queues, .clock, .tracks, .codes]

theorem Part.arrivals_loop (l : List (Nat × Lane)) (p : Part) (m : MoveRecord) (move : (p.group g).move = some m)
    (short : ∀ il ∈ l, il.1 < m.lanes.length) (once : (l.map (·.1)).Nodup) (distinct : (l.map (·.2.channel)).Nodup) :
    p.Arrives (p.forEach l fun q il => q.arriveLane g il) g m l := by
  induction l generalizing p m with
  | nil =>
    have records : (p.group g).records = m.lanes := by rw [Group.records, move]; rfl
    refine ⟨?_, by rw [Part.forEach_nil, records], fun i _ => by rw [Part.forEach_nil, records], fun _ _ _ mem => (nomatch mem),
      fun _ _ _ mem => (nomatch mem), fun _ _ => rfl, fun _ _ => rfl, .refl _ _⟩
    rw [Part.forEach_nil, records]
    exact congrArg (fun k => { p.group g with move := k }) move
  | cons il l ih =>
    obtain ⟨i, ln⟩ := il
    rw [List.map_cons, List.nodup_cons] at once distinct
    have inside : i < m.lanes.length := short (i, ln) List.mem_cons_self
    have step := Part.arriveLane_eq (ln := ln) move (List.getElem?_eq_getElem inside)
    generalize made : ({ m with lanes := m.lanes.set i (m.lanes[i].arrive (p.chan ln.channel).pos) } : MoveRecord) = m' at step
    have chan (c : Chan) (other : c ≠ ln.channel) : (p.arriveLane g (i, ln)).chan c = p.chan c := by
      rw [step, Part.modChan_chan_ne _ _ _ _ other]
      rfl
    have group (h : Grp) (other : h ≠ g) : (p.arriveLane g (i, ln)).group h = p.group h := by
      rw [step, Part.modChan_group, Part.modGroup_group_ne _ _ _ _ other]
    have own : (p.arriveLane g (i, ln)).group g = { p.group g with move := some m' } := by
      rw [step, Part.modChan_group, Part.modGroup_group_self]
    have lanes' : m'.lanes = m.lanes.set i (m.lanes[i].arrive (p.chan ln.channel).pos) := by rw [← made]
    obtain ⟨record, length, others, entries, chans, outside, groups, kept⟩ := ih (p.arriveLane g (i, ln)) m' (by rw [own])
      (fun jl mem => by rw [lanes', List.length_set]; exact short jl (List.mem_cons_of_mem _ mem)) once.2 distinct.2
    have elsewhere (j : Nat) (k : Lane) (mem : (j, k) ∈ l) : j ≠ i ∧ k.channel ≠ ln.channel :=
      ⟨fun e => once.1 (e ▸ List.mem_map_of_mem (f := (·.1)) mem), fun e => distinct.1 (e ▸ List.mem_map_of_mem (f := (·.2.channel)) mem)⟩
    rw [Part.forEach_cons]
    refine ⟨?_, ?_, fun j out => ?_, fun j k r mem entry => ?_, fun j k r mem entry => ?_, fun c out => ?_, fun h other => ?_, ?_⟩
    · rw [record, own, ← made]
      rfl
    · rw [length, lanes', List.length_set]
    · rw [List.map_cons, List.mem_cons, not_or] at out
      rw [others j out.2, lanes', List.getElem?_set_ne fun e => out.1 e.symm]
    · rcases List.mem_cons.mp mem with same | later
      · cases same
        rw [others i once.1, lanes', List.getElem?_set_self inside]
        rw [List.getElem?_eq_getElem inside] at entry
        cases entry
        rfl
      · obtain ⟨index, channel⟩ := elsewhere j k later
        rw [entries j k r later (by rw [lanes', List.getElem?_set_ne fun e => index e.symm]; exact entry), chan _ channel]
    · rcases List.mem_cons.mp mem with same | later
      · cases same
        rw [List.getElem?_eq_getElem inside] at entry
        cases entry
        rw [outside _ distinct.1, step, Part.modChan_chan_self]
        rfl
      · obtain ⟨index, channel⟩ := elsewhere j k later
        rw [chans j k r later (by rw [lanes', List.getElem?_set_ne fun e => index e.symm]; exact entry), chan _ channel]
    · rw [List.map_cons, List.mem_cons, not_or] at out
      rw [outside c out.2, chan c out.1]
    · rw [groups h other, group h other]
    · refine .trans ?_ kept
      rw [step]
      exact ((Part.modGroup_kept p g _).mono (by simp)).trans ((Part.modChan_kept _ _ _).mono (by simp))

/-- R75: step 6, by lane. -/
theorem Part.arrivals_arrive (move : (p.group g).move = some m) (entries : m.lanes.length = (p.group g).lanes.length)
    (distinct : ((p.group g).lanes.map (·.channel)).Nodup) :
    p.Arrives (p.arrivals g) g m ((p.group g).lanes.zipIdx.map fun li => (li.2, li.1)) := by
  refine Part.arrivals_loop _ p m move (fun il mem => ?_) ?_ ?_
  · obtain ⟨li, here, rfl⟩ := List.mem_map.mp mem
    have found := List.mk_mem_zipIdx_iff_getElem?.mp here
    have := (List.getElem?_eq_some_iff.mp found).1
    omega
  · rw [List.map_map]
    exact List.nodup_zipIdx_map_snd _
  · have same : (((p.group g).lanes.zipIdx.map fun li => (li.2, li.1)).map fun il => il.2.channel)
        = (p.group g).lanes.map (·.channel) := by
      rw [List.map_map, ← List.zipIdx_map_fst 0 (p.group g).lanes, List.map_map, List.zipIdx_map_fst]
      rfl
    rw [same]
    exact distinct

end Arrivals

end Sys2Proof.Machine
end

section
set_option Elab.async false
/-! PROOFS. The steady control period, and the releases of trim hold (R10, R69, R71, R72, R75, R76). -/

namespace Sys2Proof.Machine

/-! ### The entry of a lane -/

section Entry
variable {r : LaneRecord} {window : Nat} {lead pos : Int}

theorem LaneRecord.reaches_iff : r.reaches pos = true ↔ r.state ≠ .arrived ∧ r.remaining pos ≤ 5 := by
  unfold LaneRecord.reaches LaneRecord.remaining
  rw [Bool.and_eq_true_iff, bne_iff_ne, decide_eq_true_iff]
  rfl

/-- R71, R72: trim hold keeps a lane's way, and whether it has arrived. -/
theorem LaneRecord.trim_reaches : (r.trim (trimOf window r.state lead)).reaches pos = r.reaches pos := by
  have arrived : (r.trim (trimOf window r.state lead)).state = .arrived ↔ r.state = .arrived := by
    unfold trimOf
    cases state : r.state with
    | arrived => exact iff_of_true state rfl
    | driving | trimmed =>
      dsimp only
      split <;> simp [LaneRecord.trim, state]
  have way : (r.trim (trimOf window r.state lead)).remaining pos = r.remaining pos := by
    cases trimOf window r.state lead <;> rfl
  rw [Bool.eq_iff_iff, LaneRecord.reaches_iff, LaneRecord.reaches_iff, way]
  exact and_congr_left fun _ => not_congr arrived

theorem LaneRecord.afterPeriod_eq : r.afterPeriod window lead pos = (r.trim (trimOf window r.state lead)).arrive pos := by
  unfold LaneRecord.afterPeriod LaneRecord.arrive
  rw [LaneRecord.trim_reaches]
  exact if_congr LaneRecord.reaches_iff.symm rfl rfl

end Entry

/-! ### The part after a steady period -/

section Steady
variable {p q : Part} {g : Grp} {m : MoveRecord} {n : Nat} {ln : Lane} {r : LaneRecord} {lead : Int}

/-- R69, R71, R72, R75, R76: what the steps of a steady control period make of a group and its channels, lane by lane. -/
structure Part.Controlled (p q : Part) (g : Grp) (m : MoveRecord) : Prop where
  group : q.group g = { p.group g with
    state := (p.group g).ranState m, controlTimer := some 20, move := some { m with lanes := (q.group g).records } }
  length : (q.group g).records.length = m.lanes.length
  entries : ∀ (n : Nat) (ln : Lane) (r : LaneRecord) (lead : Int), (p.group g).lanes[n]? = some ln → m.lanes[n]? = some r → (p.leads g m)[n]? = some lead →
    (q.group g).records[n]? = some ((r.trim (p.trimFor g r lead)).arrive (p.chan ln.channel).pos)
  chans : ∀ (n : Nat) (ln : Lane) (r : LaneRecord) (lead : Int), (p.group g).lanes[n]? = some ln → m.lanes[n]? = some r → (p.leads g m)[n]? = some lead →
    q.chan ln.channel = ((p.chan ln.channel).trim (p.trimFor g r lead) r).arrive (r.trim (p.trimFor g r lead))
  alone : p.Alone q g
  kept : Kept p q [.ctl, .link .a, .link .b, .ports, .samples, .queues, .clock, .tracks, .codes]

theorem Part.Controlled.afterPeriod (h : p.Controlled q g m) (lane : (p.group g).lanes[n]? = some ln)
    (entry : m.lanes[n]? = some r) (leads : (p.leads g m)[n]? = some lead) :
    (q.group g).records[n]? = some (r.afterPeriod (p.group g).syncWindow lead (p.chan ln.channel).pos) := by
  rw [LaneRecord.afterPeriod_eq]
  exact h.entries n ln r lead lane entry leads

section Lanes
variable (entries : m.lanes.length = (p.group g).lanes.length)
include entries

theorem Part.leads_found (lane : (p.group g).lanes[n]? = some ln) : ∃ lead, (p.leads g m)[n]? = some lead := by
  have inside : n < (p.leads g m).length := by
    have := (List.getElem?_eq_some_iff.mp lane).1
    rw [Part.leads_length]
    omega
  exact ⟨_, List.getElem?_eq_getElem inside⟩

theorem Part.entry_found (lane : (p.group g).lanes[n]? = some ln) : ∃ r, m.lanes[n]? = some r := by
  have inside : n < m.lanes.length := by
    have := (List.getElem?_eq_some_iff.mp lane).1
    omega
  exact ⟨_, List.getElem?_eq_getElem inside⟩

theorem Part.controlled (distinct : ((p.group g).lanes.map (·.channel)).Nodup) :
    p.Controlled ((p.trimmed g m).arrivals g) g m := by
  have own := p.trimmed_group_self (g := g) (m := m)
  have length := p.trimmedLanes_length entries
  have move : ((p.trimmed g m).group g).move = some { m with lanes := p.trimmedLanes g m } := by rw [own]
  obtain ⟨record, length', -, records, chans, outside, groups, kept⟩ := Part.arrivals_arrive move
    (by rw [Part.trimmed_lanes, ← entries]; exact length) (by rw [Part.trimmed_lanes]; exact distinct)
  rw [Part.trimmed_lanes] at records chans outside
  have named {n : Nat} {ln : Lane} (lane : (p.group g).lanes[n]? = some ln) :
      (n, ln) ∈ (p.group g).lanes.zipIdx.map fun li => (li.2, li.1) :=
    List.mem_map.mpr ⟨(ln, n), List.mk_mem_zipIdx_iff_getElem?.mpr lane, rfl⟩
  refine ⟨?_, length'.trans length, fun n ln r lead lane entry leads => ?_, fun n ln r lead lane entry leads => ?_,
    ⟨fun h other => ?_, fun c out => ?_⟩, Part.trimmed_kept.trans kept⟩
  · rw [record, own]
    rfl
  · rw [records n ln _ (named lane) (Part.trimmedLanes_getElem? entry leads),
      (p.trimmed_steered g m ln.channel).pos]
  · rw [chans n ln _ (named lane) (Part.trimmedLanes_getElem? entry leads), Part.trimmed_chan_in distinct lane entry leads]
  · rw [groups h other, Part.trimmed_group_ne other]
  · rw [outside c fun mem => ?_, Part.trimmed_chan_out out]
    obtain ⟨il, here, same⟩ := List.mem_map.mp mem
    obtain ⟨li, there, rfl⟩ := List.mem_map.mp here
    exact out li.1 (List.mem_of_getElem? (List.mk_mem_zipIdx_iff_getElem?.mp there)) same

end Lanes

/-- R69, R73, R74: a period that finds no lane out of level and no load shifted comes to steps 6 and 7. -/
theorem Part.period_steady (move : (p.group g).move = some m) (steady : p.Steady g m) :
    p.period g = ((p.trimmed g m).arrivals g).completion g := by
  obtain ⟨level, unshifted⟩ := steady
  have synced : (p.trimmed g m).syncLost g (p.leads g m) = none := by
    unfold Part.syncLost
    rw [List.findIdx?_eq_none_iff, Part.trimmed_group_self]
    exact fun x mem => decide_eq_false (not_lt.mpr (level x mem))
  have still : (p.trimmed g m).loadShift g m = none := by
    unfold Part.loadShift
    refine ite_eq_right_iff.mpr fun _ => ?_
    rw [List.findIdx?_eq_none_iff, Part.trimmed_group_self]
    intro lr mem
    dsimp only
    rw [(p.trimmed_steered g m lr.1.channel).load]
    exact unshifted lr mem
  rw [Part.period_eq move]
  unfold Part.superviseLanes
  rw [synced]
  dsimp only
  rw [still]

theorem Part.moveDone_iff (move : (p.group g).move = some m) :
    p.moveDone g = true ↔ (∀ r ∈ m.lanes, r.state = .arrived) ∧ ∀ ln ∈ (p.group g).lanes, (p.chan ln.channel).state = .holding := by
  unfold Part.moveDone Part.allArrived
  rw [move]
  simp

/-- R69: a steady period that ends no move. -/
theorem Part.period_controlled (move : (p.group g).move = some m) (entries : m.lanes.length = (p.group g).lanes.length)
    (distinct : ((p.group g).lanes.map (·.channel)).Nodup) (steady : p.Steady g m) (unfinished : p.Unfinished g m) :
    p.Controlled (p.period g) g m := by
  have controlled := Part.controlled entries distinct
  have going : ¬((p.trimmed g m).arrivals g).moveDone g = true := by
    have group := controlled.group
    rw [Part.moveDone_iff (m := { m with lanes := (((p.trimmed g m).arrivals g).group g).records }) (by rw [group]; rfl), not_and]
    intro arrived holding
    rw [group] at holding
    rcases unfinished with ⟨⟨ln, r⟩, pair, driving, far⟩ | ⟨ln, lane, unheld⟩
    · obtain ⟨n, pair⟩ := List.mem_iff_getElem?.mp pair
      obtain ⟨lane, entry⟩ := List.getElem?_zip_eq_some.mp pair
      obtain ⟨lead, leads⟩ := Part.leads_found entries lane
      have here := arrived _ (List.mem_of_getElem? (controlled.afterPeriod lane entry leads))
      unfold LaneRecord.afterPeriod at here
      dsimp only at here
      rw [if_neg fun reaches => absurd reaches.2 (not_le.mpr far)] at here
      unfold trimOf at here
      cases state : r.state with
      | arrived => exact driving state
      | driving | trimmed =>
        rw [state] at here
        dsimp only at here
        split at here
        · cases here
        · rw [LaneRecord.trim, state] at here
          cases here
    · obtain ⟨n, found⟩ := List.mem_iff_getElem?.mp lane
      obtain ⟨lead, leads⟩ := Part.leads_found entries found
      obtain ⟨r, entry⟩ := Part.entry_found entries found
      have here := holding ln lane
      rw [controlled.chans n ln r lead found entry leads] at here
      exact Channel.arrive_holding _ (Channel.trim_holding _ _ unheld) here
  have stays : p.period g = (p.trimmed g m).arrivals g := by
    rw [Part.period_steady move steady]
    exact if_neg going
  rw [stays]
  exact controlled

end Steady

theorem exec_controlPeriod {g : Grp} {s : State} (free : s.part.ctl.held = false) (out : (s.part.group g).controlTimer = some 0) :
    exec (.controlPeriod g) s = .next { s with part := (s.part.period g).drive } := by
  have taking : exec (.controlPeriod g) s = execControlPeriod g s := rfl
  rw [taking, execControlPeriod, State.take_next, Part.awake_of_free free, out]
  rfl

/-! ### The releases of trim hold (R10, R71, R72, R98) -/

section Trimmed
variable {x : Channel} {d : Dir} {v : Nat} {r : LaneRecord} {t : Trim}

theorem Channel.armWatch_false (x : Channel) :
    x.armWatch false = { x with watchArmed := false, progressMark := none, progressTimer := .stopped } := rfl

theorem Channel.armWatch_eq (on : Bool) (x : Channel) :
    ∃ mark timer, x.armWatch on = { x with watchArmed := on, progressMark := mark, progressTimer := timer } :=
  ⟨_, _, Channel.syncWatch_eq { x with watchArmed := on }⟩

theorem Channel.toStopping_eq (x : Channel) : x.toStopping = x.stopped := by
  simp [Channel.toStopping, Channel.stopped, Channel.syncWatch, Config.standstillMs]

theorem Channel.release_toward (runs : x.state = .starting ∨ x.state = .moving) (toward : x.direction = some d) :
    x.release d v = { x with demand := x.capDemand v } := by
  unfold Channel.release
  rcases runs with state | state <;> rw [state] <;> exact if_pos toward

theorem Channel.release_away (runs : x.state = .starting ∨ x.state = .moving) (away : x.direction ≠ some d) :
    x.release d v = { x.stopped with pendingRelease := some { direction := d, demand := v } } := by
  rw [← Channel.toStopping_eq]
  unfold Channel.release
  rcases runs with state | state <;> rw [state] <;> exact if_neg away

theorem Channel.release_held (holds : x.state = .holding) : x.release d v = x.start d v := by
  unfold Channel.release
  rw [holds]

theorem Channel.release_stopping (stops : x.state = .stopping) (whole : x.fault = none) (moved : x.mover ≠ .none) :
    x.release d v = { x with pendingRelease := some { direction := d, demand := v } } := by
  unfold Channel.release
  rw [stops]
  exact if_pos (by simp [whole, moved])

/-- R71, R72: a trim leaves a running channel on its way but for its demand, or stops it. -/
theorem Channel.trim_running (t : Trim) (r : LaneRecord) (runs : x.state = .starting ∨ x.state = .moving) :
    (∃ demand armed mark timer, x.trim t r = { x with
      demand := demand, watchArmed := armed, progressMark := mark, progressTimer := timer })
    ∨ ∃ release armed mark timer, x.trim t r = { x.stopped with
      pendingRelease := release, watchArmed := armed, progressMark := mark, progressTimer := timer } := by
  have released (d : Dir) (v : Nat) (on : Bool) :
      (∃ demand armed mark timer, (x.release d v).armWatch on = { x with
        demand := demand, watchArmed := armed, progressMark := mark, progressTimer := timer })
      ∨ ∃ release armed mark timer, (x.release d v).armWatch on = { x.stopped with
        pendingRelease := release, watchArmed := armed, progressMark := mark, progressTimer := timer } := by
    obtain ⟨mark, timer, armed⟩ := (x.release d v).armWatch_eq on
    rw [armed]
    by_cases toward : x.direction = some d
    · rw [Channel.release_toward runs toward]
      exact .inl ⟨_, _, _, _, rfl⟩
    · rw [Channel.release_away runs toward]
      exact .inr ⟨_, _, _, _, rfl⟩
  cases t with
  | keep => exact .inl ⟨_, _, _, _, rfl⟩
  | resume => exact released _ _ true
  | hold =>
    unfold Channel.trim
    dsimp only
    split
    · rw [Channel.stop_eq, Channel.afterStop, if_pos runs, Channel.armWatch_false]
      exact .inr ⟨_, _, _, _, rfl⟩
    · exact released _ _ false

/-- R75: a running channel that arrives is stopped, whatever trim hold made of it. -/
theorem Channel.arrived_running (t : Trim) (r : LaneRecord) (runs : x.state = .starting ∨ x.state = .moving) :
    ((x.trim t r).stop.armWatch false) =
      { x.stopped with watchArmed := false, demand := ((x.trim t r).stop.armWatch false).demand } := by
  rcases Channel.trim_running t r runs with ⟨demand, armed, mark, timer, trimmed⟩ | ⟨release, armed, mark, timer, trimmed⟩
  · rw [trimmed, Channel.stop_eq, Channel.afterStop, if_pos runs]
    rfl
  · rw [trimmed, Channel.stop_eq]
    rfl

/-- R75: a stopping channel that arrives has no release pending. -/
theorem Channel.arrived_stopping (t : Trim) (r : LaneRecord) (stops : x.state = .stopping) :
    ((x.trim t r).stop.armWatch false).state = .stopping ∧ ((x.trim t r).stop.armWatch false).pendingRelease = none
      ∧ ((x.trim t r).stop.armWatch false).watchArmed = false := by
  have released (d : Dir) (v : Nat) : (x.release d v).state = .stopping := by
    unfold Channel.release
    rw [stops]
    dsimp only
    split
    · rfl
    · exact stops
  have trimmed : (x.trim t r).state = .stopping := by
    cases t with
    | keep => exact stops
    | resume =>
      unfold Channel.trim
      dsimp only
      rw [Channel.armWatch_state, released]
    | hold =>
      unfold Channel.trim
      dsimp only
      rw [Channel.armWatch_state]
      split
      · exact (Channel.stop_facts (.inr (.inr stops))).1
      · exact released _ _
  obtain ⟨state, pending, -⟩ := Channel.stop_facts (.inr (.inr trimmed))
  rw [Channel.armWatch_false]
  exact ⟨state, pending, rfl⟩

end Trimmed

end Sys2Proof.Machine
end

section
set_option Elab.async false
/-! PROOFS. The control period of a group that does not complete (R69 to R76). -/

namespace Sys2Proof.Machine

section Runs
variable {p q : Part} {g : Grp} {m : MoveRecord} {n : Nat} {ln : Lane} {r : LaneRecord} {lead : Int}

theorem Group.ranState_running {x : Group} (active : x.active = true) (confirmed : ∀ r ∈ m.lanes, r.state = .arrived ∨ r.confirmed = true) :
    x.ranState m = .running := by
  unfold Group.ranState
  by_cases preparing : x.state = .preparing
  · exact if_pos ⟨preparing, confirmed⟩
  · rw [if_neg fun h => preparing h.1]
    simpa [Group.active, preparing] using active

theorem Group.ranState_waits {x : Group} (waits : ∃ r ∈ m.lanes, r.state ≠ .arrived ∧ r.confirmed = false) :
    x.ranState m = x.state := by
  refine if_neg fun ⟨_, confirmed⟩ => ?_
  obtain ⟨r, mem, driving, unconfirmed⟩ := waits
  rcases confirmed r mem with arrived | done
  · exact driving arrived
  · rw [unconfirmed] at done
    cases done

/-- R70: the lanes of a level move, which have travelled nothing, lead by nothing. -/
theorem Part.leads_level (still : ∀ a ∈ p.progress g m, a.done = 0) (way : ∀ r ∈ m.lanes, r.state ≠ .arrived) :
    ∀ x ∈ p.leads g m, x = 0 := by
  intro x mem
  obtain ⟨a, here, rfl⟩ := List.mem_map.mp mem
  by_cases stays : a.record.travel = 0
  · exact if_pos stays
  unfold Progress.lead
  rw [if_neg stays]
  cases found : laggard (p.progress g m) with
  | none =>
    have moving : a.record.onWay = true := by
      rw [LaneRecord.onWay_iff]
      refine ⟨stays, way _ ?_⟩
      obtain ⟨lri, there, rfl⟩ := List.mem_map.mp here
      exact (List.of_mem_zip (List.fst_mem_of_mem_zipIdx there)).2
    rw [laggard_none.mp found a here] at moving
    cases moving
  | some b =>
    have least := (laggard_iff (p.progress_sorted g m) b).mp found
    have rests := still b (List.mem_filter.mp least.1).1
    dsimp only
    split
    · rfl
    · rw [still a here, Progress.counted, rests]
      simp [LaneRecord.reach]

theorem Part.progress_mem {a : Progress} (mem : a ∈ p.progress g m) :
    ∃ lr ∈ (p.group g).lanes.zip m.lanes, a.record = lr.2 ∧ a.done = lr.2.travelled (p.chan lr.1.channel).pos := by
  obtain ⟨lri, there, rfl⟩ := List.mem_map.mp mem
  exact ⟨lri.1, List.fst_mem_of_mem_zipIdx there, rfl, rfl⟩

theorem LaneRecord.travelled_start (r : LaneRecord) : r.travelled r.start = 0 := by simp [LaneRecord.travelled]

theorem loadShifted_same (tolerance load : Nat) : loadShifted tolerance load load = false := by simp [loadShifted]

/-- R71 to R73: a lane that leads by nothing is neither held nor out of level. -/
theorem trimOf_still {window : Nat} {state : LaneState} (driving : state = .driving) : trimOf window state 0 = .keep := by
  have within : ¬(window : Int) < 0 := by omega
  simp [driving, trimOf, within]

end Runs

theorem controlPeriodStartsRunning : Claims.ControlPeriodStartsRunning := by
  intro g m s free out active move level driving some_
  obtain ⟨entries, distinct, places⟩ := level
  have moving : (s.part.group g).active = true := by rcases active with state | state <;> simp [Group.active, state]
  have zero := Part.leads_level (p := s.part) (g := g) (m := m) (fun a mem => by
      obtain ⟨lr, pair, -, done⟩ := Part.progress_mem mem
      rw [done, (places lr pair).1, LaneRecord.travelled_start]) fun r mem => by rw [(driving r mem).1]; decide
  have steady : s.part.Steady g m := by
    refine ⟨fun x mem => by rw [zero x mem]; omega, fun lr pair => ?_⟩
    rw [(places lr pair).2, loadShifted_same]
  have far (lr : Lane × LaneRecord) (pair : lr ∈ (s.part.group g).lanes.zip m.lanes) :
      5 < lr.2.remaining (s.part.chan lr.1.channel).pos := by
    obtain ⟨-, -, travel, long⟩ := driving lr.2 (List.of_mem_zip pair).2
    have here : (s.part.chan lr.1.channel).pos = lr.2.start := (places lr pair).1
    rw [here, LaneRecord.remaining]
    split <;> omega
  have unfinished : s.part.Unfinished g m := by
    obtain ⟨r, rest, list⟩ := List.exists_cons_of_ne_nil some_
    have lane : 0 < (s.part.group g).lanes.length := by rw [← entries, list]; exact Nat.succ_pos _
    have pair : ((s.part.group g).lanes[0], r) ∈ (s.part.group g).lanes.zip m.lanes :=
      List.mem_of_getElem? (List.getElem?_zip_eq_some (z := (_, r)).mpr ⟨List.getElem?_eq_getElem lane, by rw [list]; rfl⟩)
    exact .inl ⟨_, pair, by rw [(driving r (by rw [list]; exact List.mem_cons_self)).1]; decide, far _ pair⟩
  have controlled := Part.period_controlled move entries distinct steady unfinished
  -- every lane leads by 0 and is far from its target, so that its entry and its channel stand
  have lanes (n : Nat) (ln : Lane) (lane : (s.part.group g).lanes[n]? = some ln) :
      ((s.part.period g).group g).records[n]? = m.lanes[n]? ∧ (s.part.period g).chan ln.channel = s.part.chan ln.channel := by
    obtain ⟨r, entry⟩ := Part.entry_found entries lane
    obtain ⟨lead, leads⟩ := Part.leads_found entries lane
    have pair := List.mem_of_getElem? (List.getElem?_zip_eq_some (z := (ln, r)).mpr ⟨lane, entry⟩)
    have none_ := zero lead (List.mem_of_getElem? leads)
    have keep : s.part.trimFor g r lead = .keep := by
      rw [none_]
      exact trimOf_still (driving r (List.mem_of_getElem? entry)).1
    have short : ¬r.reaches (s.part.chan ln.channel).pos = true := by
      rw [LaneRecord.reaches_iff]
      exact fun reaches => absurd reaches.2 (not_le.mpr (far _ pair))
    rw [controlled.entries n ln r lead lane entry leads, controlled.chans n ln r lead lane entry leads, keep,
      entry]
    exact ⟨congrArg some (if_neg short), if_neg short⟩
  have records : ((s.part.period g).group g).records = m.lanes := by
    refine List.ext_getElem? fun n => ?_
    by_cases inside : n < (s.part.group g).lanes.length
    · exact (lanes n _ (List.getElem?_eq_getElem inside)).1
    · rw [List.getElem?_eq_none (by rw [controlled.length]; omega), List.getElem?_eq_none (by omega)]
  have channels : Kept s.part (s.part.period g) [.channels] := by
    refine .cons (Part.channels_ext fun c => ?_) (.nil _ _)
    by_cases out : ∀ ln ∈ (s.part.group g).lanes, ln.channel ≠ c
    · exact controlled.alone.2 c out
    · push Not at out
      obtain ⟨ln, mem, rfl⟩ := out
      obtain ⟨n, lane⟩ := List.mem_iff_getElem?.mp mem
      exact (lanes n ln lane).2
  refine ⟨_, exec_controlPeriod free out, ?_⟩
  dsimp only
  refine ⟨?_, fun h other => ?_, Kept.drive (.cons (channels _ (by simp)) (controlled.kept.mono (by simp)))⟩
  · rw [Part.drive_group, controlled.group, records,
      Group.ranState_running moving fun r mem => .inr (driving r mem).2.1]
    exact congrArg (fun k => ({ s.part.group g with state := .running, controlTimer := some 20, move := k } : Group)) move.symm
  · rw [Part.drive_group, controlled.alone.1 h other]

theorem controlPeriodTakesArrivals : Claims.ControlPeriodTakesArrivals := by
  intro g ln r m s free out running lanes move list driving travels load near runs
  have zero : s.part.leads g m = [0] := by
    have alone : s.part.progress g m = [{ index := 0, record := r, done := r.travelled (s.part.chan ln.channel).pos }] := by
      simp [Part.progress, lanes, list]
    have way : r.onWay = true := (LaneRecord.onWay_iff r).mpr ⟨travels, by rw [driving]; decide⟩
    simp [Part.leads, alone, laggard, way, Progress.lead]
  have steady : s.part.Steady g m := by
    refine ⟨fun x mem => ?_, fun lr pair => ?_⟩
    · rw [zero, List.mem_singleton] at mem
      omega
    · rw [lanes, list, List.zip_cons_cons, List.zip_nil_left, List.mem_singleton] at pair
      rw [pair, load, loadShifted_same]
  have lane : (s.part.group g).lanes[0]? = some ln := by rw [lanes]; rfl
  have entry : m.lanes[0]? = some r := by rw [list]; rfl
  have leads : (s.part.leads g m)[0]? = some 0 := by rw [zero]; rfl
  have unheld : (s.part.chan ln.channel).state ≠ .holding := by rcases runs with state | state <;> simp [state]
  have controlled := Part.period_controlled move (by rw [list, lanes]; rfl) (by rw [lanes]; simp) steady
    (.inr ⟨ln, List.mem_of_getElem? lane, unheld⟩)
  have keep : s.part.trimFor g r 0 = .keep := trimOf_still driving
  have reaches : r.reaches (s.part.chan ln.channel).pos = true := LaneRecord.reaches_iff.mpr ⟨by rw [driving]; decide, near⟩
  have chan := controlled.chans 0 ln r 0 lane entry leads
  rw [keep] at chan
  have stopped : (s.part.period g).chan ln.channel = { (s.part.chan ln.channel).stopped with watchArmed := false } := by
    rw [chan]
    refine (if_pos reaches).trans ?_
    rw [Channel.stop_eq, Channel.afterStop, Channel.trim, if_pos runs]
    rfl
  have records : ((s.part.period g).group g).records = [{ r with state := .arrived, confirmed := true }] := by
    have found := controlled.entries 0 ln r 0 lane entry leads
    rw [keep] at found
    have one : ((s.part.period g).group g).records.length = 1 := by rw [controlled.length, list]; rfl
    obtain ⟨k, single⟩ := List.length_eq_one_iff.mp one
    rw [single] at found ⊢
    have same : k = r.arrive (s.part.chan ln.channel).pos := Option.some.inj found
    rw [same]
    exact congrArg (fun k => [k]) (if_pos reaches)
  have confirmed : (s.part.group g).ranState m = .running := by
    refine (if_neg fun h => ?_).trans running
    rw [running] at h
    cases h.1
  refine ⟨_, exec_controlPeriod free out, ?_⟩
  dsimp only
  refine ⟨?_, ?_, ?_, ⟨fun h other => ?_, fun c out => ?_⟩, Kept.drive (controlled.kept.mono (by simp))⟩
  · rw [Part.drive_group, controlled.group, records, confirmed, ← running]
  · rw [Part.drive_chan, stopped]
  · exact (Part.drive_safe (by rw [stopped]; rfl)).1
  · rw [Part.drive_group, controlled.alone.1 h other]
  · rw [Part.drive_chan, controlled.alone.2 c out]

theorem steadyPeriodConfirmsAndArrives : Claims.SteadyPeriodConfirmsAndArrives := by
  intro g m s free out active move entries distinct steady unfinished
  have controlled := Part.period_controlled move entries distinct steady unfinished
  have own := controlled.group
  have state : ((s.part.period g).group g).state = (s.part.group g).ranState m := by rw [own]
  refine ⟨_, exec_controlPeriod free out, ?_⟩
  dsimp only
  simp only [Part.drive_group, Part.drive_chan]
  refine ⟨fun confirmed => ?_, fun waits => ?_, ?_, controlled.length, ⟨fun h other => ?_, fun c out => ?_⟩,
    Kept.drive (controlled.kept.mono (by simp)), fun n ln r lead lane entry leads => ?_⟩
  · rw [state, Group.ranState_running active confirmed]
  · rw [state, Group.ranState_waits waits]
  · rw [state]
    exact own
  · rw [Part.drive_group, controlled.alone.1 h other]
  · rw [Part.drive_chan, controlled.alone.2 c out]
  · have chan := controlled.chans n ln r lead lane entry leads
    refine ⟨controlled.afterPeriod lane entry leads, fun driving near => ?_⟩
    have reaches : (r.trim (s.part.trimFor g r lead)).reaches
        ((s.part.chan ln.channel).trim (s.part.trimFor g r lead) r).pos = true := by
      rw [(Channel.trim_steered _ _ _).pos, LaneRecord.trim_reaches, LaneRecord.reaches_iff]
      exact ⟨driving, near⟩
    rw [Channel.arrive, if_pos reaches] at chan
    refine ⟨fun runs => ?_, fun stops => ?_⟩
    · have stopped := Channel.arrived_running (s.part.trimFor g r lead) r runs
      rw [← chan] at stopped
      refine ⟨stopped, fun same => ?_, Part.drive_safe (by rw [stopped]; rfl)⟩
      have keep : s.part.trimFor g r lead = .keep := by
        revert same
        unfold Part.trimFor trimOf
        cases kind : r.state with
        | arrived => exact fun _ => rfl
        | driving | trimmed =>
          dsimp only
          split
          · intro same
            rw [← same] at kind
            cases kind
          · exact fun _ => rfl
      rw [chan, keep, Channel.stop_eq, Channel.afterStop, Channel.trim, if_pos runs]
      rfl
    · rw [chan]
      exact Channel.arrived_stopping _ _ stops

/-! ### Trim hold in a control period (R71, R72) -/

section Trims
variable {x : Channel} {r : LaneRecord} {d : Dir} {v : Nat}

/-- R10, R71: the way of a lane and the demand that its channel takes. -/
theorem dirOf_eq (n : Int) : dirOf n = if n < 0 then .down else .up := rfl

theorem Channel.capDemand_eq (x : Channel) (v : Nat) :
    x.capDemand v = if x.kind = .variableSpeed then min v x.config.nominalSpeed else 0 := by simp [Channel.capDemand]

theorem Channel.hold_fixed (fixed : x.kind = .fixedSpeed) (runs : x.state = .starting ∨ x.state = .moving) :
    x.trim .hold r = { x.stopped with watchArmed := false } := by
  unfold Channel.trim
  dsimp only
  rw [if_pos fixed, Channel.stop_eq, Channel.afterStop, if_pos runs]
  rfl

theorem Channel.hold_toward (variable_ : x.kind ≠ .fixedSpeed) (runs : x.state = .starting ∨ x.state = .moving)
    (toward : x.direction = some (dirOf r.travel)) : x.trim .hold r = { x with
      demand := x.capDemand (r.demand / 2), watchArmed := false, progressMark := none, progressTimer := .stopped } := by
  unfold Channel.trim
  dsimp only
  rw [if_neg variable_, Channel.release_toward runs toward]
  rfl

/-- R72, R98: a lane that resumes has its watch armed, and its channel released with the full demand. -/
theorem Channel.resumed (x : Channel) (r : LaneRecord) :
    let y := x.trim .resume r
    y.watchArmed = true
      ∧ (x.state = .starting ∨ x.state = .moving → x.direction = some (dirOf r.travel) →
          y.state = x.state ∧ y.direction = x.direction ∧ y.demand = x.capDemand r.full)
      ∧ (x.state = .holding → y.state = .starting ∧ y.direction = some (dirOf r.travel) ∧ y.demand = x.capDemand r.full
          ∧ y.confirmMark = some x.raw ∧ y.confirmTimer = some 600)
      ∧ (x.state = .stopping → x.fault = none → x.mover ≠ .none →
          y.state = .stopping ∧ y.pendingRelease = some { direction := dirOf r.travel, demand := r.full }) := by
  obtain ⟨mark, timer, armed⟩ := (x.release (dirOf r.travel) r.full).armWatch_eq true
  have resumed : x.trim .resume r = _ := armed
  dsimp only
  rw [resumed]
  refine ⟨rfl, fun runs toward => ?_, fun holds => ?_, fun stops whole moved => ?_⟩
  · rw [Channel.release_toward runs toward]
    exact ⟨rfl, rfl, rfl⟩
  · rw [Channel.release_held holds, Channel.start, Channel.syncWatch_eq]
    exact ⟨rfl, rfl, rfl, rfl, rfl⟩
  · rw [Channel.release_stopping stops whole moved]
    exact ⟨stops, rfl⟩

end Trims

theorem controlPeriodTrims : Claims.ControlPeriodTrims := by
  intro g m n ln r lead s free out active move entries distinct lane entry leads steady far x window way runs demand
  refine ⟨_, exec_controlPeriod free out, ?_⟩
  dsimp only
  by_cases driving : r.state = .arrived
  · simp only [driving]
    exact ⟨fun h => by simp at h, fun h => (nomatch h), fun h => (nomatch h)⟩
  have pair := List.mem_of_getElem? (List.getElem?_zip_eq_some (z := (ln, r)).mpr ⟨lane, entry⟩)
  have controlled := Part.period_controlled move entries distinct steady (.inl ⟨_, pair, driving, far⟩)
  have short : ¬r.reaches x.pos = true := by
    rw [LaneRecord.reaches_iff]
    exact fun reaches => absurd reaches.2 (not_le.mpr far)
  have record : ((s.part.period g).drive.group g).move.bind (fun k => k.lanes[n]?) = some (r.trim (s.part.trimFor g r lead)) := by
    have found := controlled.entries n ln r lead lane entry leads
    rw [LaneRecord.arrive, LaneRecord.trim_reaches, if_neg short] at found
    rw [Part.drive_group, controlled.group]
    exact found
  have chan : (s.part.period g).chan ln.channel = x.trim (s.part.trimFor g r lead) r := by
    rw [controlled.chans n ln r lead lane entry leads, Channel.arrive, (Channel.trim_steered _ _ _).pos,
      LaneRecord.trim_reaches, if_neg short]
  rw [record, Part.drive_chan, chan]
  obtain ⟨holds, resumes, -⟩ := trimAndSyncJudgeTheLead.1 (s.part.group g).syncWindow lead
  refine ⟨fun stays => ?_, fun held ahead => ?_, fun held behind => ?_⟩
  · have keep : s.part.trimFor g r lead = .keep := by
      unfold Part.trimFor trimOf
      rcases stays with ⟨state, within⟩ | ⟨state, beyond⟩ <;> rw [state]
      · exact if_neg (not_lt.mpr within)
      · exact if_neg (not_le.mpr beyond)
    rw [keep]
    exact ⟨rfl, rfl⟩
  · have hold : s.part.trimFor g r lead = .hold := by
      unfold Part.trimFor
      rw [held, holds]
      exact ahead
    rw [hold]
    refine ⟨rfl, fun variable_ moves => ?_, fun fixed moves => ?_⟩
    · rw [Channel.hold_toward variable_ moves.1 moves.2, Channel.capDemand_eq]
    · have stopped := Channel.hold_fixed (r := r) fixed moves
      refine ⟨stopped, Part.drive_safe ?_⟩
      rw [chan, hold, stopped]
      rfl
  · have resume : s.part.trimFor g r lead = .resume := by
      unfold Part.trimFor
      rw [held, resumes]
      exact behind
    rw [resume]
    obtain ⟨armed, moving, holding, stopping⟩ := x.resumed r
    simp only [Channel.capDemand_eq] at moving holding
    exact ⟨rfl, armed, fun moves => moving moves.1 moves.2, holding,
      fun stops whole moved => stopping stops whole (by rw [moved]; simp)⟩

/-- Settles O46: each steady period is told lane by lane, and the four claims read it. -/
theorem controlPeriodRunsAndArrives : Obligations.ControlPeriodRunsAndArrives :=
  ⟨controlPeriodStartsRunning, controlPeriodTakesArrivals, controlPeriodTrims, steadyPeriodConfirmsAndArrives⟩

end Sys2Proof.Machine
end

section
set_option Elab.async false
/-! PROOFS. The control period that stops its group for a fault (R69, R73, R74, R80). -/

namespace Sys2Proof.Machine

section Fails
variable {p : Part} {g : Grp} {m : MoveRecord} {n : Nat} {ln : Lane} {cause : GroupFault} {k : FaultKind}

theorem Part.syncLost_eq_none {leads : List Int} (level : ∀ x ∈ leads, x ≤ (p.group g).levelLimit) : p.syncLost g leads = none := by
  unfold Part.syncLost
  rw [List.findIdx?_eq_none_iff]
  exact fun x mem => decide_eq_false (not_lt.mpr (level x mem))

/-- R74: the first lane whose load has shifted. -/
theorem Part.loadShift_eq (running : (p.group g).state = .running)
    (shifts : ∃ x r, (p.group g).lanes[n]? = some x ∧ m.lanes[n]? = some r
      ∧ loadShifted (p.group g).loadTolerance r.baseline (p.chan x.channel).load = true)
    (first : ∀ j, j < n → ¬∃ x r, (p.group g).lanes[j]? = some x ∧ m.lanes[j]? = some r
      ∧ loadShifted (p.group g).loadTolerance r.baseline (p.chan x.channel).load = true) :
    p.loadShift g m = some n := by
  unfold Part.loadShift
  rw [if_pos running, List.findIdx?_eq_some_iff_getElem]
  obtain ⟨x, r, lane, entry, shifted⟩ := shifts
  obtain ⟨short, here⟩ := List.getElem?_eq_some_iff.mp (List.getElem?_zip_eq_some (z := (x, r)).mpr ⟨lane, entry⟩)
  refine ⟨short, by rw [here]; exact shifted, fun j before => ?_⟩
  obtain ⟨lane', entry'⟩ := List.getElem?_zip_eq_some.mp (List.getElem?_eq_getElem (before.trans short))
  exact fun shifted' => first j before ⟨_, _, lane', entry', shifted'⟩

/-- R69: a period whose steps 4 and 5 find a fault ends with it. -/
theorem Part.period_fails (move : (p.group g).move = some m)
    (fails : (p.trimmed g m).syncLost g (p.leads g m) = some n ∧ cause = .syncLost n ∧ k = .syncLost
      ∨ (p.trimmed g m).syncLost g (p.leads g m) = none ∧ (p.trimmed g m).loadShift g m = some n ∧ cause = .loadShift n ∧ k = .loadShift) :
    p.period g = (p.trimmed g m).raiseGroupFault g n cause k := by
  rw [Part.period_eq move]
  unfold Part.superviseLanes
  rcases fails with ⟨lost, rfl, rfl⟩ | ⟨level, shifted, rfl, rfl⟩
  · rw [lost]
  · rw [level]
    dsimp only
    rw [shifted]

end Fails

theorem controlPeriodRaisesGroupFaults : Claims.ControlPeriodRaisesGroupFaults := by
  intro g m n ln cause k s free out active move entries distinct found present moved runs whole limit shifts occasion
  have lane := List.mem_of_getElem? found
  have steered := s.part.trimmed_steered g m ln.channel
  have own := s.part.trimmed_group_self (g := g) (m := m)
  obtain ⟨r, entry⟩ := Part.entry_found entries found
  obtain ⟨lead, leads⟩ := Part.leads_found entries found
  have named : ((s.part.trimmed g m).chan ln.channel).Named g := by
    refine ⟨by rw [steered.kind]; exact present, by rw [steered.mover]; exact moved, ?_, by rw [steered.fault]; exact whole⟩
    rw [Part.trimmed_chan_in distinct found entry leads]
    exact Channel.trim_runs _ _ runs
  have fails : (s.part.trimmed g m).syncLost g (s.part.leads g m) = some n ∧ cause = .syncLost n ∧ k = .syncLost
      ∨ (s.part.trimmed g m).syncLost g (s.part.leads g m) = none ∧ (s.part.trimmed g m).loadShift g m = some n
        ∧ cause = .loadShift n ∧ k = .loadShift := by
    rcases occasion with ⟨rfl, rfl, beyond, before⟩ | ⟨rfl, rfl, level, running, shifted, first⟩
    · refine .inl ⟨?_, rfl, rfl⟩
      rw [trimAndSyncJudgeTheLead.2.2, own]
      exact ⟨beyond, before⟩
    · refine .inr ⟨Part.syncLost_eq_none (by rw [own]; exact level), ?_, rfl, rfl⟩
      have loads (c : Chan) : ((s.part.trimmed g m).chan c).load = (s.part.chan c).load := (s.part.trimmed_steered g m c).load
      refine Part.loadShift_eq ?_ ?_ fun j less => ?_
      · rw [own]
        rcases running with state | confirmed
        · refine (if_neg fun h => ?_).trans state
          rw [state] at h
          cases h.1
        · exact Group.ranState_running active confirmed
      · rw [own]
        simp only [loads]
        exact shifted
      · rw [own]
        simp only [loads]
        exact first j less
  have mild : k.isDevice = false := by rcases fails with ⟨-, -, rfl⟩ | ⟨-, -, -, rfl⟩ <;> rfl
  have mem : ln ∈ ((s.part.trimmed g m).group g).lanes := by rw [Part.trimmed_lanes]; exact lane
  have failed : s.part.period g = (s.part.trimmed g m).groupFailed g ln.channel cause k := by
    rw [Part.period_fails move fails]
    exact Part.raiseGroupFault_eq named (by rw [Part.trimmed_lanes]; exact found) (by rw [own]; simp) mild
  have group := (s.part.trimmed g m).groupFailed_group (g := g) (cause := cause) (k := k) (c := ln.channel) g
  rw [if_pos rfl, own] at group
  have chan := Part.groupFailed_named (cause := cause) (k := k) named mem
  have state := Part.groupFailed_state (cause := cause) (k := k) named mem
  refine ⟨_, exec_controlPeriod free out, ?_⟩
  dsimp only
  rw [failed, Part.drive_group, Part.drive_chan, group, state, chan.fault, steered.position, steered.load]
  refine ⟨rfl, rfl, rfl, rfl, rfl, rfl, ?_, Part.drive_safe ?_⟩
  · rw [Part.drive_codes]
    exact Part.groupFailed_code
  · unfold Channel.live
    rw [state]
    rfl

end Sys2Proof.Machine
end

section
set_option Elab.async false
/-! PROOFS. How a group leaves STOPPING (R82, R126, R145, R149). -/

namespace Sys2Proof.Machine

/-! ### Channels without a mover -/

/-- A channel that the end of a mover leaves: neither a stop nor another end of a mover changes it. -/
structure Channel.Free (x : Channel) : Prop where
  freed : x.freed = x
  stop : x.stop = x

/-- R8: a channel at rest whose mover is cleared is free of movers. -/
theorem Channel.freed_free {x : Channel} (rests : x.state = .holding ∨ x.state = .faulted) : x.freed.Free := by
  rcases rests with state | state
  · refine ⟨?_, ?_⟩
    · simp [Channel.freed, state]
    · simp [Channel.freed, state, Channel.stop]
  · refine ⟨?_, ?_⟩
    · simp [Channel.freed, state]
    · simp [Channel.freed, state, Channel.stop]

theorem Channel.Like.mover {x y : Channel} (h : x.Like y) : y.mover = x.mover := by
  unfold Channel.Like at h
  rw [h]

theorem Channel.Like.owner {x y : Channel} (h : x.Like y) : y.owner = x.owner := by
  unfold Channel.Like at h
  rw [h]

theorem Channel.Like.rest {x y : Channel} (h : x.Like y) : y.rest = x.rest := by
  unfold Channel.Like at h
  rw [h]

theorem Channel.Like.standstillTimer {x y : Channel} (h : x.Like y) : y.standstillTimer = x.standstillTimer := by
  unfold Channel.Like at h
  rw [h]

theorem Channel.Like.free {x y : Channel} (h : x.Like y) (free : x.Free) : y.Free := by
  obtain ⟨freed, stop⟩ := free
  unfold Channel.Like at h
  rw [Channel.stop_eq] at stop
  refine ⟨?_, ?_⟩
  · rw [h]
    exact congrArg (fun z : Channel => { z with watchBaseline := y.watchBaseline }) freed
  · rw [Channel.stop_eq, h]
    refine .trans ?_ (congrArg (fun z : Channel => { z with watchBaseline := y.watchBaseline }) stop)
    unfold Channel.afterStop
    dsimp only
    split
    · rfl
    · split <;> rfl

/-- A step leaves every channel without a mover as it is, but for its watch baseline. -/
structure Part.Frees (p q : Part) : Prop where
  like : ∀ c, (p.chan c).Free → (p.chan c).Like (q.chan c)

namespace Part.Frees
variable {p q r : Part}

theorem refl (p : Part) : Part.Frees p p := ⟨fun _ _ => .refl _⟩

theorem trans (h : Part.Frees p q) (k : Part.Frees q r) : Part.Frees p r :=
  ⟨fun c free => (h.like c free).trans (k.like c ((h.like c free).free free))⟩

theorem of_chan (same : ∀ c, q.chan c = p.chan c) : Part.Frees p q := ⟨fun c _ => .of_eq (same c)⟩

theorem raise (p : Part) (pair : NoticePair) (e : Event) : Part.Frees p (p.raise pair e) := ⟨fun c _ => p.raise_like pair e c⟩

theorem modChan (p : Part) (c : Chan) {f : Channel → Channel} (idle : ∀ x : Channel, x.Free → f x = x) :
    Part.Frees p (p.modChan c f) := by
  refine ⟨fun d free => .of_eq ?_⟩
  by_cases same : d = c
  · rw [same] at free
    rw [same, Part.modChan_chan_self, idle _ free]
  · rw [Part.modChan_chan_ne _ _ _ _ same]

theorem forEach {α : Type} {f : Part → α → Part} (l : List α) (each : ∀ q x, Part.Frees q (f q x)) (p : Part) :
    Part.Frees p (p.forEach l f) :=
  Part.forEach_inv (P := fun q => Part.Frees p q) (refl p) fun q x _ frees => frees.trans (each q x)

theorem clearMover (p : Part) (c : Chan) : Part.Frees p (p.clearMover c) :=
  (modChan p c fun x free => (x.dropMover_eq).trans free.freed).trans (of_chan fun d => Part.judgeDisarm_chan _ d)

theorem clearLanes (p : Part) (g : Grp) : Part.Frees p (p.clearLanes g) :=
  forEach _ (fun q (ln : Lane) => clearMover q ln.channel) p

theorem exitCore (p : Part) (g : Grp) : Part.Frees p (p.exitCore g) := by
  have changed (f : Group → Group) : Part.Frees p ((p.clearLanes g).modGroup g f) := (clearLanes p g).trans (of_chan fun _ => rfl)
  unfold Part.exitCore
  split
  · exact refl p
  · dsimp only
    split
    · split
      · exact (changed _).trans (raise ..)
      · exact changed _
    · exact (changed _).trans (raise ..)
    · exact changed _
    · exact (changed _).trans (raise ..)

theorem enterStopping (p : Part) (g : Grp) (reason : StopReason) : Part.Frees p (p.enterStopping g reason) :=
  Part.Frees.trans (q := p.modGroup g fun x => { x with
      state := .stopping, controlTimer := none, move := x.move.map fun m => { m with reason := some reason } })
    (of_chan fun _ => rfl) (forEach _ (fun q (ln : Lane) => modChan q ln.channel fun _ free => free.stop) _)

theorem endOf (p : Part) (g : Grp) (reason : StopReason) : Part.Frees p (p.endOf g reason) := by
  unfold Part.endOf
  split
  · split
    · exact (enterStopping p g reason).trans (exitCore _ g)
    · exact enterStopping p g reason
  · exact refl p

theorem playEnded (p : Part) (t : Trk) (reason : StopReason) (e : Event) : Part.Frees p (p.playEnded t reason e) :=
  Part.Frees.trans (q := p.modTrack t Track.clearPlay) (of_chan fun _ => rfl)
    ((forEach _ (fun q g => endOf q g reason) _).trans (raise ..))

theorem moveEnded (p : Part) (t : Trk) (g : Grp) : Part.Frees p (p.moveEnded t g) := by
  have dropped : Part.Frees p (p.modTrack t (Track.dropPlaying g)) := of_chan fun _ => rfl
  unfold Part.moveEnded
  split
  · dsimp only
    split
    · split
      · exact dropped.trans (Part.Frees.trans (q := (p.modTrack t (Track.dropPlaying g)).modTrack t Track.endSegment)
          (of_chan fun _ => rfl) (raise ..))
      · exact dropped
    · split
      · rw [Part.endPlay_eq]
        exact dropped.trans (playEnded ..)
      · exact dropped
  · exact refl p

end Part.Frees

/-- R8: every lane's channel loses its mover, however often the lanes name it. -/
theorem Part.clearLanes_freed {p : Part} {g : Grp} {ln : Lane} (mem : ln ∈ (p.group g).lanes)
    (rests : (p.chan ln.channel).state = .holding ∨ (p.chan ln.channel).state = .faulted) :
    (p.clearLanes g).chan ln.channel = (p.chan ln.channel).freed := by
  have free := Channel.freed_free rests
  have loop (l : List Lane) (q : Part) (reads : q.chan ln.channel = p.chan ln.channel ∨ q.chan ln.channel = (p.chan ln.channel).freed) :
      (ln ∈ l ∨ q.chan ln.channel = (p.chan ln.channel).freed) →
        (q.forEach l fun q x => q.clearMover x.channel).chan ln.channel = (p.chan ln.channel).freed := by
    induction l generalizing q with
    | nil => exact fun done => done.resolve_left (by simp)
    | cons x l ih =>
      have step := q.clearMover_chan x.channel ln.channel
      rw [Part.forEach_cons]
      by_cases here : ln.channel = x.channel
      · rw [if_pos here, Channel.dropMover_eq] at step
        have done : (q.clearMover x.channel).chan ln.channel = (p.chan ln.channel).freed := by
          rw [step]
          rcases reads with same | freed
          · rw [same]
          · rw [freed, free.freed]
        exact fun _ => ih _ (.inr done) (.inr done)
      · rw [if_neg here] at step
        refine fun awaits => ih _ (by rw [step]; exact reads) ?_
        rw [step]
        exact awaits.imp_left fun listed => (List.mem_cons.mp listed).resolve_left fun same => here (by rw [same])
  exact loop _ p (.inl rfl) (.inl mem)

/-! ### The exit, by the reason and kind of the move -/

section Exit
variable {p q : Part} {g : Grp} {m : MoveRecord} {t : Trk} {n : Nat} {f : GroupFault} {e : Event}

theorem Part.exitCore_faulted (move : (p.group g).move = some m) (reason : m.reason = some .fault) (cause : (p.group g).fault = some f) :
    p.exitCore g = ((p.clearLanes g).modGroup g fun x => { x with state := .faulted }).raise (.group g) (.groupFaulted f) := by
  unfold Part.exitCore
  rw [move]
  dsimp only
  rw [reason]
  dsimp only
  rw [cause]

theorem Part.exitCore_completed (move : (p.group g).move = some m) (reason : m.reason = some .complete) (source : m.source = .cue n) :
    p.exitCore g = ((p.clearLanes g).modGroup g fun x => { x with state := .idle, move := none }).raise (.group g) (.cueDone n) := by
  unfold Part.exitCore
  rw [move]
  dsimp only
  rw [reason, source]

theorem Part.exitCore_held (move : (p.group g).move = some m) (reason : m.reason ∈ ordinaryStops) (source : m.source = .cue n) :
    p.exitCore g = ((p.clearLanes g).modGroup g fun x => { x with state := .held, held := true }).raise (.group g) .groupHeld := by
  unfold Part.exitCore
  rw [move]
  dsimp only
  rw [source]
  simp only [ordinaryStops, List.mem_cons, List.not_mem_nil, or_false] at reason
  rcases reason with reason | reason | reason <;> rw [reason]

theorem Part.exitCore_track (move : (p.group g).move = some m) (reason : m.reason = some .complete ∨ m.reason ∈ ordinaryStops)
    (source : m.source = .track t) :
    p.exitCore g = (p.clearLanes g).modGroup g fun x => { x with state := .idle, move := none } := by
  unfold Part.exitCore
  rw [move]
  dsimp only
  rw [source]
  simp only [ordinaryStops, List.mem_cons, List.not_mem_nil, or_false] at reason
  rcases reason with reason | reason | reason | reason <;> rw [reason]

/-- What a notice of a group leaves of the part, once its lanes are cleared and its record is changed. -/
theorem Part.cleared_raise_group (p : Part) (g : Grp) (h : Group → Group) (e : Event) :
    (((p.clearLanes g).modGroup g h).raise (.group g) e).group g = h (p.group g) := by
  rw [((Part.raise_kept _ _ _).mono (cs := [.groups]) (by simp)).group, Part.modGroup_group_self, Part.clearLanes_group]

theorem Part.exitCore_inactive (stopping : (p.group g).state = .stopping) : ((p.exitCore g).group g).active = false :=
  Part.exitCore_active stopping

@[simp] theorem Part.clearLanes_trackCodes (p : Part) (g : Grp) : (p.clearLanes g).codes.tracks = p.codes.tracks :=
  Part.forEach_keeps (fun q => q.codes.tracks) _ _ fun q ln _ => by
    have modified : (q.modChan ln.channel Channel.dropMover).codes = q.codes := rfl
    unfold Part.clearMover
    rcases (q.modChan ln.channel Channel.dropMover).judgeDisarm_eq with same | ⟨-, -, -, disarmed⟩
    · rw [same, modified]
    · rw [disarmed, Part.changeMode_codes]
      rfl

theorem Part.raise_group_trackCodes (p : Part) (g : Grp) (e : Event) : (p.raise (.group g) e).codes.tracks = p.codes.tracks := by
  rw [Part.raise_codes]
  rfl

theorem Part.raise_track_groupCodes (p : Part) (t : Trk) (e : Event) : (p.raise (.track t) e).codes.groups = p.codes.groups := by
  rw [Part.raise_codes]
  rfl

theorem Part.exitCore_trackCodes (p : Part) (g : Grp) : (p.exitCore g).codes.tracks = p.codes.tracks := by
  have cleared := p.clearLanes_trackCodes g
  have changed (h : Group → Group) : ((p.clearLanes g).modGroup g h).codes.tracks = p.codes.tracks := cleared
  unfold Part.exitCore
  split
  · rfl
  · dsimp only
    split
    · split
      · rw [Part.raise_group_trackCodes, changed]
      · exact changed _
    · rw [Part.raise_group_trackCodes, changed]
    · exact changed _
    · rw [Part.raise_group_trackCodes, changed]

/-! ### The track is told (R145, R149) -/

theorem Track.dropPlaying_eq (x : Track) (g : Grp) : x.dropPlaying g = x.leftBy g := by
  have same (l : List Grp) : dropGroup g l = l.filter (· ≠ g) := List.filter_congr fun h _ => by simp [bne, decide_not, beq_eq_decide]
  unfold Track.dropPlaying Track.leftBy
  rw [same, same]

theorem Track.endSegment_abandoned (x : Track) : x.endSegment = x.abandoned := by
  unfold Track.endSegment Track.restState Track.abandoned Track.ended
  simp only [List.isEmpty_iff]

/-- R145: what the end of a group's track move leaves beside the track. -/
structure Part.EndTold (p q : Part) (t : Trk) (g : Grp) : Prop where
  group : q.group g = p.group g
  code : q.codes.groups[g] = p.codes.groups[g]
  queue : q.queue g = p.queue g
  out : g ∉ (q.track t).playing
  leaves : g ∈ (p.track t).playing → p.LeavesPlay q t g
  kept : Kept p q [.samples, .queues, .clock]

theorem Part.playEnded_spares (out : g ∉ (p.track t).playing) (reason : StopReason) (e : Event) :
    (p.playEnded t reason e).group g = p.group g ∧ (p.playEnded t reason e).codes.groups[g] = p.codes.groups[g] := by
  have besides := (p.modTrack t Track.clearPlay).endAll_besides (p.track t).playing reason
  have outside : g ∉ (p.modTrack t Track.clearPlay).moving (p.track t).playing := fun mem => out (Part.mem_moving.mp mem).1
  refine ⟨?_, ?_⟩
  · exact (((Part.raise_kept _ _ _).mono (cs := [.groups]) (by simp)).group g).trans (besides.groups g outside)
  · have codes := Part.raise_track_groupCodes ((p.modTrack t Track.clearPlay).endAll (p.track t).playing reason) t e
    exact (congrArg (fun v : Vector _ 8 => v[g]) codes).trans (besides.codes g outside)

theorem Part.playEnded_kept (p : Part) (t : Trk) (reason : StopReason) (e : Event) :
    Kept p (p.playEnded t reason e) [.samples, .queues, .clock] :=
  (((Part.modTrack_kept p t _).mono (by simp)).trans ((Part.endAll_kept _ _ reason).mono (by simp))).trans
    ((Part.raise_kept _ _ _).mono (by simp))

theorem Part.playEnded_track (p : Part) (t : Trk) (reason : StopReason) (e : Event) :
    (p.playEnded t reason e).track t = (p.track t).ended := by
  unfold Part.playEnded
  rw [((Part.raise_kept _ _ _).mono (cs := [.tracks]) (by simp)).track, ((Part.endAll_kept _ _ reason).mono (cs := [.tracks]) (by simp)).track,
    Part.modTrack_track_self, Track.clearPlay_ended]

theorem Part.moveEnded_told (p : Part) (t : Trk) (g : Grp) : p.EndTold (p.moveEnded t g) t g := by
  by_cases plays : g ∈ (p.track t).playing
  · have left : (p.modTrack t (Track.dropPlaying g)).track t = (p.track t).leftBy g := by
      rw [Part.modTrack_track_self, Track.dropPlaying_eq]
    have gone : g ∉ ((p.track t).leftBy g).playing := fun mem => by simpa [Track.leftBy] using (List.mem_filter.mp mem).2
    have dropped : Kept p (p.modTrack t (Track.dropPlaying g)) [.samples, .queues, .clock] := (Part.modTrack_kept p t _).mono (by simp)
    have told : p.moveEnded t g = if ((p.track t).leftBy g).playing = [] then
          if ((p.track t).leftBy g).state = .playing ∨ ((p.track t).leftBy g).state = .starved then
            (p.modTrack t (Track.dropPlaying g)).abandonPlay t
          else p.modTrack t (Track.dropPlaying g)
        else if ((p.track t).leftBy g).closing = true ∧ ∀ h ∈ ((p.track t).leftBy g).playing, h ∈ ((p.track t).leftBy g).arrived then
          (p.modTrack t (Track.dropPlaying g)).playEnded t .complete .trackEnded
        else p.modTrack t (Track.dropPlaying g) := by
      unfold Part.moveEnded
      rw [if_pos (List.contains_iff_mem.mpr plays)]
      dsimp only
      rw [left, Part.endPlay_eq]
      simp only [List.isEmpty_iff, Track.inPlay, Bool.or_eq_true, beq_iff_eq, Bool.and_eq_true, Track.allReached_iff]
    rw [told]
    split
    · next last =>
      split
      · next underway =>
        refine ⟨?_, ?_, ?_, ?_, fun _ => ⟨fun _ _ => ⟨?_, ?_⟩, fun h => absurd last h, fun h => absurd last h⟩, ?_⟩
        · exact ((Part.raise_kept _ _ _).mono (cs := [.groups]) (by simp)).group g
        · exact congrArg (fun v : Vector _ 8 => v[g]) (Part.raise_track_groupCodes _ t _)
        · exact ((Part.raise_kept _ _ _).mono (cs := [.queues]) (by simp)).queue g
        · unfold Part.abandonPlay
          rw [((Part.raise_kept _ _ _).mono (cs := [.tracks]) (by simp)).track, Part.modTrack_track_self, left]
          exact gone
        · unfold Part.abandonPlay
          rw [((Part.raise_kept _ _ _).mono (cs := [.tracks]) (by simp)).track, Part.modTrack_track_self, left,
            Track.endSegment_abandoned]
        · exact Part.raise_trackCode ..
        · exact dropped.trans (((Part.modTrack_kept _ t _).mono (by simp)).trans ((Part.raise_kept _ _ _).mono (by simp)))
      · next rests =>
        exact ⟨rfl, rfl, rfl, by rw [left]; exact gone,
          fun _ => ⟨fun _ h => absurd h rests, fun h => absurd last h, fun h => absurd last h⟩, dropped⟩
    · next others =>
      split
      · next ends =>
        obtain ⟨closing, arrived⟩ := ends
        obtain ⟨group, code⟩ := Part.playEnded_spares (p := p.modTrack t (Track.dropPlaying g)) (t := t) (by rw [left]; exact gone)
          .complete .trackEnded
        have own := (p.modTrack t (Track.dropPlaying g)).playEnded_track t .complete .trackEnded
        have kept := (p.modTrack t (Track.dropPlaying g)).playEnded_kept t .complete .trackEnded
        rw [left] at own
        refine ⟨group, code, (kept.mono (cs := [.queues]) (by simp)).queue g, by rw [own]; exact List.not_mem_nil,
          fun _ => ⟨fun h => absurd h others, fun _ waits => ?_, fun _ _ _ => ⟨own, Part.raise_trackCode ..⟩⟩, dropped.trans kept⟩
        rcases waits with open_ | ⟨h, mem, missing⟩
        · rw [closing] at open_
          cases open_
        · exact absurd (arrived h mem) missing
      · next goes =>
        exact ⟨rfl, rfl, rfl, by rw [left]; exact gone,
          fun _ => ⟨fun h => absurd h others, fun _ _ => ⟨left, rfl⟩, fun _ closing arrived => absurd ⟨closing, arrived⟩ goes⟩, dropped⟩
  · rw [Part.moveEnded_out plays]
    exact ⟨rfl, rfl, rfl, plays, fun h => absurd h plays, .refl _ _⟩

end Exit

end Sys2Proof.Machine
end

section
set_option Elab.async false
/-! PROOFS. A group's exit from STOPPING, told of the part before it (R82, R126, R145, R149). -/

namespace Sys2Proof.Machine

section Leaving
variable {p q x : Part} {g : Grp} {m : MoveRecord} {t : Trk} {n : Nat} {ln : Lane}

theorem Part.queueOnCompletion_same (group : (q.group g).boundTrack = (p.group g).boundTrack) (queue : q.queue g = p.queue g) :
    q.queueOnCompletion g = p.queueOnCompletion g := by
  unfold Part.queueOnCompletion Part.Armable
  rw [group, queue]

theorem Part.headWaits_same (group : (q.group g).boundTrack = (p.group g).boundTrack) (queue : q.queue g = p.queue g)
    (clock : q.clock = p.clock) : q.HeadWaits g ↔ p.HeadWaits g := by
  unfold Part.HeadWaits Part.Armable
  rw [group, queue, clock]

theorem Part.exitStopping_eq (stopping : (p.group g).state = .stopping) (move : (p.group g).move = some m)
    (rests : ∀ ln ∈ (p.group g).lanes, (p.chan ln.channel).state = .holding ∨ (p.chan ln.channel).state = .faulted) :
    p.exitStopping g = (p.exitCore g).tellEnd g m := by
  have still : ((p.group g).state = .stopping && p.atRest g) = true := by
    unfold Part.atRest
    simp only [stopping, decide_true, Bool.true_and, List.all_eq_true, Bool.or_eq_true, beq_iff_eq]
    exact rests
  unfold Part.exitStopping
  rw [if_pos still, move]

theorem Part.tellEnd_track (source : m.source = .track t) : p.tellEnd g m = p.moveEnded t g := by
  unfold Part.tellEnd
  rw [source]

theorem Part.tellEnd_cue (source : m.source = .cue n) (reason : m.reason ≠ some .complete) : p.tellEnd g m = p := by
  unfold Part.tellEnd
  rw [source]
  exact if_neg reason

theorem Part.tellEnd_completed (source : m.source = .cue n) (reason : m.reason = some .complete) :
    p.tellEnd g m = p.arm .completion g := by
  unfold Part.tellEnd
  rw [source]
  exact if_pos reason

/-- A fault, and a stop that neither completes a move nor faults it, come from reasons that are not COMPLETE. -/
theorem ordinary_incomplete {reason : Option StopReason} (ordinary : reason ∈ ordinaryStops) : reason ≠ some .complete := by
  rintro rfl
  simp [ordinaryStops] at ordinary

section
set_option Elab.async false
variable (move : (p.group g).move = some m)
include move

/-- R82: a completed cue move out of STOPPING, whose head waits. -/
theorem Part.exitCompleted (source : m.source = .cue n) (reason : m.reason = some .complete) (waits : p.HeadWaits g) :
    (p.exitCore g).tellEnd g m = (p.exitCore g).modQueue g fun _ => p.queueOnCompletion g := by
  have group : (p.exitCore g).group g = { p.group g with state := .idle, move := none } := by
    rw [Part.exitCore_completed move reason source, Part.cleared_raise_group]
  have bound : ((p.exitCore g).group g).boundTrack = (p.group g).boundTrack := by rw [group]
  have kept := p.exitCore_kept g
  have queue := (kept.mono (cs := [.queues]) (by simp)).queue g
  have clock : (p.exitCore g).clock = p.clock := kept .clock (by simp)
  rw [Part.tellEnd_completed source reason, Part.arm_waits (by rw [group]) ((Part.headWaits_same bound queue clock).mpr waits),
    Part.queueOnCompletion_same bound queue]

/-- R82, R126, R145: how a group leaves STOPPING. -/
theorem Part.exitCore_leaves : p.Leaves ((p.exitCore g).tellEnd g m) g m := by
  have queues := ((p.exitCore_kept g).mono (cs := [.queues]) (by simp)).queue g
  have tracks := ((p.exitCore_kept g).mono (cs := [.tracks]) (by simp)).track
  refine ⟨fun f reason cause => ?_, fun n source => ⟨fun reason waits => ?_, fun reason => ?_⟩, fun t source => ?_⟩
  · have exits := Part.exitCore_faulted move reason cause
    have group : (p.exitCore g).group g = { p.group g with state := .faulted } := by rw [exits, Part.cleared_raise_group]
    have code : (p.exitCore g).codes.groups[g] = some (.groupFaulted f) := by
      rw [exits]
      exact Part.raise_code ..
    cases source : m.source with
    | cue n =>
      rw [Part.tellEnd_cue source (by rw [reason]; decide)]
      exact ⟨group, code, queues⟩
    | track t =>
      obtain ⟨group', code', queue', -, -, -⟩ := (p.exitCore g).moveEnded_told t g
      rw [Part.tellEnd_track source]
      exact ⟨group'.trans group, code'.trans code, queue'.trans queues⟩
  · have exits := Part.exitCore_completed move reason source
    rw [Part.exitCompleted move source reason waits]
    refine ⟨?_, ?_, Part.modQueue_queue_self ..⟩
    · rw [Part.modQueue_group, exits, Part.cleared_raise_group]
    · have told : ((p.exitCore g).modQueue g fun _ => p.queueOnCompletion g).codes = (p.exitCore g).codes := rfl
      rw [told, exits]
      exact Part.raise_code ..
  · have exits := Part.exitCore_held move reason source
    rw [Part.tellEnd_cue source (ordinary_incomplete reason)]
    refine ⟨?_, ?_, queues⟩
    · rw [exits, Part.cleared_raise_group]
    · rw [exits]
      exact Part.raise_code ..
  · obtain ⟨group', code', queue', out, leaves, -⟩ := (p.exitCore g).moveEnded_told t g
    rw [Part.tellEnd_track source]
    refine ⟨out, queue'.trans queues, fun plays => ?_, fun reason => ?_⟩
    · have told := leaves (by rw [tracks]; exact plays)
      have codes := p.exitCore_trackCodes g
      unfold Part.LeavesPlay at told ⊢
      rw [tracks, codes] at told
      exact told
    · have exits := Part.exitCore_track move reason source
      refine ⟨?_, ?_⟩
      · rw [group', exits, Part.modGroup_group_self, Part.clearLanes_group]
      · rw [code', exits]
        exact congrArg (fun v : Vector _ 8 => v[g]) (p.clearLanes_groupCodes g)

/-- R82: after its lanes are cleared, the exit of a group leaves every channel without a mover alone. -/
theorem Part.Frees.afterClear : Part.Frees (p.clearLanes g) (p.exitCore g) := by
  have changed (f : Group → Group) : Part.Frees (p.clearLanes g) ((p.clearLanes g).modGroup g f) := .of_chan fun _ => rfl
  unfold Part.exitCore
  rw [move]
  dsimp only
  split
  · split
    · exact (changed _).trans (.raise ..)
    · exact changed _
  · exact (changed _).trans (.raise ..)
  · exact changed _
  · exact (changed _).trans (.raise ..)

theorem Part.Frees.tellEnd (quiet : p.EndsQuietly g m) : Part.Frees (p.exitCore g) ((p.exitCore g).tellEnd g m) := by
  cases source : m.source with
  | track t =>
    rw [Part.tellEnd_track source]
    exact .moveEnded ..
  | cue n =>
    by_cases reason : m.reason = some .complete
    · rw [Part.exitCompleted move source reason (quiet reason ⟨n, source⟩)]
      exact .of_chan fun _ => rfl
    · rw [Part.tellEnd_cue source reason]
      exact .refl _

/-- R8, R82, R163: a lane channel after a quiet exit, which may have woken the part. -/
theorem Part.exitCore_freed (quiet : p.EndsQuietly g m) (lane : ln ∈ (p.group g).lanes)
    (rests : (p.chan ln.channel).state = .holding ∨ (p.chan ln.channel).state = .faulted) :
    ((p.chan ln.channel).freed).Like (((p.exitCore g).tellEnd g m).chan ln.channel) := by
  have cleared := Part.clearLanes_freed lane rests
  have frees := ((Part.Frees.afterClear move).trans (Part.Frees.tellEnd move quiet)).like ln.channel
  rw [cleared] at frees
  exact frees (Channel.freed_free rests)

end

end Leaving

theorem groupLeavesStoppingByItsReason : Claims.GroupLeavesStoppingByItsReason := by
  intro p g m stopping move rests q
  have exits : q = (p.exitCore g).tellEnd g m := Part.exitStopping_eq stopping move rests
  rw [exits]
  refine ⟨Part.exitCore_leaves move, fun quiet ln lane => ?_⟩
  have freed := Part.exitCore_freed move quiet lane (rests ln lane)
  refine ⟨freed.mover, freed.state.trans ?_⟩
  rcases rests ln lane with state | state
  · simp [Channel.freed, state]
  · simp [Channel.freed, state]

end Sys2Proof.Machine
end

section
set_option Elab.async false
/-! PROOFS. The control period in which a move completes (R77, R84, R118 to R120, R145, R147). -/

namespace Sys2Proof.Machine

/-! ### A landed move (R71, R75, R76) -/

section Landed
variable {p : Part} {g : Grp} {m : MoveRecord} {n : Nat} {t : Trk}

theorem Part.modGroup_id (move : (p.group g).move = some m) :
    (p.timed g m).modGroup g (fun x => { x with move := some m }) = p.timed g m := by
  have own : ((p.timed g m).group g).move = some m := by
    rw [Part.timed_group]
    exact move
  exact Part.modGroup_same (congrArg (fun k => { (p.timed g m).group g with move := k }) own.symm)

/-- R71: trim hold leaves a move whose lanes are all ARRIVED. -/
theorem Part.Landed.trimmed (landed : p.Landed g m) : p.trimmed g m = p.timed g m := by
  have kept : trims ((p.timed g m).group g).syncWindow m (p.leads g m) = (m.lanes.zip (p.leads g m)).map fun _ => Trim.keep := by
    refine List.map_congr_left fun rl mem => ?_
    rw [landed.arrived rl.1 (List.of_mem_zip mem).1]
    rfl
  have lengths : (p.leads g m).length = m.lanes.length := by rw [Part.leads_length, landed.lengths, Nat.min_self]
  have lanes : (m.lanes.zip ((m.lanes.zip (p.leads g m)).map fun _ => Trim.keep)).map (fun rt => rt.1.trim rt.2) = m.lanes := by
    refine List.ext_getElem (by simp [lengths]) fun i _ _ => ?_
    simp [LaneRecord.trim]
  unfold Part.trimmed Part.trimStep
  dsimp only
  rw [kept, lanes, Part.modGroup_id landed.move]
  refine Part.forEach_inv (P := fun q => q = p.timed g m) rfl fun q lrt mem same => ?_
  have keep : lrt.2.2 = .keep := by
    have trim := (List.of_mem_zip (List.of_mem_zip mem).2).2
    obtain ⟨-, -, same⟩ := List.mem_map.mp trim
    exact same.symm
  rw [same, keep]
  exact Part.modChan_self rfl

/-- R75: no lane of such a move arrives again. -/
theorem Part.Landed.arrivals (landed : p.Landed g m) : (p.timed g m).arrivals g = p.timed g m := by
  refine Part.forEach_inv (P := fun q => q = p.timed g m) rfl fun q il _ same => ?_
  rw [same]
  unfold Part.arriveLane
  rw [Part.timed_group, landed.move]
  dsimp only
  cases entry : m.lanes[il.1]? with
  | none => rfl
  | some r =>
    refine if_neg fun reaches => ?_
    exact (LaneRecord.reaches_iff.mp reaches).1 (landed.arrived r (List.mem_of_getElem? entry))

theorem Part.Landed.done (landed : p.Landed g m) : (p.timed g m).moveDone g = true := by
  rw [Part.moveDone_iff (m := m) (by rw [Part.timed_group]; exact landed.move), Part.timed_lanes]
  exact ⟨landed.arrived, fun ln mem => (landed.holding ln mem).1⟩

theorem Part.Landed.period (landed : p.Landed g m) : p.period g = (p.timed g m).completion g := by
  rw [Part.period_steady landed.move landed.steady, landed.trimmed, landed.arrivals]

theorem Part.Landed.period_cue (landed : p.Landed g m) (source : m.source = .cue n) :
    p.period g = ((p.timed g m).completeCue g n).arm .completion g := by
  rw [landed.period]
  unfold Part.completion
  rw [if_pos landed.done, Part.timed_group, landed.move]
  dsimp only
  rw [source]

theorem Part.Landed.period_track (landed : p.Landed g m) (source : m.source = .track t) :
    p.period g = (p.timed g m).segmentReached t g := by
  rw [landed.period]
  unfold Part.completion
  rw [if_pos landed.done, Part.timed_group, landed.move]
  dsimp only
  rw [source]

end Landed

/-! ### The completion overrides what the period has noted in its group's record -/

section Override
variable {p : Part} {g : Grp} {m : MoveRecord} {n : Nat}

theorem Part.changeBaselines_modGroup (p : Part) (g : Grp) (f : Group → Group) (old new : DeviceMode) :
    ((p.modGroup g f).changeBaselines old new).channels = (p.changeBaselines old new).channels := by
  refine Part.channels_ext fun c => ?_
  unfold Part.changeBaselines
  split
  · rw [Part.takeBaselines_chan, Part.takeBaselines_chan]
    rfl
  · split
    · rw [Part.dropBaselines_chan, Part.dropBaselines_chan]
      rfl
    · rfl

theorem Part.judgeDisarm_modGroup (p : Part) (g : Grp) (f : Group → Group) :
    (p.modGroup g f).judgeDisarm = p.judgeDisarm.modGroup g f := by
  have disarmed : ((p.modGroup g f).modCtl fun x => { x with silenceDisarm := false }).changeMode .standby .silence
      = ((p.modCtl fun x => { x with silenceDisarm := false }).changeMode .standby .silence).modGroup g f := by
    have baselines := (p.modCtl fun x => { x with silenceDisarm := false }).changeBaselines_modGroup g f p.ctl.mode .standby
    rw [Part.changeMode_eq, Part.changeMode_eq]
    unfold Part.modGroup at baselines ⊢
    exact congrArg (fun v => { p with
      channels := v
      groups := p.groups.set g (f (p.group g))
      ctl := ({ p.ctl with silenceDisarm := false, mode := .standby } : ModeCtl).setPower true
      codes := p.codes.write .mode (.modeChange .standby p.ctl.mode .silence)
      linkA := p.linkA.offer .mode, linkB := p.linkB.offer .mode }) baselines
  unfold Part.judgeDisarm
  have flags : (p.modGroup g f).ctl = p.ctl := rfl
  have movers : (p.modGroup g f).firstMover = p.firstMover := rfl
  rw [flags, movers]
  split
  · exact disarmed
  · rfl

theorem Part.clearLanes_modGroup (p : Part) (g : Grp) {f : Group → Group} (lanes : (f (p.group g)).lanes = (p.group g).lanes) :
    (p.modGroup g f).clearLanes g = (p.clearLanes g).modGroup g f := by
  have loop (l : List Lane) (q : Part) : (q.modGroup g f).forEach l (fun q x => q.clearMover x.channel)
      = (q.forEach l fun q x => q.clearMover x.channel).modGroup g f := by
    induction l generalizing q with
    | nil => rfl
    | cons x l ih =>
      have step : (q.modGroup g f).clearMover x.channel = (q.clearMover x.channel).modGroup g f := by
        unfold Part.clearMover
        exact Part.judgeDisarm_modGroup (q.modChan x.channel Channel.dropMover) g f
      rw [Part.forEach_cons, Part.forEach_cons, step, ih]
  unfold Part.clearLanes
  rw [Part.modGroup_group_self, lanes]
  exact loop _ p

theorem Part.completeCue_timed : (p.timed g m).completeCue g n = p.completeCue g n := by
  unfold Part.completeCue Part.timed
  rw [Part.clearLanes_modGroup p g rfl, Part.modGroup_modGroup]

end Override

/-! ### The queue is told (R118 to R120) -/

section Told
variable {p : Part} {g : Grp} {n : Nat} {x : Cue} {rest : List Cue}

theorem Part.completeCue_same (g : Grp) (n : Nat) : (p.completeCue g n).group g = (p.group g).completed := by
  rw [Part.completeCue_group, if_pos rfl]

theorem Part.completeCue_told (g : Grp) (n : Nat) : (p.completeCue g n).codes.groups[g] = some (.cueDone n) := Part.raise_code ..

theorem Part.completeCue_queue (p : Part) (g h : Grp) (n : Nat) : (p.completeCue g n).queue h = p.queue h :=
  ((p.completeCue_kept g n).mono (cs := [.queues]) (by simp)).queue h

theorem Part.completeCue_clock (p : Part) (g : Grp) (n : Nat) : (p.completeCue g n).clock = p.clock :=
  p.completeCue_kept g n .clock (by simp)

/-- R77: the lane channels of a move that completes, which may wake the part. -/
theorem Part.completeCue_freed {ln : Lane} (mem : ln ∈ (p.group g).lanes) (holds : (p.chan ln.channel).state = .holding) :
    ((p.chan ln.channel).freed).Like ((p.completeCue g n).chan ln.channel) := by
  have free := Channel.freed_free (x := p.chan ln.channel) (.inl holds)
  have after : Part.Frees (p.clearLanes g) (p.completeCue g n) :=
    Part.Frees.trans (q := (p.clearLanes g).modGroup g Group.completed) (.of_chan fun _ => rfl) (.raise ..)
  have like := after.like ln.channel
  rw [Part.clearLanes_freed mem (.inl holds)] at like
  exact like free

/-- R119, R120: a completion fires an armable head that is due, with nothing but the queue's arming changed before. -/
theorem Part.arm_due (idle : (p.group g).state = .idle) (armable : p.Armable g) (cues : (p.queue g).cues = x :: rest)
    (due : x.trigger = .afterPrevious 0 ∨ ∃ mark, x.trigger = .atMark mark ∧ p.clock.running = true
      ∧ mark ≤ p.clock.value ∧ p.clock.value ≤ mark + (p.group g).lateGrace) :
    ∃ f : CueQueue → CueQueue, (f (p.queue g)).cues = x :: rest ∧ (f (p.queue g)).blocked = false
      ∧ p.arm .completion g = Part.fireHead (rest.length + 1) g (p.modQueue g f) := by
  have may := (Part.mayArm_iff idle).mpr armable
  rcases due with trigger | ⟨mark, trigger, running, reached, graced⟩
  · refine ⟨id, cues, armable.2.1, ?_⟩
    rw [Part.arm, Part.armHead_after may cues trigger, if_pos rfl, Part.fireIf_fires, cues, Part.modQueue_self rfl]
    rfl
  · refine ⟨fun q => ({ q with arming := .awaitingMark } : CueQueue).disarm, cues, armable.2.1, ?_⟩
    rw [Part.arm_mark may cues trigger, Part.judgeHead_due (p := p.modQueue g fun q => { q with arming := .awaitingMark })
      (x := x) (rest := rest) (mark := mark) (by rw [Part.modQueue_queue_self])
      (by rw [Part.modQueue_queue_self]; exact cues) trigger running reached graced, Part.modQueue_modQueue, Part.fireIf_fires,
      Part.modQueue_queue_self]
    exact congrArg (fun n => Part.fireHead n g _) (congrArg List.length cues)

/-- R120: a completion drops an armable head whose mark is past the late grace. -/
theorem Part.arm_late {mark : Nat} (idle : (p.group g).state = .idle) (armable : p.Armable g) (cues : (p.queue g).cues = x :: rest)
    (trigger : x.trigger = .atMark mark) (running : p.clock.running = true) (late : mark + (p.group g).lateGrace < p.clock.value) :
    p.arm .completion g = (p.modQueue g fun q => { q with arming := .awaitingMark }).dropLate g x := by
  rw [Part.arm_mark ((Part.mayArm_iff idle).mpr armable) cues trigger]
  exact Part.judgeHead_late (mark := mark) (rest := rest) (by rw [Part.modQueue_queue_self])
    (by rw [Part.modQueue_queue_self]; exact cues) trigger running late

/-- R123, R125: what the drop of a head leaves in its queue, its group and its code. -/
theorem Part.drop_told (cues : (p.queue g).cues = x :: rest) (e : Event) :
    let q := (p.modQueue g fun q => q.pop.block).raise (.group g) e
    q.queue g = droppedQueue rest ∧ q.codes.groups[g] = some e ∧ q.group g = p.group g := by
  have kept := (p.modQueue g fun q => q.pop.block).raise_kept (.group g) e
  refine ⟨?_, Part.raise_code .., (kept.mono (cs := [.groups]) (by simp)).group g⟩
  rw [(kept.mono (cs := [.queues]) (by simp)).queue, Part.modQueue_queue_self]
  exact CueQueue.pop_block cues

end Told

end Sys2Proof.Machine
end

section
set_option Elab.async false
/-! PROOFS. The end of a move at a control period (R77, R84, R118 to R123, R126, R145, R147). -/

namespace Sys2Proof.Machine

section Cue
variable {p : Part} {g : Grp} {m : MoveRecord} {n : Nat}

/-- R77: the completion of a cue move at a control period, told of the part before the period. -/
theorem Part.Landed.completed (landed : p.Landed g m) (source : m.source = .cue n) :
    p.period g = (p.completeCue g n).arm .completion g := by rw [landed.period_cue source, Part.completeCue_timed]

theorem Part.completeCue_waits (waits : p.HeadWaits g) :
    (p.completeCue g n).arm .completion g = (p.completeCue g n).modQueue g fun _ => p.queueOnCompletion g := by
  have bound : ((p.completeCue g n).group g).boundTrack = (p.group g).boundTrack := by
    rw [Part.completeCue_same]
    rfl
  have queue := p.completeCue_queue g g n
  rw [Part.arm_waits (by rw [Part.completeCue_same]; rfl)
    ((Part.headWaits_same bound queue (p.completeCue_clock g n)).mpr waits), Part.queueOnCompletion_same bound queue]

theorem Part.completeCue_armable (armable : p.Armable g) : (p.completeCue g n).Armable g := by
  unfold Part.Armable
  rw [Part.completeCue_same, Part.completeCue_queue]
  exact armable

end Cue

/-! ### The last group that a closing track awaits (R84, R145, R147) -/

section Track
variable {p : Part} {g : Grp} {c : Chan} {l : List Grp} {reason : StopReason}

/-- R84: the ends of other groups spare a group and a channel of none of them. -/
theorem Part.Spares.endOthers (p : Part) (l : List Grp) (reason : StopReason) (others : ∀ h ∈ l, h ≠ g)
    (out : ∀ h ∈ l, ∀ ln ∈ (p.group h).lanes, ln.channel ≠ c) : Part.Spares g c p (p.endAll l reason) := by
  induction l generalizing p with
  | nil => exact .refl g c p
  | cons h l ih =>
    have other : g ≠ h := (others h List.mem_cons_self).symm
    refine (Part.Spares.endOf p reason other (out h List.mem_cons_self)).trans
      (ih _ (fun i mem => others i (List.mem_cons_of_mem _ mem)) fun i mem ln lane => ?_)
    have beside := Part.Beside.endOf p h reason
    have lanes : ((p.endOf h reason).group i).lanes = (p.group i).lanes := by
      by_cases same : i = h
      · rw [same, beside.lanes]
      · rw [beside.groups i same]
    rw [lanes] at lane
    exact out i (List.mem_cons_of_mem _ mem) ln lane

/-- R81, R82, R84: a track move with all its channels HOLDING ends at once. -/
theorem Part.endOf_track {m : MoveRecord} {t : Trk} (active : (p.group g).active = true) (move : (p.group g).move = some m)
    (source : m.source = .track t) (holding : ∀ ln ∈ (p.group g).lanes, (p.chan ln.channel).state = .holding) :
    (p.endOf g .complete).group g = { p.group g with state := .idle, move := none, controlTimer := none } := by
  have own : (p.enterStopping g .complete).group g = { p.group g with
      state := .stopping, controlTimer := none, move := some { m with reason := some .complete } } := by
    rw [Part.enterStopping_group, if_pos rfl, move]
    rfl
  have rests : (p.enterStopping g .complete).atRest g = true := by
    rw [Part.enterStopping_atRest]
    rintro ⟨ln, lane, unheld, -⟩
    exact unheld (holding ln lane)
  have moved : ((p.enterStopping g .complete).group g).move = some { m with reason := some .complete } := by rw [own]
  unfold Part.endOf
  rw [if_pos active, if_pos rests, Part.exitCore_track moved (.inl rfl) source, Part.modGroup_group_self, Part.clearLanes_group, own]

/-- R84, R147: a group of a play that ends at once, among the others whose moves end with it. -/
theorem Part.playEnded_landed {m : MoveRecord} {t : Trk} (plays : g ∈ (p.track t).playing)
    (distinct : (((p.track t).playing.flatMap fun h => (p.group h).lanes).map (·.channel)).Nodup)
    (active : (p.group g).active = true) (move : (p.group g).move = some m) (source : m.source = .track t)
    (holding : ∀ ln ∈ (p.group g).lanes, (p.chan ln.channel).state = .holding) (e : Event) :
    (p.playEnded t .complete e).group g = { p.group g with state := .idle, move := none, controlTimer := none } := by
  obtain ⟨a, b, others, -, split⟩ := Part.endAll_splits plays (p.modTrack t Track.clearPlay) .complete
  have spares (c : Chan) (out : ∀ h ∈ a, ∀ ln ∈ (p.group h).lanes, ln.channel ≠ c) :=
    Part.Spares.endOthers (g := g) (c := c) (p.modTrack t Track.clearPlay) a .complete (fun h mem => (others h mem).2) out
  have group := Part.endAll_group_before others (p.modTrack t Track.clearPlay) .complete
  rw [Part.modTrack_group] at group
  have still : ∀ ln ∈ (((p.modTrack t Track.clearPlay).endAll a .complete).group g).lanes,
      (((p.modTrack t Track.clearPlay).endAll a .complete).chan ln.channel).state = .holding := by
    rw [group]
    intro ln lane
    refine (spares ln.channel fun h mem k there => ?_).chan.state.trans (holding ln lane)
    exact lanes_apart distinct plays (others h mem).1 (others h mem).2 k there ln lane
  unfold Part.playEnded
  rw [((Part.raise_kept _ _ _).mono (cs := [.groups]) (by simp)).group, split, Part.endAll_group_after,
    Part.endOf_track (by rw [group]; exact active) (by rw [group]; exact move) source still, group]

end Track

theorem controlPeriodEndsTheMove : Claims.ControlPeriodEndsTheMove := by
  intro g m s free out active landed
  have takes := exec_controlPeriod free out
  refine ⟨fun n source waits => ?_, ?_⟩
  · rw [landed.completed source, Part.completeCue_waits waits] at takes
    have complete := Part.Beside.completeCue s.part g n
    have beside := complete.trans (Part.Beside.modQueue (s.part.completeCue g n) g fun _ => s.part.queueOnCompletion g)
    refine ⟨_, takes, ?_⟩
    dsimp only
    refine ⟨?_, ?_, fun ln lane => ?_, ?_, fun h other => ?_, fun h other => ?_, Kept.drive beside.kept,
      fun up => ⟨⟨fun h other => ?_, fun c apart => ?_⟩, fun clear => Kept.drive (.cons (beside.ctl up clear) (.nil _ _))⟩⟩
    · rw [Part.drive_group, Part.modQueue_group, Part.completeCue_same]
      rfl
    · rw [Part.drive_codes]
      exact Part.completeCue_told g n
    · have holds := (landed.holding ln lane).1
      have freed := Part.completeCue_freed (n := n) lane holds
      rw [Part.drive_chan, Part.modQueue_chan, freed.state, freed.mover, freed.owner]
      simp [Channel.freed, holds]
    · rw [Part.drive_queue, Part.modQueue_queue_self]
    · rw [Part.drive_queue, beside.queues h other]
    · rw [Part.drive_group, beside.groups h other]
    · rw [Part.drive_group, beside.groups h other]
    · rw [Part.drive_chan, beside.chans up c apart]
  intro t source plays awaited
  have running : (s.part.group g).ranState m = .running :=
    Group.ranState_running active fun r mem => .inl (landed.arrived r mem)
  have own := s.part.timed_group (g := g) (m := m)
  rw [running] at own
  have reached : s.part.period g = if (s.part.track t).closing = true ∧ ¬awaited then
      ((s.part.timed g m).modTrack t fun x => { x with arrived := addGroup g x.arrived }).playEnded t .complete .trackEnded
      else (s.part.timed g m).modTrack t fun x => { x with arrived := addGroup g x.arrived } := by
    have all : (∀ h ∈ (s.part.track t).playing, h ∈ addGroup g (s.part.track t).arrived) ↔ ¬awaited := by
      simp only [mem_addGroup, awaited, not_exists, not_and, not_not]
      exact forall₂_congr fun h _ => by rw [or_iff_not_imp_left]
    have track : (s.part.timed g m).track t = s.part.track t := rfl
    rw [landed.period_track source, Part.segmentReached, track, if_pos (List.contains_iff_mem.mpr plays)]
    dsimp only
    rw [Part.modTrack_track_self, track, Part.endPlay_eq]
    simp only [Bool.and_eq_true, Track.allReached_iff, all]
  refine ⟨fun goes => ⟨_, takes, ?_⟩, fun closing last distinct => ⟨_, takes, ?_⟩⟩ <;> dsimp only
  · have stays : ¬((s.part.track t).closing = true ∧ ¬awaited) := fun ⟨closing, last⟩ => by
      rcases goes with open_ | waits
      · rw [open_] at closing
        cases closing
      · exact last waits
    rw [reached, if_neg stays]
    have kept : Kept s.part ((s.part.timed g m).modTrack t fun x => { x with arrived := addGroup g x.arrived })
        [.channels, .samples, .queues, .clock, .codes, .ctl, .link .a, .link .b] :=
      ((Part.modGroup_kept s.part g _).mono (by simp)).trans ((Part.modTrack_kept _ t _).mono (by simp))
    have record : ((s.part.timed g m).modTrack t fun x => { x with arrived := addGroup g x.arrived }).track t
        = { s.part.track t with arrived := addGroup g (s.part.track t).arrived } := Part.modTrack_track_self ..
    refine ⟨?_, fun h => ?_, ?_, fun u other => ?_, fun h other => ?_, Kept.drive kept⟩
    · rw [Part.drive_group, Part.modTrack_group, own]
    · rw [Part.drive_track, record]
      exact mem_addGroup ..
    · rw [Part.drive_track, record]
    · rw [Part.drive_track, Part.modTrack_track_ne _ _ _ _ other]
      rfl
    · rw [Part.drive_group, Part.modTrack_group]
      exact Part.modGroup_group_ne _ _ _ _ other
  · rw [reached, if_pos ⟨closing, last⟩]
    have lanes (h : Grp) : ((s.part.timed g m).group h).lanes = (s.part.group h).lanes := by
      by_cases same : h = g
      · rw [same, Part.timed_lanes]
      · exact congrArg Group.lanes (Part.modGroup_group_ne _ _ _ _ same)
    have track : ((s.part.timed g m).modTrack t fun x => { x with arrived := addGroup g x.arrived }).track t
        = { s.part.track t with arrived := addGroup g (s.part.track t).arrived } := Part.modTrack_track_self ..
    have ended := Part.playEnded_landed (p := (s.part.timed g m).modTrack t fun x => { x with arrived := addGroup g x.arrived })
      (g := g) (m := m) (t := t) (by rw [track]; exact plays) (by rw [track]; simpa only [Part.modTrack_group, lanes] using distinct)
      (by rw [Part.modTrack_group, own]; rfl) (by rw [Part.modTrack_group, own]; exact landed.move) source
      (by rw [Part.modTrack_group, lanes]; exact fun ln lane => (landed.holding ln lane).1) .trackEnded
    refine ⟨?_, ?_, ?_⟩
    · rw [Part.drive_track, Part.playEnded_track, track]
      rfl
    · rw [Part.drive_codes]
      exact Part.raise_trackCode ..
    · rw [Part.drive_group, ended, Part.modTrack_group, own]

theorem completionJudgesTheHeadBehind : Claims.CompletionJudgesTheHeadBehind := by
  intro g m n x rest s free out active landed source armable cues due dropped p
  have takes := exec_controlPeriod free out
  rw [landed.completed source] at takes
  have complete := Part.Beside.completeCue s.part g n
  have idle : (p.group g).state = .idle := by
    rw [Part.completeCue_same]
    rfl
  have queue : p.queue g = s.part.queue g := s.part.completeCue_queue g g n
  have clock : p.clock = s.part.clock := s.part.completeCue_clock g n
  have grace : (p.group g).lateGrace = (s.part.group g).lateGrace := by
    rw [Part.completeCue_same]
    rfl
  have open_ : p.Armable g := Part.completeCue_armable armable
  have cues' : (p.queue g).cues = x :: rest := by rw [queue, cues]
  have fires (h : due) : ∃ f : CueQueue → CueQueue, (f (p.queue g)).cues = x :: rest ∧ (f (p.queue g)).blocked = false
      ∧ p.arm .completion g = Part.fireHead (rest.length + 1) g (p.modQueue g f) :=
    Part.arm_due idle open_ cues' (by rw [clock, grace]; exact h)
  refine ⟨_, takes, ?_⟩
  dsimp only
  refine ⟨fun isDue admits travels => ?_, fun isDue unarmed => ?_, fun mark trigger running late => ?_⟩
  · obtain ⟨f, listed, unblocked, fired⟩ := fires isDue
    have armed : p.ctl.mode = .armed := admits.armed
    have up : s.part.ctl.mode ≠ .parked := fun parked => complete.unarmed (by rw [parked]; decide) armed
    have started := Part.fireHead_started (p := p.modQueue g f) (by rw [Part.modQueue_queue_self]; exact listed)
      (Part.modQueue_admits.mpr admits) idle travels rest.length
    have beside := complete.trans (Part.Beside.arm p .completion g)
    have kept := Part.startMove_kept (p.modQueue g f) g x.tier x.origin (.cue x.number) (some x.speed)
      ((p.modQueue g f).planOf g (cueSpeed x.speed) ((p.modQueue g f).cueTargets g x))
    have move := Part.startMove_started (p := p.modQueue g f) admits.distinct x.tier x.origin (.cue x.number) (some x.speed)
      (cueSpeed x.speed) (p.cueTargets g x)
    have codes := kept .codes (by simp)
    have popped := (kept.mono (cs := [.queues]) (by simp)).queue g
    refine ⟨?_, ?_, ?_, ⟨fun h other => ?_, fun c apart => ?_⟩, fun h other => ?_, Kept.drive beside.kept⟩
    · rw [fired, started]
      have told : p.Started ((p.modQueue g f).startMove g x.tier x.origin (.cue x.number) (some x.speed)
        ((p.modQueue g f).planOf g (cueSpeed x.speed) (p.cueTargets g x))) g x.tier x.origin (.cue x.number) (some x.speed)
        (cueSpeed x.speed) (p.cueTargets g x) := move
      exact told.later ⟨by rw [Part.drive_group, Part.modQueue_group]; rfl, fun _ _ => by rw [Part.drive_chan, Part.modQueue_chan]; rfl⟩
    · rw [Part.drive_queue, fired, started, Part.modQueue_queue_self, popped, Part.modQueue_queue_self]
      simp [CueQueue.pop, CueQueue.rest, listed, unblocked, cues]
    · rw [Part.drive_codes, fired, started]
      exact (congrArg (fun k : EventCodes => k.groups[g]) codes).trans (Part.completeCue_told g n)
    · rw [Part.drive_group, beside.groups h other]
    · rw [Part.drive_chan, beside.chans up c apart]
    · rw [Part.drive_queue, beside.queues h other]
  · obtain ⟨f, listed, -, fired⟩ := fires isDue
    have refused := Part.fireHead_refused (p := p.modQueue g f) (by rw [Part.modQueue_queue_self]; exact listed)
      (Part.fire_unarmed (p := p.modQueue g f) unarmed _ _ _ _) rest.length
    obtain ⟨own, code, group⟩ := Part.drop_told (p := p.modQueue g f) (g := g) (x := x) (rest := rest)
      (by rw [Part.modQueue_queue_self]; exact listed) (.cueRefused x.number .mode noIndex)
    rw [Part.drive_queue, Part.drive_codes, Part.drive_group, fired, refused]
    exact ⟨own, code, group⟩
  · have late' := Part.arm_late idle open_ cues' trigger (by rw [clock]; exact running) (by rw [clock, grace]; exact late)
    obtain ⟨own, code, group⟩ := Part.drop_told (p := p.modQueue g fun q => { q with arming := .awaitingMark }) (g := g) (x := x)
      (rest := rest) (by rw [Part.modQueue_queue_self]; exact cues') (.cueLate x.number)
    rw [Part.drive_queue, Part.drive_codes, Part.drive_group, late']
    exact ⟨own, code, group⟩

/-- Settles O47: a landed move completes on the part as the period found it. -/
theorem controlPeriodCompletesTheMove : Obligations.ControlPeriodCompletesTheMove :=
  ⟨controlPeriodEndsTheMove, completionJudgesTheHeadBehind⟩

end Sys2Proof.Machine
end

section
set_option Elab.async false
/-! PROOFS. What the ends of motion leave of the part: stops, halts of groups and tracks, ends of jogs, and their notices
(R8, R12, R81, R82, R148, R174, R175). -/

namespace Sys2Proof.Machine

/-! ### One channel -/

/-- A channel that winds down: it is stopped or loses its mover, and takes no new motion. -/
structure Channel.Winds (x y : Channel) : Prop where
  same : y = { x with
    state := y.state, direction := y.direction, confirmMark := y.confirmMark, confirmTimer := y.confirmTimer
    pendingRelease := y.pendingRelease, history := y.history, standstillTimer := y.standstillTimer
    reversalExtreme := y.reversalExtreme, watchArmed := y.watchArmed, progressMark := y.progressMark
    progressTimer := y.progressTimer, mover := y.mover, jog := y.jog, owner := y.owner, releaseOnEnd := y.releaseOnEnd
    watchBaseline := y.watchBaseline }
  still : x.live = false → y = { x with
    state := y.state, pendingRelease := y.pendingRelease, watchArmed := y.watchArmed, progressMark := y.progressMark
    progressTimer := y.progressTimer, mover := y.mover, jog := y.jog, owner := y.owner, releaseOnEnd := y.releaseOnEnd
    watchBaseline := y.watchBaseline }
  state : y.state = x.state ∨ x.live = true ∧ y.state = .stopping ∨ x.state = .holding ∧ y.state = .idle
  owner : y.owner = x.owner ∧ y.releaseOnEnd = x.releaseOnEnd
    ∨ y.releaseOnEnd = false ∧ y.owner = if x.releaseOnEnd then none else x.owner
  mover : y.mover = x.mover ∧ y.jog = x.jog ∨ y.mover = .none ∧ y.jog = none
  release : y.pendingRelease = x.pendingRelease ∨ y.pendingRelease = none
  history : y.history = x.history ∨ y.history = []

namespace Channel.Winds
variable {x y z : Channel}

theorem refl (x : Channel) : x.Winds x :=
  ⟨rfl, fun _ => rfl, .inl rfl, .inl ⟨rfl, rfl⟩, .inl ⟨rfl, rfl⟩, .inl rfl, .inl rfl⟩

theorem rests (h : x.Winds y) (rest : x.live = false) : y.live = false := by
  rcases h.state with same | ⟨live, -⟩ | ⟨-, idle⟩
  · unfold Channel.live at rest ⊢
    rw [same, rest]
  · rw [rest] at live
    cases live
  · simp [Channel.live, idle]

theorem trans (h : x.Winds y) (k : y.Winds z) : x.Winds z := by
  refine ⟨?_, fun rest => ?_, ?_, ?_, ?_, ?_, ?_⟩
  · rw [k.same, h.same]
  · rw [k.still (h.rests rest), h.still rest]
  · rcases h.state with same | ⟨live, stopping⟩ | ⟨holding, idle⟩
    · rcases k.state with same' | ⟨live, stopping⟩ | ⟨holding, idle⟩
      · exact .inl (same'.trans same)
      · refine .inr (.inl ⟨?_, stopping⟩)
        unfold Channel.live at live ⊢
        rwa [← same]
      · exact .inr (.inr ⟨by rw [← same, holding], idle⟩)
    · rcases k.state with same' | ⟨live', -⟩ | ⟨holding, -⟩
      · exact .inr (.inl ⟨live, by rw [same', stopping]⟩)
      · simp [Channel.live, stopping] at live'
      · rw [stopping] at holding
        cases holding
    · rcases k.state with same' | ⟨live', -⟩ | ⟨holding', -⟩
      · exact .inr (.inr ⟨holding, by rw [same', idle]⟩)
      · simp [Channel.live, idle] at live'
      · rw [idle] at holding'
        cases holding'
  · rcases h.owner with ⟨owner, mark⟩ | ⟨mark, owner⟩
    · rcases k.owner with ⟨owner', mark'⟩ | ⟨mark', owner'⟩
      · exact .inl ⟨owner'.trans owner, mark'.trans mark⟩
      · exact .inr ⟨mark', by rw [owner', mark, owner]⟩
    · rcases k.owner with ⟨owner', mark'⟩ | ⟨mark', owner'⟩
      · exact .inr ⟨mark'.trans mark, owner'.trans owner⟩
      · exact .inr ⟨mark', by rw [owner', mark]; exact owner⟩
  · rcases k.mover with ⟨mover', jog'⟩ | gone
    · rw [mover', jog']
      exact h.mover
    · exact .inr gone
  · rcases k.release with same | gone
    · rw [same]
      exact h.release
    · exact .inr gone
  · rcases k.history with same | gone
    · rw [same]
      exact h.history
    · exact .inr gone

theorem stop (x : Channel) : x.Winds x.stop := by
  rw [Channel.stop_eq]
  unfold Channel.afterStop
  split
  · next runs =>
    have live : x.live = true := by simpa [Channel.live] using runs
    exact ⟨rfl, fun rest => by (rw [live] at rest; cases rest), .inr (.inl ⟨live, rfl⟩), .inl ⟨rfl, rfl⟩, .inl ⟨rfl, rfl⟩,
      .inr rfl, .inr rfl⟩
  · split
    · exact ⟨rfl, fun _ => rfl, .inl rfl, .inl ⟨rfl, rfl⟩, .inl ⟨rfl, rfl⟩, .inr rfl, .inl rfl⟩
    · exact refl x

theorem freed (x : Channel) : x.Winds x.freed := by
  refine ⟨rfl, fun _ => rfl, ?_, .inr ⟨rfl, rfl⟩, .inr ⟨rfl, rfl⟩, .inr rfl, .inl rfl⟩
  by_cases holds : x.state = .holding
  · exact .inr (.inr ⟨holds, if_pos holds⟩)
  · exact .inl (if_neg holds)

theorem like (h : x.Like y) : x.Winds y := by
  unfold Channel.Like at h
  refine ⟨?_, fun _ => ?_, .inl ?_, .inl ⟨?_, ?_⟩, .inl ⟨?_, ?_⟩, .inl ?_, .inl ?_⟩ <;> rw [h]

theorem fault (h : x.Winds y) : y.fault = x.fault := by rw [h.same]
theorem config (h : x.Winds y) : y.config = x.config := by rw [h.same]
theorem kind (h : x.Winds y) : y.kind = x.kind := by rw [h.same]

end Channel.Winds

/-! ### The part -/

/-- A link that has been offered notices: nothing but its pending set and its attention may have changed, and no pair has left. -/
structure LinkIf.Offered (x y : LinkIf) : Prop where
  same : y = { x with pending := y.pending, attention := y.attention }
  pending : ∀ pair ∈ x.pending, pair ∈ y.pending

theorem LinkIf.Offered.refl (x : LinkIf) : x.Offered x := ⟨rfl, fun _ => id⟩

theorem LinkIf.Offered.trans {x y z : LinkIf} (h : x.Offered y) (k : y.Offered z) : x.Offered z :=
  ⟨by rw [k.same, h.same], fun pair mem => k.pending pair (h.pending pair mem)⟩

theorem LinkIf.offer_offered (x : LinkIf) (pair : NoticePair) : x.Offered (x.offer pair) := by
  refine ⟨?_, fun other mem => (LinkIf.mem_offer x pair other).mpr (.inl mem)⟩
  unfold LinkIf.offer
  split <;> rfl

/-- The part winds down: channels stop or lose their movers, groups end their moves, plays end, and notices of groups, tracks and
modes are raised. -/
structure Part.Winds (p q : Part) : Prop where
  chans : ∀ c, (p.chan c).Winds (q.chan c)
  lanes : ∀ g, (q.group g).lanes = (p.group g).lanes
  kept : Kept p q [.samples, .queues, .clock]
  faults : q.codes.faults = p.codes.faults
  watches : q.codes.watches = p.codes.watches
  links : ∀ l, (p.link l).Offered (q.link l)
  awake : p.ctl.mode ≠ .parked → q.ctl.mode ≠ .parked
  up : p.ctl.mode ≠ .halted → q.ctl.mode ≠ .halted
  ctl : p.ctl.mode ≠ .parked → p.ctl.mode ≠ .armed ∨ p.ctl.silenceDisarm = false →
    q.ctl = p.ctl ∧ q.codes.mode = p.codes.mode

namespace Part.Winds
variable {p q r : Part}

theorem refl (p : Part) : Part.Winds p p :=
  ⟨fun _ => .refl _, fun _ => rfl, .refl _ _, rfl, rfl, fun _ => .refl _, id, id, fun _ _ => ⟨rfl, rfl⟩⟩

theorem trans (h : Part.Winds p q) (k : Part.Winds q r) : Part.Winds p r := by
  refine ⟨fun c => (h.chans c).trans (k.chans c), fun g => (k.lanes g).trans (h.lanes g), h.kept.trans k.kept,
    k.faults.trans h.faults, k.watches.trans h.watches, fun l => (h.links l).trans (k.links l), fun up => k.awake (h.awake up),
    fun off => k.up (h.up off), fun up quiet => ?_⟩
  obtain ⟨ctl, code⟩ := h.ctl up quiet
  obtain ⟨ctl', code'⟩ := k.ctl (by rw [ctl]; exact up) (by rw [ctl]; exact quiet)
  exact ⟨ctl'.trans ctl, code'.trans code⟩

theorem of_kept (kept : Kept p q [.ctl, .link .a, .link .b, .samples, .queues, .clock, .codes])
    (chans : ∀ c, (p.chan c).Winds (q.chan c)) (lanes : ∀ g, (q.group g).lanes = (p.group g).lanes) : Part.Winds p q := by
  have ctl : q.ctl = p.ctl := kept .ctl (by simp)
  have codes : q.codes = p.codes := kept .codes (by simp)
  refine ⟨chans, lanes, kept.mono (by simp), by rw [codes], by rw [codes], fun l => ?_, by rw [ctl]; exact id,
    by rw [ctl]; exact id, fun _ _ => ⟨ctl, by rw [codes]⟩⟩
  have link : q.link l = p.link l := by cases l <;> exact kept (.link _) (by simp)
  rw [link]
  exact .refl _

theorem draw (p : Part) (n : Nat) : Part.Winds p (p.draw n) :=
  of_kept ((p.draw_kept n).mono (by simp)) (fun _ => .refl _) fun _ => rfl

theorem modTrack (p : Part) (t : Trk) (f : Track → Track) : Part.Winds p (p.modTrack t f) :=
  of_kept ((Part.modTrack_kept p t f).mono (by simp)) (fun _ => .refl _) fun _ => rfl

theorem modGroup (p : Part) (g : Grp) {f : Group → Group} (lanes : (f (p.group g)).lanes = (p.group g).lanes) :
    Part.Winds p (p.modGroup g f) := by
  refine of_kept ((Part.modGroup_kept p g f).mono (by simp)) (fun _ => .refl _) fun h => ?_
  by_cases same : h = g
  · rw [same, Part.modGroup_group_self, lanes]
  · rw [Part.modGroup_group_ne _ _ _ _ same]

theorem modChan (p : Part) (c : Chan) {f : Channel → Channel} (winds : (p.chan c).Winds (f (p.chan c))) :
    Part.Winds p (p.modChan c f) := by
  refine of_kept ((Part.modChan_kept p c f).mono (by simp)) (fun d => ?_) fun _ => rfl
  by_cases same : d = c
  · rw [same, Part.modChan_chan_self]
    exact winds
  · rw [Part.modChan_chan_ne _ _ _ _ same]
    exact .refl _

theorem forEach {α : Type} {f : Part → α → Part} (l : List α) (each : ∀ q x, Part.Winds q (f q x)) (p : Part) :
    Part.Winds p (p.forEach l f) :=
  Part.forEach_inv (P := fun q => Part.Winds p q) (refl p) fun q x _ winds => winds.trans (each q x)

/-- A notice that is neither the mode's nor a channel's fault; it may wake the part. -/
theorem raise (p : Part) {pair : NoticePair} (e : Event) (other : ∀ d, pair ≠ .channelFault d ∧ pair ≠ .loadWatch d)
    (mode : pair ≠ .mode) : Part.Winds p (p.raise pair e) := by
  have groups := ((p.raise_kept pair e).mono (cs := [.groups]) (by simp)).group
  refine ⟨fun c => .like (p.raise_like pair e c), fun g => by rw [groups], (p.raise_kept pair e).mono (by simp), ?_, ?_, fun l => ?_,
    fun up => ?_, fun off => ?_, fun up _ => ?_⟩
  · rw [Part.raise_codes]
    cases pair with
    | channelFault d => exact absurd rfl (other d).1
    | mode | link | group | track | loadWatch => rfl
  · rw [Part.raise_codes]
    cases pair with
    | loadWatch d => exact absurd rfl (other d).2
    | mode | link | group | track | channelFault => rfl
  · by_cases wakes : p.Wakes pair e
    · rw [Part.raise_wakes wakes, Part.changeMode_link, Part.post_link]
      exact (LinkIf.offer_offered _ _).trans (LinkIf.offer_offered _ _)
    · rw [Part.raise_sleeps wakes, Part.post_link]
      exact LinkIf.offer_offered _ _
  · rw [Part.raise_awake up, Part.post_ctl]
    exact up
  · by_cases wakes : p.Wakes pair e
    · rw [Part.raise_wakes wakes, Part.changeMode_ctl, ModeCtl.setPower_mode]
      exact fun same => by cases same
    · rw [Part.raise_sleeps wakes, Part.post_ctl]
      exact off
  · rw [Part.raise_awake up]
    refine ⟨Part.post_ctl .., ?_⟩
    cases pair with
    | mode => exact absurd rfl mode
    | channelFault d => exact absurd rfl (other d).1
    | link | group | track | loadWatch => rfl

/-- R164: the disarm that a silence had left pending. -/
theorem judgeDisarm (p : Part) : Part.Winds p p.judgeDisarm := by
  rcases p.judgeDisarm_eq with same | ⟨pending, armed, -, disarmed⟩
  · rw [same]
    exact refl p
  · have kept := p.judgeDisarm_kept
    refine ⟨fun c => by rw [Part.judgeDisarm_chan]; exact .refl _, fun g => by rw [(kept.mono (cs := [.groups]) (by simp)).group],
      kept.mono (by simp), Part.Spares.judgeDisarm p, ?_, fun l => ?_, fun _ => ?_, fun _ => ?_, fun _ quiet => ?_⟩
    · rw [disarmed, Part.changeMode_codes]
      rfl
    · rw [disarmed, Part.changeMode_link]
      exact LinkIf.offer_offered _ _
    · rw [disarmed, Part.changeMode_ctl, ModeCtl.setPower_mode]
      exact fun same => by cases same
    · rw [disarmed, Part.changeMode_ctl, ModeCtl.setPower_mode]
      exact fun same => by cases same
    · rcases quiet with off | clear
      · exact absurd armed off
      · rw [clear] at pending
        cases pending

theorem clearMover (p : Part) (c : Chan) : Part.Winds p (p.clearMover c) :=
  (modChan p c (by rw [Channel.dropMover_eq]; exact .freed _)).trans (judgeDisarm _)

theorem endJog (p : Part) (c : Chan) : Part.Winds p (p.endJog c) := (modChan p c (.stop _)).trans (clearMover _ c)

theorem endJogs (p : Part) (which : Link → Bool) : Part.Winds p (p.endJogs which) := by
  refine forEach _ (fun q c => ?_) p
  split
  · split
    · exact endJog q c
    · exact refl q
  · exact refl q
  · exact refl q

theorem clearLanes (p : Part) (g : Grp) : Part.Winds p (p.clearLanes g) :=
  forEach _ (fun q (ln : Lane) => clearMover q ln.channel) p

theorem exitCore (p : Part) (g : Grp) : Part.Winds p (p.exitCore g) := by
  have changed (f : Group → Group) (lanes : ∀ x, (f x).lanes = x.lanes) : Part.Winds p ((p.clearLanes g).modGroup g f) :=
    (clearLanes p g).trans (modGroup _ g (lanes _))
  have told (f : Group → Group) (lanes : ∀ x, (f x).lanes = x.lanes) (e : Event) :
      Part.Winds p (((p.clearLanes g).modGroup g f).raise (.group g) e) :=
    (changed f lanes).trans (raise _ e (fun d => by simp) (by simp))
  have faulted := told (fun x => { x with state := .faulted }) (fun _ => rfl)
  have idled := told (fun x => { x with state := .idle, move := none }) (fun _ => rfl)
  have held := told (fun x => { x with state := .held, held := true }) (fun _ => rfl)
  unfold Part.exitCore
  split
  · exact refl p
  · dsimp only
    split
    · split
      · exact faulted _
      · exact changed (fun x => { x with state := .faulted }) fun _ => rfl
    · exact idled _
    · exact changed (fun x => { x with state := .idle, move := none }) fun _ => rfl
    · exact held _

theorem enterStopping (p : Part) (g : Grp) (reason : StopReason) : Part.Winds p (p.enterStopping g reason) :=
  (modGroup p g (f := fun x => { x with
    state := .stopping, controlTimer := none, move := x.move.map fun m => { m with reason := some reason } }) rfl).trans
    (forEach _ (fun q (ln : Lane) => modChan q ln.channel (.stop _)) _)

theorem endOf (p : Part) (g : Grp) (reason : StopReason) : Part.Winds p (p.endOf g reason) := by
  unfold Part.endOf
  split
  · split
    · exact (enterStopping p g reason).trans (exitCore _ g)
    · exact enterStopping p g reason
  · exact refl p

theorem endAll (p : Part) (l : List Grp) (reason : StopReason) : Part.Winds p (p.endAll l reason) :=
  forEach _ (fun q g => endOf q g reason) p

theorem playEnded (p : Part) (t : Trk) (reason : StopReason) (e : Event) : Part.Winds p (p.playEnded t reason e) :=
  ((modTrack p t _).trans (endAll _ _ reason)).trans (raise _ e (fun d => by simp) (by simp))

theorem moveEnded (p : Part) (t : Trk) (g : Grp) : Part.Winds p (p.moveEnded t g) := by
  have dropped := modTrack p t (Track.dropPlaying g)
  unfold Part.moveEnded
  split
  · dsimp only
    split
    · split
      · exact dropped.trans ((modTrack _ t _).trans (raise _ _ (fun d => by simp) (by simp)))
      · exact dropped
    · split
      · rw [Part.endPlay_eq]
        exact dropped.trans (playEnded ..)
      · exact dropped
  · exact refl p

end Part.Winds

/-! ### Stops of groups and of plays -/

section Stops
variable {p : Part} {g : Grp} {t : Trk} {reason : StopReason}

theorem Part.exitStopping_waits (waits : p.atRest g = false) : p.exitStopping g = p := by
  unfold Part.exitStopping
  rw [waits, Bool.and_false]
  exact if_neg Bool.false_ne_true

theorem Part.exitStopping_tells {m : MoveRecord} (stopping : (p.group g).state = .stopping) (rests : p.atRest g = true)
    (move : (p.group g).move = some m) : p.exitStopping g = (p.exitCore g).tellEnd g m := by
  unfold Part.exitStopping
  rw [stopping, rests, move]
  exact if_pos rfl

theorem Part.exitStopping_still (move : (p.group g).move = none) : p.exitStopping g = p := by
  unfold Part.exitStopping
  rw [move]
  exact ite_self p

theorem Part.exitCore_still (move : (p.group g).move = none) : p.exitCore g = p := by
  unfold Part.exitCore
  rw [move]

theorem Part.tellEnd_mild {m : MoveRecord} (mild : m.reason ≠ some .complete) :
    p.tellEnd g m = match m.source with
      | .track t => p.moveEnded t g
      | .cue _ => p := by
  unfold Part.tellEnd
  cases m.source with
  | track t => rfl
  | cue n => exact if_neg mild

/-- R82, R145: the end of a group's move by a stop that completes nothing, and what its track is told. -/
theorem Part.stopGroup_eq (mild : reason ≠ .complete) :
    p.stopGroup g reason = match (p.group g).trackOf with
      | some t => if (p.group g).active = true ∧ (p.enterStopping g reason).atRest g = true then (p.endOf g reason).moveEnded t g
          else p.endOf g reason
      | none => p.endOf g reason := by
  by_cases active : (p.group g).active = true
  · have stopped : p.stopGroup g reason = (p.enterStopping g reason).exitStopping g := if_pos active
    have moved : ((p.enterStopping g reason).group g).move = (p.group g).move.map fun m => { m with reason := some reason } := by
      rw [Part.enterStopping_group, if_pos rfl]
    cases rests : (p.enterStopping g reason).atRest g with
    | false =>
      have ended : p.endOf g reason = p.enterStopping g reason := (if_pos active).trans (if_neg (by simp [rests]))
      rw [stopped, Part.exitStopping_waits rests, ended]
      cases (p.group g).trackOf with
      | none => rfl
      | some t => exact (if_neg fun both => by simp at both).symm
    | true =>
      have ended : p.endOf g reason = (p.enterStopping g reason).exitCore g := (if_pos active).trans (if_pos rests)
      rw [stopped, ended]
      unfold Group.trackOf
      cases move : (p.group g).move with
      | none =>
        rw [move] at moved
        rw [Part.exitStopping_still moved, Part.exitCore_still moved]
      | some m =>
        rw [move] at moved
        rw [Part.exitStopping_tells (p.enterStopping_state g reason) rests moved,
          Part.tellEnd_mild fun same => mild (Option.some.inj same)]
        dsimp only
        cases m.source with
        | track t => exact (if_pos (And.intro active rfl)).symm
        | cue n => rfl
  · have inactive := Bool.eq_false_iff.mpr active
    rw [Part.stopGroup_inactive inactive, Part.endOf_inactive inactive]
    cases (p.group g).trackOf with
    | none => rfl
    | some t => exact (if_neg fun both => active both.1).symm

theorem Part.Winds.stopGroup (p : Part) (g : Grp) (mild : reason ≠ .complete) : Part.Winds p (p.stopGroup g reason) := by
  rw [Part.stopGroup_eq mild]
  split
  · split
    · exact (Part.Winds.endOf p g reason).trans (.moveEnded ..)
    · exact .endOf p g reason
  · exact .endOf p g reason

theorem Part.Winds.haltTrack (p : Part) (t : Trk) : Part.Winds p (p.haltTrack t) := by
  have stopped : Part.Winds p (((p.modTrack t Track.clearPlay).forEach (p.track t).playing fun p g => p.stopGroup g .request).raise
      (.track t) .trackStopped) :=
    ((Part.Winds.modTrack p t _).trans (.forEach _ (fun q g => .stopGroup q g (by decide)) _)).trans
      (.raise _ _ (fun d => by simp) (by simp))
  unfold Part.haltTrack
  split
  · exact stopped
  · exact stopped
  · exact .modTrack p t _
  · exact .modTrack p t _

end Stops

end Sys2Proof.Machine
end

section
set_option Elab.async false
/-! PROOFS. What every judgement of a taking leaves: the live values and the configuration of the channels, their fault records but for
new kinds, the ports, the clock and the watch codes (R5, R17, R102, R111, R155). -/

namespace Sys2Proof.Machine

/-! ### One channel -/

/-- What a sample or a configuration writes to a channel (R2, R4). -/
def Channel.reading (x : Channel) : ChannelKind × ChannelConfig × Int × Nat × Int × Bool × Bool × Bool × Bool :=
  (x.kind, x.config, x.raw, x.load, x.offset, x.referenced, x.upperOpen, x.lowerOpen, x.driveFault)

/-- A channel before and after judgements: they write none of its live values, and its fault record only grows. -/
structure Channel.Senses (x y : Channel) : Prop where
  reading : y.reading = x.reading
  record : ∀ r, x.fault = some r →
    ∃ r', y.fault = some r' ∧ r'.first = r.first ∧ r'.position = r.position ∧ r'.load = r.load
  holds : ∀ k, x.holdsFault k = true → y.holdsFault k = true

namespace Channel.Senses
variable {x y z : Channel}

theorem of_fault (reading : y.reading = x.reading) (fault : y.fault = x.fault) : x.Senses y := by
  refine ⟨reading, fun r recorded => ⟨r, fault.trans recorded, rfl, rfl, rfl⟩, fun k holds => ?_⟩
  unfold Channel.holdsFault
  rw [fault]
  exact holds

theorem refl (x : Channel) : x.Senses x := of_fault rfl rfl

theorem trans (h : x.Senses y) (k : y.Senses z) : x.Senses z := by
  refine ⟨k.reading.trans h.reading, fun r recorded => ?_, fun f holds => k.holds f (h.holds f holds)⟩
  obtain ⟨r', recorded', first, position, load⟩ := h.record r recorded
  obtain ⟨r'', recorded'', first', position', load'⟩ := k.record r' recorded'
  exact ⟨r'', recorded'', first'.trans first, position'.trans position, load'.trans load⟩

theorem winds (h : x.Winds y) : x.Senses y := of_fault (by rw [h.same]; rfl) h.fault

theorem steered (h : x.Steered y) : x.Senses y := by
  unfold Channel.Steered at h
  exact of_fault (by rw [h]; rfl) (by rw [h])

theorem kind (h : x.Senses y) : y.kind = x.kind := congrArg (·.1) h.reading
theorem config (h : x.Senses y) : y.config = x.config := congrArg (·.2.1) h.reading
theorem raw (h : x.Senses y) : y.raw = x.raw := congrArg (·.2.2.1) h.reading
theorem load (h : x.Senses y) : y.load = x.load := congrArg (·.2.2.2.1) h.reading
theorem offset (h : x.Senses y) : y.offset = x.offset := congrArg (·.2.2.2.2.1) h.reading
theorem referenced (h : x.Senses y) : y.referenced = x.referenced := congrArg (·.2.2.2.2.2.1) h.reading
theorem upperOpen (h : x.Senses y) : y.upperOpen = x.upperOpen := congrArg (·.2.2.2.2.2.2.1) h.reading
theorem lowerOpen (h : x.Senses y) : y.lowerOpen = x.lowerOpen := congrArg (·.2.2.2.2.2.2.2.1) h.reading
theorem driveFault (h : x.Senses y) : y.driveFault = x.driveFault := congrArg (·.2.2.2.2.2.2.2.2) h.reading

theorem configured (h : x.Senses y) : y.configured = x.configured := by
  unfold Channel.configured
  rw [h.kind]

end Channel.Senses

theorem Channel.faultState_same (x : Channel) : x.faultState.reading = x.reading ∧ x.faultState.fault = x.fault := by
  unfold Channel.faultState
  rw [Channel.toStopping_eq]
  split <;> exact ⟨rfl, rfl⟩

/-- R17, R102: the record holds the new kind, and every kind it held. -/
theorem Channel.enterFault_holds (x : Channel) (k f : FaultKind) :
    (x.enterFault k).holdsFault f = (x.holdsFault f || f == k) := by
  unfold Channel.enterFault Channel.holdsFault
  cases x.fault with
  | none => simp [FaultRecord.holds, eq_comm]
  | some r =>
    rw [Bool.eq_iff_iff]
    simp only [FaultRecord.holds, Bool.or_eq_true, List.contains_iff_mem, mem_addKind, beq_iff_eq]
    tauto

theorem Channel.enterFault_senses (x : Channel) (k : FaultKind) : x.Senses (x.enterFault k) := by
  refine ⟨?_, fun r recorded => ?_, fun f holds => ?_⟩
  · unfold Channel.enterFault
    split <;> rfl
  · unfold Channel.enterFault
    rw [recorded]
    exact ⟨_, rfl, rfl, rfl, rfl⟩
  · rw [Channel.enterFault_holds, holds]
    rfl

theorem Channel.faulted_senses (x : Channel) (k : FaultKind) : x.Senses (x.enterFault k).faultState :=
  (x.enterFault_senses k).trans (.of_fault (Channel.faultState_same _).1 (Channel.faultState_same _).2)

theorem reserveChannel_senses (g : Grp) (r : LaneRecord) (x : Channel) : x.Senses (reserveChannel g r x) := by
  have moved : x.Senses { x with mover := .group g } := .of_fault rfl rfl
  unfold reserveChannel
  dsimp only
  split
  · exact .of_fault rfl rfl
  · exact moved.trans ((Channel.Senses.steered (Channel.start_steered ..)).trans (.steered (Channel.armWatch_steered ..)))

theorem Channel.leaveStopping_senses (x : Channel) : x.Senses x.leaveStopping := by
  have rested : x.Senses { x with standstillTimer := none, rest := x.raw } := .of_fault rfl rfl
  unfold Channel.leaveStopping
  dsimp only
  split
  · exact .of_fault rfl rfl
  · split
    · exact rested.trans (.steered (Channel.start_steered ..))
    · split <;> exact .of_fault rfl rfl

theorem Channel.standstill_senses (x : Channel) : x.Senses x.standstill := by
  have ended : x.Senses x.endSettling := .of_fault rfl rfl
  unfold Channel.standstill
  dsimp only
  split
  · split
    · exact ended.trans (Channel.leaveStopping_senses _)
    · exact ended
  · split
    · exact Channel.leaveStopping_senses _
    · exact .refl x

theorem Channel.toMoving_senses (x : Channel) : x.Senses x.toMoving := by
  unfold Channel.toMoving
  exact Channel.Senses.trans (.of_fault rfl rfl) (.steered (Channel.syncWatch_steered _))

theorem Channel.watched_senses (x : Channel) : x.Senses x.moveExtreme.moveProgress := by
  refine .of_fault ?_ ?_
  all_goals
    unfold Channel.moveProgress Channel.moveExtreme
    repeat' split
    all_goals rfl

/-! ### A fault that reaches a channel (R17) -/

/-- R17, R23, R79: the channel has entered a kind, and its mover has been told. -/
def Part.struck (p : Part) (c : Chan) (k : FaultKind) : Part :=
  match (p.chan c).mover with
  | .group g => (p.modChan c fun x => (x.enterFault k).faultState).memberFault g c k
  | .jog _ => (p.modChan c fun x => (x.enterFault k).faultState).endJog c
  | .none => p.modChan c fun x => (x.enterFault k).faultState

/-- R17, R103: the same with the notice of the fault. -/
def Part.noticed (p : Part) (c : Chan) (k : FaultKind) : Part := (p.struck c k).raise (.channelFault c) (.fault k)

theorem Part.faultReaches_eq (p : Part) (c : Chan) (k : FaultKind) :
    p.faultReaches c k =
      if ((p.chan c).configured && !(p.chan c).holdsFault k) = true then
        if k.isDevice then (p.noticed c k).halt (.deviceFault c) else p.noticed c k
      else p := by
  unfold Part.faultReaches Part.noticed Part.struck
  cases (p.chan c).mover <;> rfl

/-! ### The arming of a head (R118 to R123) -/

section Arming
variable {R : Part → Part → Prop} {g : Grp} (refl : ∀ p, R p p) (trans : ∀ {p q r}, R p q → R q r → R p r)
  (queue : ∀ (p : Part) f, R p (p.modQueue g f)) (drop : ∀ (p : Part) f e, R p ((p.modQueue g f).raise (.group g) e))
include refl queue drop

theorem Part.judgeMark_induction (p : Part) : R p (p.judgeMark g).1 := by
  by_cases waiting : (p.queue g).arming = .awaitingMark
  · unfold Part.judgeMark
    rw [waiting]
    split
    · split
      · split
        · split
          · exact queue p _
          · exact drop p _ _
        · exact refl p
      all_goals exact refl p
    · exact refl p
  · rw [Part.judgeMark_idle waiting]
    exact refl p

include trans

theorem Part.armHead_induction (p : Part) (occ : Occasion) : R p (p.armHead occ g).1 := by
  cases may : p.mayArm g with
  | false =>
    rw [Part.armHead_barred may]
    exact refl p
  | true =>
    cases cues : (p.queue g).cues with
    | nil =>
      rw [Part.armHead_empty cues]
      exact refl p
    | cons x rest =>
      cases trigger : x.trigger with
      | onGo =>
        rw [Part.armHead_onGo cues trigger]
        exact refl p
      | afterPrevious n =>
        cases occ with
        | other =>
          rw [Part.armHead_after_other cues trigger]
          exact refl p
        | completion =>
          rw [Part.armHead_after may cues trigger]
          split
          · exact refl p
          · exact queue p fun q => { q with arming := .dwelling, dwellTimer := some n }
      | atMark mark =>
        rw [Part.armHead_mark may cues trigger]
        exact trans (queue p _) (Part.judgeMark_induction refl queue drop _)

variable (start : ∀ (p : Part) tier l src v plan, R p (p.startMove g tier l src v plan))
  (complete : ∀ (p : Part) n, R p (p.completeCue g n))
include start complete

theorem Part.fireHead_induction (n : Nat) (p : Part) : R p (Part.fireHead n g p) := by
  induction n generalizing p with
  | zero => exact refl p
  | succ n ih =>
    unfold Part.fireHead
    split
    · exact refl p
    · next x rest cues =>
      split
      · exact drop p _ _
      · next data q fires =>
        obtain ⟨-, rfl, -⟩ := Part.fire_inv fires
        have started := trans (start p x.tier x.origin (.cue x.number) (some x.speed) (p.cuePlan g x)) (queue _ CueQueue.pop)
        dsimp only
        split
        · have armed := trans (trans started (complete _ x.number)) (Part.armHead_induction refl trans queue drop _ .completion)
          split
          · exact trans armed (ih _)
          · exact armed
        · exact started

/-- What every step of a queue and of a fire leaves is left by the arming of a head. -/
theorem Part.arm_induction (p : Part) (occ : Occasion) : R p (p.arm occ g) := by
  have armed := Part.armHead_induction refl trans queue drop p occ
  unfold Part.arm Part.fireIf
  split
  · exact trans armed (Part.fireHead_induction refl trans queue drop start complete _ _)
  · exact armed

end Arming

/-! ### The part -/

/-- What the judgements of a taking leave of the part. Once the device is HALTED they leave its Mode Controller too. -/
structure Part.Judges (p q : Part) : Prop where
  chans : ∀ c, (p.chan c).Senses (q.chan c)
  kept : Kept p q [.samples, .clock]
  watches : q.codes.watches = p.codes.watches
  links : ∀ l, (p.link l).Offered (q.link l)
  halted : p.ctl.mode = .halted → q.ctl = p.ctl ∧ q.codes.mode = p.codes.mode

namespace Part.Judges
variable {p q r : Part} {g : Grp} {reason : StopReason}

theorem refl (p : Part) : Part.Judges p p := ⟨fun _ => .refl _, .refl _ _, rfl, fun _ => .refl _, fun _ => ⟨rfl, rfl⟩⟩

theorem trans (h : Part.Judges p q) (k : Part.Judges q r) : Part.Judges p r := by
  refine ⟨fun c => (h.chans c).trans (k.chans c), h.kept.trans k.kept, k.watches.trans h.watches,
    fun l => (h.links l).trans (k.links l), fun down => ?_⟩
  obtain ⟨ctl, code⟩ := h.halted down
  obtain ⟨ctl', code'⟩ := k.halted (by rw [ctl]; exact down)
  exact ⟨ctl'.trans ctl, code'.trans code⟩

theorem winds (h : Part.Winds p q) : Part.Judges p q :=
  ⟨fun c => .winds (h.chans c), h.kept.mono (by simp), h.watches, h.links,
    fun down => h.ctl (by rw [down]; decide) (.inl (by rw [down]; decide))⟩

theorem of_kept (kept : Kept p q [.ctl, .link .a, .link .b, .samples, .clock, .codes])
    (chans : ∀ c, (p.chan c).Senses (q.chan c)) : Part.Judges p q := by
  have ctl : q.ctl = p.ctl := kept .ctl (by simp)
  have codes : q.codes = p.codes := kept .codes (by simp)
  refine ⟨chans, kept.mono (by simp), by rw [codes], fun l => ?_, fun _ => ⟨ctl, by rw [codes]⟩⟩
  have link : q.link l = p.link l := by cases l <;> exact kept (.link _) (by simp)
  rw [link]
  exact .refl _

theorem modGroup (p : Part) (g : Grp) (f : Group → Group) : Part.Judges p (p.modGroup g f) :=
  of_kept ((Part.modGroup_kept p g f).mono (by simp)) fun _ => .refl _

theorem modQueue (p : Part) (g : Grp) (f : CueQueue → CueQueue) : Part.Judges p (p.modQueue g f) :=
  of_kept ((Part.modQueue_kept p g f).mono (by simp)) fun _ => .refl _

theorem modChan (p : Part) (c : Chan) {f : Channel → Channel} (senses : ∀ x : Channel, x.Senses (f x)) :
    Part.Judges p (p.modChan c f) := by
  refine of_kept ((Part.modChan_kept p c f).mono (by simp)) fun d => ?_
  by_cases same : d = c
  · rw [same, Part.modChan_chan_self]
    exact senses _
  · rw [Part.modChan_chan_ne _ _ _ _ same]
    exact .refl _

theorem forEach {α : Type} {f : Part → α → Part} (l : List α) (each : ∀ q x, Part.Judges q (f q x)) (p : Part) :
    Part.Judges p (p.forEach l f) :=
  Part.forEach_inv (P := fun q => Part.Judges p q) (refl p) fun q x _ judges => judges.trans (each q x)

theorem draw (p : Part) (n : Nat) : Part.Judges p (p.draw n) := of_kept ((p.draw_kept n).mono (by simp)) fun _ => .refl _

/-- R174, R175: a notice that is neither the mode's nor a load watch's. -/
theorem raise (p : Part) {pair : NoticePair} (e : Event) (watch : ∀ d, pair ≠ .loadWatch d) (mode : pair ≠ .mode) :
    Part.Judges p (p.raise pair e) := by
  refine ⟨fun c => .winds (.like (p.raise_like pair e c)), (p.raise_kept pair e).mono (by simp), ?_, fun l => ?_, fun down => ?_⟩
  · rw [Part.raise_codes]
    cases pair with
    | loadWatch d => exact absurd rfl (watch d)
    | mode | link | group | track | channelFault => rfl
  · by_cases wakes : p.Wakes pair e
    · rw [Part.raise_wakes wakes, Part.changeMode_link, Part.post_link]
      exact (LinkIf.offer_offered _ _).trans (LinkIf.offer_offered _ _)
    · rw [Part.raise_sleeps wakes, Part.post_link]
      exact LinkIf.offer_offered _ _
  · rw [Part.raise_awake (by rw [down]; decide)]
    refine ⟨Part.post_ctl .., ?_⟩
    cases pair with
    | mode => exact absurd rfl mode
    | loadWatch d => exact absurd rfl (watch d)
    | link | group | track | channelFault => rfl

/-! #### Fires (R67, R118 to R123) -/

theorem startMove (p : Part) (g : Grp) (tier : Nat) (l : Link) (src : MoveSource) (v : Option Nat) (plan : List (Int × Nat)) :
    Part.Judges p (p.startMove g tier l src v plan) :=
  (modGroup p g _).trans (forEach _ (fun q (lr : Lane × LaneRecord) => modChan q lr.1.channel (reserveChannel_senses g lr.2)) _)

theorem completeCue (p : Part) (g : Grp) (n : Nat) : Part.Judges p (p.completeCue g n) :=
  ((winds (.clearLanes p g)).trans (modGroup _ g _)).trans (raise _ _ (fun d => by simp) (by simp))

theorem dropped (p : Part) (g : Grp) (f : CueQueue → CueQueue) (e : Event) :
    Part.Judges p ((p.modQueue g f).raise (.group g) e) :=
  (modQueue p g f).trans (raise _ _ (fun d => by simp) (by simp))

theorem arm (p : Part) (occ : Occasion) (g : Grp) : Part.Judges p (p.arm occ g) :=
  Part.arm_induction refl trans (fun q => modQueue q g) (fun q => dropped q g) (fun q => startMove q g) (fun q => completeCue q g) p
    occ

/-! #### Stops (R82, R155) -/

theorem tellEnd (p : Part) (g : Grp) (m : MoveRecord) : Part.Judges p (p.tellEnd g m) := by
  unfold Part.tellEnd
  split
  · exact winds (.moveEnded ..)
  · split
    · exact arm ..
    · exact refl p

theorem exitStopping (p : Part) (g : Grp) : Part.Judges p (p.exitStopping g) := by
  unfold Part.exitStopping
  split
  · split
    · exact (winds (.exitCore p g)).trans (tellEnd ..)
    · exact refl p
  · exact refl p

theorem memberFault (p : Part) (g : Grp) (c : Chan) (k : FaultKind) : Part.Judges p (p.memberFault g c k) := by
  unfold Part.memberFault
  dsimp only
  split
  · exact (modGroup ..).trans (winds (.stopGroup _ g (by decide)))
  · exact (modGroup ..).trans (winds (.stopGroup _ g (by decide)))
  · split
    · exact refl p
    · exact (modGroup ..).trans (modGroup ..)
  all_goals exact refl p

theorem handHalt (p : Part) : Part.Judges p p.handHalt := by
  have halted (q : Part) (g : Grp) : Part.Judges q (q.stopGroup g .halt) := winds (.stopGroup q g (by decide))
  exact ((((draw p 8).trans (forEach _ halted _)).trans (forEach _ (fun q t => winds (.haltTrack q t)) _)).trans
    (forEach _ halted _)).trans ((winds (.endJogs _ _)).trans (forEach _ (fun q g => modQueue q g _) _))

/-- R155: the change of mode that a halt makes. -/
theorem toHalted (p : Part) (cause : ModeCause) (off : p.ctl.mode ≠ .halted) :
    Part.Judges p ((p.modCtl fun m => { m with silenceDisarm := false }).changeMode .halted cause) := by
  have cleared : Kept p (p.modCtl fun m => { m with silenceDisarm := false }) [.samples, .clock] := by
    simp [Kept, Block.Kept]
  refine ⟨fun c => ?_, cleared.trans ((Part.changeMode_kept _ .halted cause).mono (by simp)), ?_, fun l => ?_,
    fun down => absurd down off⟩
  · rw [Part.changeMode_chan, Part.modCtl_chan]
    exact .of_fault rfl rfl
  · rw [Part.changeMode_codes]
    rfl
  · rw [Part.changeMode_link, Part.modCtl_link]
    exact LinkIf.offer_offered _ _

theorem halt (p : Part) (cause : ModeCause) : Part.Judges p (p.halt cause) := by
  unfold Part.halt
  split
  · exact refl p
  · next off => exact (toHalted p cause off).trans (handHalt _)

theorem struck (p : Part) (c : Chan) (k : FaultKind) : Part.Judges p (p.struck c k) := by
  have entered : Part.Judges p (p.modChan c fun x => (x.enterFault k).faultState) :=
    modChan p c fun x => x.faulted_senses k
  unfold Part.struck
  split
  · exact entered.trans (memberFault ..)
  · exact entered.trans (winds (.endJog ..))
  · exact entered

theorem noticed (p : Part) (c : Chan) (k : FaultKind) : Part.Judges p (p.noticed c k) :=
  (struck p c k).trans (raise _ _ (fun d => by simp) (by simp))

theorem faultReaches (p : Part) (c : Chan) (k : FaultKind) : Part.Judges p (p.faultReaches c k) := by
  rw [Part.faultReaches_eq]
  split
  · split
    · exact (noticed p c k).trans (halt ..)
    · exact noticed p c k
  · exact refl p

/-! #### The steps of a feedback arrival (R5) -/

theorem judgeStandstill (p : Part) (c : Chan) : Part.Judges p (p.judgeStandstill c) := by
  unfold Part.judgeStandstill Part.tellMover
  split
  · split
    · exact (modChan p c Channel.standstill_senses).trans (exitStopping ..)
    · exact modChan p c Channel.standstill_senses
    · exact modChan p c Channel.standstill_senses
  · exact refl p

theorem judgeConfirm (p : Part) (c : Chan) : Part.Judges p (p.judgeConfirm c) := by
  have moved := modChan p c Channel.toMoving_senses
  unfold Part.judgeConfirm
  split
  · dsimp only
    split
    · exact moved.trans (modGroup ..)
    · exact moved
    · exact moved
  · exact refl p

theorem judgeJogLimit (p : Part) (c : Chan) : Part.Judges p (p.judgeJogLimit c) := by
  rw [Part.judgeJogLimit_eq]
  split
  · exact winds (.endJog p c)
  · exact refl p

theorem detect (p : Part) (c : Chan) : Part.Judges p (p.detect c) :=
  (modChan p c Channel.watched_senses).trans (forEach _ (fun q k => faultReaches q c k) _)

theorem judged (p : Part) (c : Chan) : Part.Judges p (p.judged c) :=
  (((judgeStandstill p c).trans (judgeConfirm _ c)).trans (judgeJogLimit _ c)).trans (detect _ c)

end Part.Judges

end Sys2Proof.Machine
end

section
set_option Elab.async false
/-! PROOFS. Feedback arrivals that detect nothing: live values, settling, motion confirm, standstill, load watch
(R4, R5, R11, R13, R14, R16, R98, R111). -/

namespace Sys2Proof.Machine

/-! ### The steps on one channel -/

section Channel
variable {x : Channel} {y : Sample}

theorem Channel.confirm_stays (calm : x.state ≠ .starting) : x.confirm = x :=
  if_neg fun confirmed => calm (Channel.starting_of_confirmed confirmed)

theorem Channel.syncWatch_expired : x.syncWatch.progressTimer = .expired → x.progressTimer = .expired := by
  unfold Channel.syncWatch
  split
  · cases timer : x.progressTimer with
    | stopped => exact fun e => by cases e
    | running n => exact fun e => by rw [timer] at e; cases e
    | expired => exact fun _ => rfl
  · exact fun e => by cases e

theorem Channel.confirm_expired (expired : x.confirm.progressTimer = .expired) : x.progressTimer = .expired := by
  unfold Channel.confirm at expired
  split at expired
  · exact (Channel.syncWatch_expired (x := { x with state := .moving, confirmTimer := none, confirmMark := none })) expired
  · exact expired

theorem Channel.quiet_timer (x : Channel) : x.quiet.progressTimer = x.progressTimer := by
  unfold Channel.quiet
  split <;> rfl

theorem Channel.quiet_state (x : Channel) : x.quiet.state = x.state := by
  unfold Channel.quiet
  split <;> rfl

/-- R97: a settled channel at rest stands at its rest position after a calm sample. -/
theorem Channel.quiet_near (near : x.settling = false → (x.raw - x.rest).natAbs ≤ 20) (settled : x.quiet.settling = false) :
    (x.quiet.raw - x.quiet.rest).natAbs ≤ 20 := by
  unfold Channel.quiet at settled ⊢
  split
  · simp [Channel.endSettling]
  · next moves =>
    rw [if_neg moves] at settled
    exact near settled

/-- R93 to R98: a calm sample detects nothing once settling and motion confirm are judged. -/
theorem Channel.calm_detected (calm : x.Calm y) : ((x.takeSample (deliver y)).quiet.confirm).detected = [] := by
  obtain ⟨upper, lower, drive, load, slack, forward, near, timely⟩ := calm
  have onward := (Channel.quiet_onward (x.takeSample (deliver y))).trans (Channel.confirm_onward _)
  refine Channel.detected_none (onward.upperOpen.trans upper) (onward.lowerOpen.trans lower) (onward.driveFault.trans drive)
    ?_ (fun live => ?_) (Channel.moveExtreme_unreversed fun d e direction extreme => ?_) ?_ fun expired => ?_
  · refine decide_eq_false (Nat.not_lt.mpr ?_)
    rw [onward.config, onward.load]
    exact load
  · rw [onward.live] at live
    rw [onward.config, onward.load]
    exact slack (by simpa [Channel.live, Channel.takeSample] using live)
  · rw [onward.direction] at direction
    rw [onward.reversalExtreme] at extreme
    rw [onward.raw]
    exact forward d e direction extreme
  · by_cases rests : x.state = .idle ∨ x.state = .holding ∨ x.state = .faulted
    · have still : (x.takeSample (deliver y)).quiet.state ≠ .starting := by
        rw [Channel.quiet_state]
        rcases rests with e | e | e <;> simp [Channel.takeSample, e]
      rw [Channel.confirm_stays still]
      cases settled : (x.takeSample (deliver y)).quiet.settling with
      | true => simp [Channel.runsAway, settled]
      | false =>
        have close := Channel.quiet_near (x := x.takeSample (deliver y)) (near rests) settled
        have inside : decide (Config.runawayMm < ((x.takeSample (deliver y)).quiet.raw - (x.takeSample (deliver y)).quiet.rest).natAbs)
            = false := decide_eq_false (Nat.not_lt.mpr close)
        unfold Channel.runsAway
        rw [inside, Bool.and_false]
    · have state (z : Channel) (hz : z.state = .idle ∨ z.state = .holding ∨ z.state = .faulted → False) : z.runsAway = false := by
        unfold Channel.runsAway
        cases e : z.state <;> simp [e] at hz ⊢
      refine state _ fun resting => rests ?_
      unfold Channel.confirm at resting
      split at resting
      · simp [Channel.toMoving] at resting
      · rw [Channel.quiet_state] at resting
        exact resting
  · have taken := Channel.confirm_expired expired
    rw [Channel.quiet_timer] at taken
    exact timely taken

/-- R22: a channel whose jog goes on is not at its limit. -/
theorem Channel.calm_unlimited (on : x.JogsOn y) : (x.takeSample (deliver y)).quiet.confirm.jogLimited = false := by
  have onward := (Channel.quiet_onward (x.takeSample (deliver y))).trans (Channel.confirm_onward _)
  unfold Channel.jogLimited Channel.beyondSoft Channel.pos
  rw [onward.jog, onward.referenced, onward.config, onward.raw, onward.offset]
  cases jog : x.jog with
  | none => simp [Channel.takeSample, jog]
  | some j =>
    have inside := on j jog
    cases direction : j.direction <;> cases referenced : x.referenced <;>
      simp_all [Channel.takeSample, deliver]

/-- R96, R98: a channel without a direction has no extreme and no mark to move. -/
theorem Channel.watched_undirected (direction : x.direction = none) : x.moveExtreme.moveProgress = x := by
  have extreme : x.moveExtreme = x := by simp [Channel.moveExtreme, direction]
  have progress : x.progressed = false := by simp [Channel.progressed, direction]
  rw [extreme]
  unfold Channel.moveProgress
  rw [progress]
  split <;> rfl

end Channel

/-! ### The steps on the part -/

section Part
variable {p : Part} {c : Chan} {y : Sample}

theorem Part.judgeConfirm_chan (p : Part) (c d : Chan) :
    (p.judgeConfirm c).chan d = if d = c then (p.chan c).confirm else p.chan d := by
  unfold Part.judgeConfirm
  cases confirmed : (p.chan c).confirmed with
  | false =>
    have stays : (p.chan c).confirm = p.chan c := if_neg (Bool.eq_false_iff.mp confirmed)
    rw [if_neg Bool.false_ne_true, stays]
    by_cases same : d = c
    · rw [if_pos same, same]
    · rw [if_neg same]
  | true =>
    have moved : (p.modChan c Channel.toMoving).chan d = if d = c then (p.chan c).confirm else p.chan d := by
      rw [Part.modChan_chan]
      split
      · next same => rw [same, Channel.confirm, if_pos confirmed]
      · rfl
    rw [if_pos rfl]
    dsimp only
    split
    · exact moved
    · exact moved
    · exact moved

theorem Part.judgeConfirm_group (p : Part) (c : Chan) (g : Grp) :
    (p.judgeConfirm c).group g =
      if (p.chan c).confirmed = true ∧ (p.chan c).mover = .group g then (p.group g).confirmLane c else p.group g := by
  unfold Part.judgeConfirm
  by_cases confirmed : (p.chan c).confirmed = true
  · rw [if_pos confirmed]
    dsimp only
    split
    · next h mover =>
      by_cases same : g = h
      · subst same
        rw [Part.modGroup_group_self, if_pos ⟨confirmed, mover⟩]
        rfl
      · rw [Part.modGroup_group_ne _ _ _ _ same, if_neg fun both => same (by
          have named := mover.symm.trans both.2
          injection named with e
          exact e.symm)]
        rfl
    · next mover => exact (if_neg fun both => by simp [mover] at both).symm
    · next l mover => exact (if_neg fun both => by simp [mover] at both).symm
  · rw [if_neg confirmed, if_neg fun both => confirmed both.1]

theorem Part.judgeConfirm_kept (p : Part) (c : Chan) : Kept p (p.judgeConfirm c)
    [.ctl, .link .a, .link .b, .ports, .samples, .queues, .clock, .tracks, .codes] := by
  have moved := (p.modChan_kept c Channel.toMoving).mono
    (cs := [.ctl, .link .a, .link .b, .ports, .samples, .queues, .clock, .tracks, .codes]) (by simp)
  unfold Part.judgeConfirm
  split
  · dsimp only
    split
    · exact moved.trans ((Part.modGroup_kept _ _ _).mono (by simp))
    · exact moved
    · exact moved
  · exact .refl _ _

/-- R5: a sample that meets no limit and no fault, on a channel and a group that await no standstill. -/
theorem Part.judged_calm (moving : (p.chan c).state ≠ .stopping)
    (idle : ∀ g, (p.chan c).mover = .group g → (p.group g).state ≠ .stopping)
    (inside : (p.chan c).quiet.confirm.jogLimited = false) (calm : (p.chan c).quiet.confirm.detected = []) :
    p.judged c = ((p.modChan c Channel.quiet).judgeConfirm c).modChan c fun x => x.moveExtreme.moveProgress := by
  have here : ((p.modChan c Channel.quiet).judgeConfirm c).chan c = (p.chan c).quiet.confirm := by
    rw [Part.judgeConfirm_chan, if_pos rfl, Part.modChan_chan_self]
  unfold Part.judged
  rw [Part.judgeStandstill_quiet moving idle, Part.judgeJogLimit_inside (by rw [here]; exact inside),
    Part.detect_none (by rw [here]; exact calm)]

theorem Part.calmJudged_chan (p : Part) (c d : Chan) :
    (((p.modChan c Channel.quiet).judgeConfirm c).modChan c fun x => x.moveExtreme.moveProgress).chan d =
      if d = c then (p.chan c).quiet.confirm.moveExtreme.moveProgress else p.chan d := by
  by_cases same : d = c
  · rw [same, if_pos rfl, Part.modChan_chan_self, Part.judgeConfirm_chan, if_pos rfl, Part.modChan_chan_self]
  · rw [if_neg same, Part.modChan_chan_ne _ _ _ _ same, Part.judgeConfirm_chan, if_neg same, Part.modChan_chan_ne _ _ _ _ same]

/-- R5: a calm sample of a channel that no mover moves. -/
theorem Part.judged_resting (rests : (p.chan c).state ∈ [ChannelState.idle, .holding, .faulted])
    (calm : (p.chan c).Calm y) (direction : (p.chan c).direction = none) (unmoved : (p.chan c).mover = .none)
    (unjogged : (p.chan c).jog = none) : (p.sampled c y).judged c = (p.sampled c y).modChan c Channel.quiet := by
  have taken := p.sampled_chan_self c y
  have other (s : ChannelState) (out : s ∉ [ChannelState.idle, .holding, .faulted]) :
      ((p.sampled c y).chan c).state ≠ s := by
    rw [taken]
    exact fun same => out (same ▸ rests)
  have still : ((p.sampled c y).chan c).quiet.state ≠ .starting := by
    rw [Channel.quiet_state]
    exact other _ (by decide)
  have same : ((p.sampled c y).chan c).quiet.confirm.moveExtreme.moveProgress = ((p.sampled c y).chan c).quiet := by
    rw [Channel.confirm_stays still, Channel.watched_undirected]
    rw [(Channel.quiet_onward _).direction, taken]
    exact direction
  have unconfirmed : ((p.sampled c y).modChan c Channel.quiet).judgeConfirm c = (p.sampled c y).modChan c Channel.quiet :=
    if_neg fun confirmed => still (by
      rw [Part.modChan_chan_self] at confirmed
      exact Channel.starting_of_confirmed confirmed)
  have unlimited : ((p.sampled c y).chan c).quiet.confirm.jogLimited = false := by
    rw [taken]
    exact Channel.calm_unlimited fun j jog => by (rw [unjogged] at jog; cases jog)
  have undetected : ((p.sampled c y).chan c).quiet.confirm.detected = [] := by
    rw [taken]
    exact Channel.calm_detected calm
  have ungrouped (g : Grp) : ((p.sampled c y).chan c).mover ≠ .group g := by
    rw [taken]
    exact fun mover => absurd (unmoved.symm.trans mover) (by simp)
  rw [Part.judged_calm (other _ (by decide)) (fun g mover => absurd mover (ungrouped g)) unlimited undetected, unconfirmed,
    Part.modChan_self]
  rw [Part.modChan_chan_self]
  rwa [Channel.confirm_stays still] at same

end Part

end Sys2Proof.Machine
end

section
set_option Elab.async false
/-! PROOFS. Feedback arrivals of channels at rest, and the load watch (R4, R5, R16, R110, R111, R159). -/

namespace Sys2Proof.Machine

variable {p : Part} {c : Chan} {y : Sample} {s : State}

theorem Part.sampleArrives_absent (kind : (p.chan c).kind = .absent) (there : p.hasChan c = true) (y : Sample) :
    p.sampleArrives c (deliver y) = p.sampled c y := by
  have unconfigured : ((p.sampled c y).chan c).configured = false := by
    rw [Part.sampled_chan_self]
    simp [Channel.configured, Channel.takeSample, kind]
  unfold Part.sampleArrives
  dsimp only
  rw [if_pos there]
  exact if_neg (Bool.eq_false_iff.mp unconfigured)

theorem Part.sampleArrives_missing (there : p.hasChan c = false) (y : Sample) :
    p.sampleArrives c (deliver y) = p.modPort c (Port.arrive false (deliver y)) := by
  unfold Part.sampleArrives
  dsimp only
  rw [there]
  rfl

theorem Part.sampled_port (p : Part) (c : Chan) (y : Sample) :
    (p.sampled c y).port c = Port.arrive (p.hasChan c) (deliver y) (p.port c) := by simp [Part.sampled]

/-! ### The load watch (R111) -/

/-- What the load watch does with a sample: the judgement of the watch, whatever else the sample met. -/
theorem Part.watchLoad_channel (p : Part) (c : Chan) (b : Option Nat) :
    ((p.watchLoad c b).chan c).reading = (p.chan c).reading ∧ Kept p (p.watchLoad c b) [.samples, .groups, .queues, .clock, .tracks] := by
  have modded := (p.modChan_kept c fun x => { x with watchBaseline := x.watchBaseline.map fun _ => x.load }).mono
    (cs := [.samples, .groups, .queues, .clock, .tracks]) (by simp)
  unfold Part.watchLoad
  split
  · split
    · refine ⟨?_, modded.trans ((Part.raise_kept _ _ _).mono (by simp))⟩
      have like := (p.modChan c fun x => { x with watchBaseline := x.watchBaseline.map fun _ => x.load }).raise_like
        (.loadWatch c) (.loadWatch (p.chan c).load) c
      rw [(Channel.Senses.winds (.like like)).reading, Part.modChan_chan_self]
      rfl
    · exact ⟨rfl, .refl _ _⟩
  · exact ⟨rfl, .refl _ _⟩

theorem feedbackArrivalIsTaken : Claims.FeedbackArrivalIsTaken := by
  intro c y s free
  refine ⟨_, exec_feedbackArrival free c y, ?_⟩
  cases there : s.part.hasChan c with
  | false =>
    rw [Part.sampleArrives_missing there]
    have kept : Kept s.part (s.part.modPort c (Port.arrive false (deliver y)))
        [.channels, .groups, .queues, .clock, .tracks, .codes, .ctl, .link .a, .link .b] := by simp [Kept, Block.Kept]
    refine ⟨?_, ?_, fun _ => ⟨?_, kept.drive⟩, fun no => absurd no Bool.false_ne_true⟩
    all_goals
      rw [Part.drive_port, Part.modPort_port_self]
      rfl
  | true =>
    have judges : (((s.part.sampleArrives c (deliver y)).chan c).reading = ((s.part.chan c).takeSample (deliver y)).reading)
        ∧ Kept (s.part.sampled c y) (s.part.sampleArrives c (deliver y)) [.samples] := by
      by_cases kind : (s.part.chan c).kind = .absent
      · rw [Part.sampleArrives_absent kind there, Part.sampled_chan_self]
        exact ⟨rfl, .refl _ _⟩
      · have judged := Part.Judges.judged (s.part.sampled c y) c
        obtain ⟨reading, kept⟩ := ((s.part.sampled c y).judged c).watchLoad_channel c (s.part.chan c).watchBaseline
        rw [Part.sampleArrives_configured there kind]
        refine ⟨?_, (judged.kept.mono (by simp)).trans (kept.mono (by simp))⟩
        rw [reading, (judged.chans c).reading, Part.sampled_chan_self]
    obtain ⟨reading, kept⟩ := judges
    have port := kept .samples (by simp) c
    rw [Part.sampled_port, there] at port
    simp only [Channel.reading, Prod.mk.injEq] at reading
    obtain ⟨-, config, raw, load, offset, -, upper, lower, drive⟩ := reading
    refine ⟨?_, ?_, fun no => absurd no.symm Bool.false_ne_true, fun _ => ⟨?_, ?_, ?_, ?_, ?_, ?_, ?_, ?_, fun absent => ?_⟩⟩
    · rw [Part.drive_port]
      exact congrArg Port.sample port
    · rw [Part.drive_port]
      exact congrArg Port.arrivedSinceLoss port
    · rw [Part.drive_port]
      exact congrArg Port.feedbackTimer port
    · rw [Part.drive_chan, raw]
      rfl
    · rw [Part.drive_chan, load]
      rfl
    · rw [Part.drive_chan, upper]
      rfl
    · rw [Part.drive_chan, lower]
      rfl
    · rw [Part.drive_chan, drive]
      rfl
    · rw [Part.drive_chan, offset]
      rfl
    · rw [Part.drive_chan, config]
      rfl
    · rw [Part.drive_chan, Part.sampleArrives_absent absent there, Part.sampled_chan_self]
      rfl

/-! ### Calm samples at rest (R16) -/

theorem Channel.quiet_taken (x : Channel) (calm : x.Calm y) :
    (x.takeSample (deliver y)).quiet =
      let h := (y.raw :: x.history).take 3
      let ends := x.settling && atStandstill h
      { x with
        raw := y.raw, load := min y.load 9999, upperOpen := false, lowerOpen := false, driveFault := false, history := h
        rest := if ends then y.raw else x.rest
        settling := x.settling && !ends
        settleTimer := if ends then none else x.settleTimer } := by
  obtain ⟨upper, lower, drive, -⟩ := calm
  have taken : x.takeSample (deliver y) = { x with
      raw := y.raw, load := min y.load 9999, upperOpen := false, lowerOpen := false, driveFault := false
      history := (y.raw :: x.history).take 3 } := by
    have same : x.takeSample (deliver y) = { x with
        raw := y.raw, load := min y.load 9999, upperOpen := y.upperOpen, lowerOpen := y.lowerOpen, driveFault := y.driveFault
        history := (y.raw :: x.history).take 3 } := rfl
    rw [same, upper, lower, drive]
  rw [taken]
  unfold Channel.quiet
  dsimp only
  cases settling : x.settling <;> cases still : atStandstill (List.take 3 (y.raw :: x.history)) <;> rfl

theorem calmSampleAtRestChangesNoState : Claims.CalmSampleAtRestChangesNoState := by
  intro c y s free there kind rests calm direction unmoved unjogged unwatched
  refine ⟨_, exec_feedbackArrival free c y, ?_⟩
  dsimp only
  rw [Part.sampleArrives_unwatched there kind unwatched, Part.judged_resting rests calm direction unmoved unjogged]
  refine ⟨?_, fun e other => ?_, ?_⟩
  · rw [Part.drive_chan, Part.modChan_chan_self, Part.sampled_chan_self]
    exact Channel.quiet_taken _ calm
  · rw [Part.drive_chan, Part.modChan_chan_ne _ _ _ _ other, Part.sampled_chan_ne other]
  · exact (((s.part.sampled_kept c y).mono (by simp)).trans ((Part.modChan_kept _ _ _).mono (by simp))).drive

/-! ### The watch -/

theorem Part.watchLoad_within (within : ¬(p.chan c).config.watchBand < ((p.chan c).load - (b : Nat) : Int).natAbs) :
    p.watchLoad c (some b) = p := if_neg within

theorem Part.watchLoad_left (left : (p.chan c).config.watchBand < ((p.chan c).load - (b : Nat) : Int).natAbs) :
    p.watchLoad c (some b) = (p.modChan c fun x => { x with watchBaseline := x.watchBaseline.map fun _ => x.load }).raise
      (.loadWatch c) (.loadWatch (p.chan c).load) := if_pos left

theorem Part.raise_pending (p : Part) (pair : NoticePair) (e : Event) (l : Link) (reports : (p.link l).reports.has pair = true) :
    pair ∈ ((p.raise pair e).link l).pending := by
  have offered : pair ∈ ((p.link l).offer pair).pending := (LinkIf.mem_offer _ _ _).mpr (.inr ⟨rfl, reports⟩)
  by_cases wakes : p.Wakes pair e
  · rw [Part.raise_wakes wakes, Part.changeMode_link, Part.post_link]
    exact (LinkIf.offer_offered _ _).pending pair offered
  · rw [Part.raise_sleeps wakes, Part.post_link]
    exact offered

theorem EventCodes.write_watch (x : EventCodes) (c : Chan) (e : Event) : (x.write (.loadWatch c) e).watches[c] = some e := by
  simp [EventCodes.write]

/-- R110, R158: a device that leaves PARKED holds no watch baseline. -/
theorem Part.changeMode_unwatched (parked : p.ctl.mode = .parked) (cause : ModeCause) (c : Chan) :
    ((p.changeMode .standby cause).chan c).watchBaseline = none := by
  rw [Part.changeMode_eq]
  show ((p.changeBaselines p.ctl.mode .standby).chan c).watchBaseline = none
  unfold Part.changeBaselines
  rw [if_neg (by decide), if_pos parked, Part.dropBaselines_chan]

/-- R111: a load beyond the band while no wake is enabled. -/
theorem Part.watchLoad_asleep (deaf : p.ctl.wakes.loadWatch = false) (b : Nat)
    (left : (p.chan c).config.watchBand < (((p.chan c).load : Int) - b).natAbs) :
    p.watchLoad c (some b) = (p.modChan c fun x => { x with watchBaseline := x.watchBaseline.map fun _ => x.load }).post
      (.loadWatch c) (.loadWatch (p.chan c).load) := by
  rw [Part.watchLoad_left left]
  refine Part.raise_sleeps fun wakes => ?_
  obtain ⟨-, heard, -⟩ := wakes
  rw [Part.modChan_ctl] at heard
  exact absurd (heard.symm.trans deaf) (by simp)

/-- R111, R159: a load beyond the band wakes the device. -/
theorem Part.watchLoad_wakes (parked : p.ctl.mode = .parked) (hears : p.ctl.wakes.loadWatch = true) (b : Nat)
    (left : (p.chan c).config.watchBand < (((p.chan c).load : Int) - b).natAbs) :
    p.watchLoad c (some b) = ((p.modChan c fun x => { x with watchBaseline := x.watchBaseline.map fun _ => x.load }).post
      (.loadWatch c) (.loadWatch (p.chan c).load)).changeMode .standby (.wake (.loadWatch c)) := by
  rw [Part.watchLoad_left left]
  exact Part.raise_wakes ⟨parked, hears, by simp, by simp⟩

theorem loadWatchJudgesTheBaseline : Claims.LoadWatchJudgesTheBaseline := by
  intro c y b s free there kind watched
  refine ⟨_, exec_feedbackArrival free c y, ?_⟩
  rw [Part.sampleArrives_configured there kind, watched]
  have judged := Part.Judges.judged (s.part.sampled c y) c
  have resting (rests : (s.part.chan c).state ∈ [ChannelState.idle, .faulted]) (calm : (s.part.chan c).Calm y)
      (direction : (s.part.chan c).direction = none) (unmoved : (s.part.chan c).mover = .none)
      (unjogged : (s.part.chan c).jog = none) :
      (s.part.sampled c y).judged c = (s.part.sampled c y).modChan c Channel.quiet :=
    Part.judged_resting ((List.subset_def.mp (by simp)) rests) calm direction unmoved unjogged
  have senses := judged.chans c
  have watches := judged.watches
  have links := judged.links
  generalize (s.part.sampled c y).judged c = r at *
  rw [Part.sampled_chan_self] at senses
  have load : (r.chan c).load = min y.load 9999 := senses.load
  have config : (r.chan c).config = (s.part.chan c).config := senses.config
  have band : (r.chan c).config.watchBand < (((r.chan c).load : Int) - (b : Nat)).natAbs
      ↔ (s.part.chan c).config.watchBand < (((min y.load 9999 : Nat) : Int) - b).natAbs := by rw [load, config]
  refine ⟨?_, fun left l reports => ?_, fun rests calm direction unmoved unjogged parked => ?_⟩
  · rw [Part.drive_codes]
    split
    · next left =>
      rw [Part.watchLoad_left (band.mpr left), Part.raise_codes, load]
      exact EventCodes.write_watch ..
    · next within =>
      rw [Part.watchLoad_within fun left => within (band.mp left), watches, Part.sampled_codes]
  · rw [Part.drive_link, Part.watchLoad_left (band.mpr left)]
    refine Part.raise_pending _ _ _ l ?_
    rw [Part.modChan_link, (links l).same, Part.sampled_link]
    exact reports
  · have state := resting rests calm direction unmoved unjogged
    have kept := (r.watchLoad_channel c (some b)).2
    have here : r.chan c = ((s.part.chan c).takeSample (deliver y)).quiet := by
      rw [state, Part.modChan_chan_self, Part.sampled_chan_self]
    have onward := Channel.quiet_onward ((s.part.chan c).takeSample (deliver y))
    have ctl : r.ctl = s.part.ctl := by rw [state, Part.modChan_ctl, Part.sampled_ctl]
    have down : r.ctl.mode = .parked := by rw [ctl]; exact parked
    have sampled : Kept s.part r [.groups, .queues, .clock, .tracks, .ctl, .codes, .link .a, .link .b] := by
      rw [state]
      exact ((s.part.sampled_kept c y).mono (by simp)).trans ((Part.modChan_kept _ _ _).mono (by simp))
    have same : (r.watchLoad c (some b)).chan c = { r.chan c with watchBaseline := ((r.watchLoad c (some b)).chan c).watchBaseline } := by
      unfold Part.watchLoad
      dsimp only
      split
      · have like := (r.modChan c fun x => { x with watchBaseline := x.watchBaseline.map fun _ => x.load }).raise_like
          (.loadWatch c) (.loadWatch (r.chan c).load) c
        unfold Channel.Like at like
        rw [Part.modChan_chan_self] at like
        exact like
      · rfl
    refine ⟨?_, ?_, ?_, (((sampled.mono (by simp)).trans (kept.mono (by simp))).drive), fun stays => ?_, fun left deaf => ?_,
      fun left hears => ?_⟩
    · rw [Part.drive_chan, same, here]
      exact Channel.quiet_state _
    · rw [Part.drive_chan, same, here]
      exact onward.fault
    · rw [Part.drive_chan, same, here]
      exact onward.mover.trans unmoved
    · rw [Part.watchLoad_within fun left => stays (band.mp left)]
      refine ⟨?_, (sampled.mono (by simp)).drive⟩
      rw [Part.drive_chan, here]
      exact onward.watchBaseline.trans watched
    · rw [Part.watchLoad_asleep (by rw [ctl]; exact deaf) b (band.mpr left)]
      refine ⟨?_, ?_⟩
      · rw [Part.drive_chan, Part.post_chan, Part.modChan_chan_self, load, here, onward.watchBaseline]
        exact congrArg (Option.map _) watched
      · rw [Part.drive_ctl, Part.post_ctl, Part.modChan_ctl, ctl]
    · rw [Part.watchLoad_wakes down (by rw [ctl]; exact hears) b (band.mpr left)]
      refine ⟨?_, ?_, ?_⟩
      · rw [Part.drive_chan]
        exact Part.changeMode_unwatched (by rw [Part.post_ctl, Part.modChan_ctl]; exact down) _ c
      · rw [Part.drive_ctl, Part.changeMode_ctl, ModeCtl.setPower_mode]
      · rw [Part.drive_codes, Part.changeMode_codes, Part.post_ctl, Part.modChan_ctl, down]

/-- Settles O37: what a feedback arrival writes to its port and its channel, at rest, and what the load watch makes of it. -/
theorem feedbackArrivalUpdatesTheChannel : Obligations.FeedbackArrivalUpdatesTheChannel :=
  ⟨feedbackArrivalIsTaken, calmSampleAtRestChangesNoState, loadWatchJudgesTheBaseline⟩

end Sys2Proof.Machine
end

section
set_option Elab.async false
/-! PROOFS. Samples that confirm motion and end STOPPING (R11, R13, R14, R98). -/

namespace Sys2Proof.Machine

/-! ### Motion confirm (R11, R98) -/

section Channel
variable {x : Channel}

theorem Channel.moveExtreme_same (x : Channel) : x.moveExtreme = { x with reversalExtreme := x.moveExtreme.reversalExtreme } := by
  unfold Channel.moveExtreme
  split
  · split <;> rfl
  · rfl

/-- R98: a watch that has just started, or none, is left by the same sample. -/
theorem Channel.moveProgress_started (fresh : x.progressTimer = .stopped ∨ x.progressMark = some x.raw) : x.moveProgress = x := by
  unfold Channel.moveProgress
  rcases fresh with stopped | mark
  · exact if_pos stopped
  · have progress : x.progressed = false := by
      unfold Channel.progressed
      rw [mark]
      cases x.direction with
      | none => rfl
      | some d => simp [gain_self, Config.confirmMm]
    rw [progress]
    split <;> rfl

theorem Channel.toMoving_eq (stopped : x.progressTimer = .stopped) : x.toMoving = { x with
    state := .moving, confirmTimer := none, confirmMark := none
    progressMark := if x.watchArmed then some x.raw else none
    progressTimer := if x.watchArmed then .running 600 else .stopped } := by
  unfold Channel.toMoving Channel.syncWatch
  cases armed : x.watchArmed with
  | false => simp
  | true => simp [stopped, Config.progressMs]

/-- R98: the watch of a channel that has just been put in MOVING is left by the sample that put it there. -/
theorem Channel.toMoving_watched (stopped : x.progressTimer = .stopped) :
    x.toMoving.moveExtreme.moveProgress = { x.toMoving with reversalExtreme := x.toMoving.moveExtreme.reversalExtreme } := by
  rw [Channel.moveExtreme_same, Channel.moveProgress_started]
  rw [Channel.toMoving_eq stopped]
  cases x.watchArmed with
  | false => exact .inl rfl
  | true => exact .inr rfl

end Channel

theorem motionConfirmPutsInMoving : Claims.MotionConfirmPutsInMoving := by
  intro c y d mark s free there kind starting direction confirm reached calm settled inside unwatched stopped idle
  refine ⟨_, exec_feedbackArrival free c y, ?_⟩
  let x := (s.part.chan c).takeSample (deliver y)
  have taken : (s.part.sampled c y).chan c = x := Part.sampled_chan_self ..
  have confirmed : x.confirmed = true := by
    have far : 3 ≤ gain d mark y.raw := by cases d <;> simpa [gain] using reached
    have state : x.state = .starting := starting
    have dir : x.direction = some d := direction
    have noted : x.confirmMark = some mark := confirm
    have beyond : Config.confirmMm ≤ gain d mark x.raw := far
    unfold Channel.confirmed
    rw [state, dir, noted]
    exact decide_eq_true beyond
  have timer : x.progressTimer = .stopped := stopped
  have quiet : x.quiet = x := by
    have unsettled : x.settling = false := settled
    unfold Channel.quiet
    rw [unsettled, Bool.and_false]
    rfl
  have moved : x.quiet.confirm.moveExtreme.moveProgress
      = { x.toMoving with reversalExtreme := x.toMoving.moveExtreme.reversalExtreme } := by
    rw [quiet, Channel.confirm, if_pos confirmed, Channel.toMoving_watched timer]
  have judged : s.part.sampleArrives c (deliver y) = (((s.part.sampled c y).modChan c Channel.quiet).judgeConfirm c).modChan c
      fun x => x.moveExtreme.moveProgress := by
    rw [Part.sampleArrives_unwatched there kind unwatched, Part.judged_calm]
    · rw [taken]
      exact fun same => by cases starting.symm.trans same
    · intro g mover
      rw [taken] at mover
      exact idle g mover
    · rw [taken]
      exact Channel.calm_unlimited inside
    · rw [taken]
      exact Channel.calm_detected calm
  have here : (s.part.sampleArrives c (deliver y)).chan c
      = { x.toMoving with reversalExtreme := x.toMoving.moveExtreme.reversalExtreme } := by
    rw [judged, Part.calmJudged_chan, if_pos rfl, taken, moved]
  have quieted : ((s.part.sampled c y).modChan c Channel.quiet).chan c = x := by rw [Part.modChan_chan_self, taken, quiet]
  have group (g : Grp) : (s.part.sampleArrives c (deliver y)).group g
      = if (s.part.chan c).mover = .group g then (s.part.group g).confirmLane c else s.part.group g := by
    rw [judged, Part.modChan_group, Part.judgeConfirm_group, quieted, Part.modChan_group, Part.sampled_group, confirmed]
    have mover : x.mover = (s.part.chan c).mover := rfl
    rw [mover]
    simp only [true_and]
  rw [Channel.toMoving_eq timer] at here
  refine ⟨?_, ?_, ?_, ?_, ?_, fun armed => ⟨?_, ?_⟩, fun e other => ?_, fun g m mover move => ?_, fun g other => ?_, ?_⟩
  · rw [Part.drive_chan, here]
  · rw [Part.drive_chan, here]
    exact direction
  · rw [Part.drive_chan, here]
  · rw [Part.drive_chan, here]
  · rw [Part.drive_chan, here]
    rfl
  · rw [Part.drive_chan, here]
    exact if_pos armed
  · rw [Part.drive_chan, here]
    exact if_pos armed
  · rw [Part.drive_chan, judged, Part.calmJudged_chan, if_neg other, Part.sampled_chan_ne other]
  · rw [Part.drive_group, group, if_pos mover, Group.confirmLane, move]
    rfl
  · rw [Part.drive_group, group, if_neg other]
  · rw [judged]
    exact (((((s.part.sampled_kept c y).mono (by simp)).trans ((Part.modChan_kept _ c Channel.quiet).mono (by simp))).trans
      ((Part.judgeConfirm_kept _ c).mono (by simp))).trans ((Part.modChan_kept _ _ _).mono (by simp))).drive

/-! ### The end of STOPPING (R13, R14) -/

section Channel
variable {x : Channel} {r : PendingRelease}

theorem Channel.start_eq (d : Dir) (v : Nat) (x : Channel) : x.start d v = { x with
    state := .starting, direction := some d, demand := x.capDemand v, confirmMark := some x.raw, confirmTimer := some 600
    pendingRelease := none, reversalExtreme := some x.raw, settling := false, settleTimer := none
    progressMark := none, progressTimer := .stopped } := by
  simp [Channel.start, Channel.syncWatch, Config.confirmMs]

/-- A STOPPING channel at a standstill, its settling over and its rest position taken. -/
def Channel.rested (x : Channel) : Channel :=
  { x with rest := x.raw, standstillTimer := none, settling := false, settleTimer := if x.settling then none else x.settleTimer }

theorem Channel.standstill_rested (stopping : x.state = .stopping) : x.standstill = x.rested.leaveStopping := by
  have unsettled (z : Channel) (state : z.state = .stopping) :
      ({ z with settling := false } : Channel).standstill = ({ z with settling := false } : Channel).leaveStopping := by
    unfold Channel.standstill
    dsimp only
    rw [if_neg Bool.false_ne_true, if_pos state]
  cases settling : x.settling with
  | false =>
    have same : x = { x with settling := false } := by rw [← settling]
    have plain : x.rested = { x with rest := x.raw, standstillTimer := none, settling := false } := by
      unfold Channel.rested
      rw [settling]
      rfl
    rw [plain, same, unsettled x stopping]
    rfl
  | true =>
    have ended : x.standstill = x.endSettling.leaveStopping := by
      unfold Channel.standstill
      dsimp only
      rw [settling, if_pos rfl]
      exact if_pos stopping
    have plain : x.rested = { x.endSettling with standstillTimer := none } := by
      unfold Channel.rested
      rw [settling]
      rfl
    rw [ended, plain]
    rfl

/-- R14: a channel that leaves STOPPING without a release. -/
theorem Channel.leaveStopping_still (still : x.fault.isSome = true ∨ x.pendingRelease = none) : x.leaveStopping = { x with
    standstillTimer := none, rest := x.raw, pendingRelease := none
    state := if x.fault.isSome then .faulted else if x.mover = .none then .idle else .holding } := by
  unfold Channel.leaveStopping
  dsimp only
  cases faulted : x.fault.isSome with
  | true => rfl
  | false =>
    have unreleased : x.pendingRelease = none := still.resolve_left (by simp [faulted])
    rw [unreleased, if_neg Bool.false_ne_true, if_neg Bool.false_ne_true]
    show (if x.mover = .none then
        ({ x with standstillTimer := none, rest := x.raw, pendingRelease := none, state := .idle } : Channel)
      else { x with standstillTimer := none, rest := x.raw, pendingRelease := none, state := .holding }) = _
    by_cases unmoved : x.mover = .none
    · rw [if_pos unmoved, if_pos unmoved]
    · rw [if_neg unmoved, if_neg unmoved]

/-- R14: a channel that leaves STOPPING with its pending release. -/
theorem Channel.leaveStopping_released (sound : x.fault = none) (released : x.pendingRelease = some r) :
    x.leaveStopping = ({ x with standstillTimer := none, rest := x.raw } : Channel).start r.direction r.demand := by
  unfold Channel.leaveStopping
  dsimp only
  rw [sound, if_neg (by simp), released]

/-- R13, R14: a STOPPING channel after the sample that ends its STOPPING. -/
structure Channel.Stood (x z : Channel) : Prop where
  senses : x.Senses z
  rest : z.rest = x.raw
  timer : z.standstillTimer = none
  fault : z.fault = x.fault
  mover : z.mover = x.mover
  jog : z.jog = x.jog
  state : z.state = if x.fault.isSome then .faulted else if x.pendingRelease.isSome then .starting
    else if x.mover ≠ .none then .holding else .idle
  released : ∀ r, x.fault = none → x.pendingRelease = some r →
    z.direction = some r.direction ∧ z.confirmMark = some x.raw ∧ z.confirmTimer = some 600
  quiet : z.confirmMark = none ∨ z.confirmMark = some x.raw
  extreme : z.direction = none ∨ z.reversalExtreme = some x.raw
  watch : z.progressTimer = .stopped

theorem Channel.standstill_stood (stopping : x.state = .stopping) (undirected : x.direction = none) (unmarked : x.confirmMark = none)
    (unwatched : x.progressTimer = .stopped) : x.Stood x.standstill := by
  have senses := x.standstill_senses
  rw [Channel.standstill_rested stopping] at senses ⊢
  by_cases still : x.fault.isSome = true ∨ x.pendingRelease = none
  · rw [Channel.leaveStopping_still (x := x.rested) still] at senses ⊢
    refine ⟨senses, rfl, rfl, rfl, rfl, rfl, ?_, fun r sound released => ?_, .inl unmarked, .inl undirected, unwatched⟩
    · show (if x.fault.isSome then ChannelState.faulted else if x.mover = .none then .idle else .holding) = _
      by_cases faulted : x.fault.isSome = true
      · rw [if_pos faulted, if_pos faulted]
      · rw [if_neg faulted, if_neg faulted, still.resolve_left faulted]
        by_cases unmoved : x.mover = .none
        · rw [if_pos unmoved]
          exact (if_neg fun moved => moved unmoved).symm
        · rw [if_neg unmoved]
          exact (if_pos unmoved).symm
    · rcases still with faulted | unreleased
      · simp [sound] at faulted
      · rw [released] at unreleased
        cases unreleased
  · obtain ⟨sound, releases⟩ := not_or.mp still
    obtain ⟨r, released⟩ := Option.ne_none_iff_exists'.mp releases
    have sound : x.fault = none := by simpa using sound
    rw [Channel.leaveStopping_released (x := x.rested) sound released, Channel.start_eq] at senses ⊢
    refine ⟨senses, rfl, rfl, rfl, rfl, rfl, ?_, fun r' _ released' => ⟨?_, rfl, rfl⟩, .inr rfl, .inr rfl, rfl⟩
    · rw [sound, released]
      rfl
    · rw [released] at released'
      injection released' with same
      rw [same]

namespace Channel.Stood
variable {x z : Channel} {y : Sample}

theorem unconfirmed (h : x.Stood z) : z.confirmed = false := by
  refine Bool.eq_false_iff.mpr fun confirmed => ?_
  unfold Channel.confirmed at confirmed
  rcases h.quiet with none_ | here
  · rw [none_] at confirmed
    cases direction : z.direction <;> simp [direction] at confirmed
  · rw [here, h.senses.raw] at confirmed
    cases direction : z.direction <;> simp [direction, gain_self, Config.confirmMm] at confirmed

theorem watched (h : x.Stood z) : z.moveExtreme.moveProgress = z := by
  have extreme : z.moveExtreme = z := by
    unfold Channel.moveExtreme
    rcases h.extreme with none_ | here
    · rw [none_]
    · rw [here, h.senses.raw]
      cases z.direction with
      | none => rfl
      | some d => exact if_neg (by rw [gain_self]; decide)
  rw [extreme]
  exact Channel.moveProgress_started (.inl h.watch)

theorem undetected (h : x.Stood z) (upper : x.upperOpen = false) (lower : x.lowerOpen = false) (drive : x.driveFault = false)
    (load : 100 * x.load ≤ x.config.wll * x.config.overloadPct) (slack : z.live = true → x.config.underload ≤ x.load) :
    z.detected = [] := by
  refine Channel.detected_none (h.senses.upperOpen.trans upper) (h.senses.lowerOpen.trans lower) (h.senses.driveFault.trans drive)
    ?_ (fun live => ?_) ?_ ?_ (by rw [h.watch]; decide)
  · refine decide_eq_false (Nat.not_lt.mpr ?_)
    rw [h.senses.config, h.senses.load]
    exact load
  · rw [h.senses.config, h.senses.load]
    exact slack live
  · refine Channel.moveExtreme_unreversed fun d e direction extreme => ?_
    rcases h.extreme with none_ | here
    · rw [none_] at direction
      cases direction
    · rw [here] at extreme
      injection extreme with same
      rw [← same, h.senses.raw, gain_self]
      decide
  · have near : decide (Config.runawayMm < (z.raw - z.rest).natAbs) = false := by
      rw [h.rest, h.senses.raw]
      simp
    unfold Channel.runsAway
    rw [near, Bool.and_false]

end Channel.Stood

end Channel

/-- R13: three counts within the standstill margin. -/
theorem Channel.takeSample_still {x : Channel} {y : Sample} {a b : Int} (history : x.history.take 2 = [a, b])
    (still : max y.raw (max a b) - min y.raw (min a b) ≤ 2) : atStandstill (x.takeSample (deliver y)).history = true := by
  have taken : (x.takeSample (deliver y)).history = [y.raw, a, b] := by
    show (y.raw :: x.history).take 3 = _
    rw [List.take_succ_cons, history]
  rw [taken]
  exact decide_eq_true still

theorem standstillEndsStopping : Claims.StandstillEndsStopping := by
  intro c y a b s free there kind stopping history still upper lower drive load slack direction unmarked unjogged unwatched
    stopped awaited
  refine ⟨_, exec_feedbackArrival free c y, ?_⟩
  let x := (s.part.chan c).takeSample (deliver y)
  have taken : (s.part.sampled c y).chan c = x := Part.sampled_chan_self ..
  have stood : x.Stood x.standstill := Channel.standstill_stood stopping direction unmarked stopped
  have ended : (s.part.sampled c y).judgeStandstill c = (s.part.sampled c y).modChan c Channel.standstill := by
    unfold Part.judgeStandstill
    rw [if_pos (by rw [taken]; exact Channel.takeSample_still history still)]
    unfold Part.tellMover
    split
    · next g mover =>
      rw [Part.modChan_chan_self, taken, stood.mover] at mover
      by_cases groupStopping : (s.part.group g).state = .stopping
      · obtain ⟨ln, lane, other, unheld, unfaulted⟩ := awaited g mover groupStopping
        refine Part.exitStopping_underway ⟨ln, ?_, ?_⟩
        · rw [Part.modChan_group, Part.sampled_group]
          exact lane
        · rw [Part.modChan_chan_ne _ _ _ _ other, Part.sampled_chan_ne other]
          exact ⟨unheld, unfaulted⟩
      · unfold Part.exitStopping
        rw [Part.modChan_group, Part.sampled_group, decide_eq_false groupStopping, Bool.false_and]
        exact if_neg Bool.false_ne_true
    · rfl
    · rfl
  have here : ((s.part.sampled c y).modChan c Channel.standstill).chan c = x.standstill := by
    rw [Part.modChan_chan_self, taken]
  have unconfirmed : ((s.part.sampled c y).modChan c Channel.standstill).judgeConfirm c
      = (s.part.sampled c y).modChan c Channel.standstill := by
    refine if_neg ?_
    rw [here, stood.unconfirmed]
    exact Bool.false_ne_true
  have judged : s.part.sampleArrives c (deliver y) = (s.part.sampled c y).modChan c Channel.standstill := by
    rw [Part.sampleArrives_unwatched there kind unwatched, Part.judged, ended, unconfirmed, Part.judgeJogLimit_inside,
      Part.detect_none, Part.modChan_self]
    · rw [here]
      exact stood.watched
    · rw [here]
      exact stood.undetected upper lower drive load fun _ => slack
    · rw [here]
      unfold Channel.jogLimited
      rw [stood.jog]
      show (match (s.part.chan c).jog with | some j => _ | none => false) = false
      rw [unjogged]
  have chan : (s.part.sampleArrives c (deliver y)).drive.chan c = x.standstill := by rw [Part.drive_chan, judged, here]
  dsimp only
  rw [chan]
  refine ⟨stood.rest, stood.timer, stood.state, stood.fault, stood.mover, stood.released, fun e other => ?_, ?_⟩
  · rw [Part.drive_chan, judged, Part.modChan_chan_ne _ _ _ _ other, Part.sampled_chan_ne other]
  · rw [judged]
    exact (((s.part.sampled_kept c y).mono (by simp)).trans ((Part.modChan_kept _ _ _).mono (by simp))).drive

/-- Settles O38: motion confirm, and the end of STOPPING at a standstill. -/
theorem samplesConfirmMotionAndEndStopping : Obligations.SamplesConfirmMotionAndEndStopping :=
  ⟨motionConfirmPutsInMoving, standstillEndsStopping⟩

end Sys2Proof.Machine
end

section
set_option Elab.async false
/-! PROOFS. The standstill of the last lane channel ends a group's move (R14, R82). -/

namespace Sys2Proof.Machine

section Leaving
variable {p q r : Part} {g : Grp} {m : MoveRecord} {t : Trk}

/-- R82: how a group leaves STOPPING is read off the groups, queues, clock, tracks and codes on either side. -/
theorem Part.Leaves.drive (h : p.Leaves q g m) : p.Leaves q.drive g m := by
  unfold Part.Leaves Part.LeavesPlay at h ⊢
  simp only [Part.drive_group, Part.drive_codes, Part.drive_queue, Part.drive_track]
  exact h

/-- R82: a completed cue move whose head fires in the same taking is left out of the statement on the exit. -/
theorem Part.leaves_fires (source : ∃ n, m.source = .cue n) (reason : m.reason = some .complete) (fires : ¬p.HeadWaits g) :
    p.Leaves q g m := by
  obtain ⟨n, source⟩ := source
  refine ⟨fun f faulted => ?_, fun k named => ⟨fun _ waits => absurd waits fires, fun ordinary => ?_⟩, fun t tracked => ?_⟩
  · rw [reason] at faulted
    cases faulted
  · exact absurd reason (ordinary_incomplete ordinary)
  · rw [source] at tracked
    cases tracked

end Leaving

/-! ### The channel of the last standstill -/

section Channel
variable {x z : Channel}

/-- R14: a STOPPING channel of a group that reaches a standstill and is not released again. -/
structure Channel.Landed (x z : Channel) : Prop where
  senses : x.Senses z
  rest : z.rest = x.raw
  timer : z.standstillTimer = none
  fault : z.fault = x.fault
  jog : z.jog = x.jog
  owner : z.owner = x.owner ∧ z.releaseOnEnd = x.releaseOnEnd
  direction : z.direction = x.direction
  state : z.state = if x.fault.isSome then .faulted else .holding

theorem Channel.standstill_landed {g : Grp} (stopping : x.state = .stopping) (mover : x.mover = .group g)
    (still : x.fault.isSome = true ∨ x.pendingRelease = none) : x.Landed x.standstill := by
  have senses := x.standstill_senses
  rw [Channel.standstill_rested stopping, Channel.leaveStopping_still (x := x.rested) still] at senses ⊢
  refine ⟨senses, rfl, rfl, rfl, rfl, ⟨rfl, rfl⟩, rfl, ?_⟩
  show (if x.fault.isSome then ChannelState.faulted else if x.mover = .none then .idle else .holding) = _
  rw [mover]
  rfl

theorem Channel.Landed.rests (h : x.Landed z) : z.state = .holding ∨ z.state = .faulted := by
  rw [h.state]
  split
  · exact .inr rfl
  · exact .inl rfl

/-- R93 to R97: nothing is detected on a channel that has landed and lost its mover. -/
theorem Channel.Landed.undetected {w : Channel} (h : x.Landed z) (freed : z.freed.Like w) (undirected : x.direction = none)
    (upper : x.upperOpen = false) (lower : x.lowerOpen = false) (drive : x.driveFault = false)
    (load : 100 * x.load ≤ x.config.wll * x.config.overloadPct) : w.detected = [] := by
  have state : w.state = z.freed.state := freed.state
  have senses : x.Senses w := h.senses.trans ((Channel.Senses.winds (.freed z)).trans (.winds (.like freed)))
  have place : w.rest = w.raw := freed.rest.trans (h.rest.trans senses.raw.symm)
  unfold Channel.Like at freed
  have direction : w.direction = none := by
    rw [freed]
    exact h.direction.trans undirected
  refine Channel.detected_none (senses.upperOpen.trans upper) (senses.lowerOpen.trans lower) (senses.driveFault.trans drive)
    ?_ (fun live => ?_) (Channel.moveExtreme_unreversed fun d e directed => ?_) ?_ ?_
  · refine decide_eq_false (Nat.not_lt.mpr ?_)
    rw [senses.config, senses.load]
    exact load
  · unfold Channel.live at live
    rw [state] at live
    rcases h.rests with e | e <;> simp [Channel.freed, e] at live
  · rw [direction] at directed
    cases directed
  · have near : decide (Config.runawayMm < (w.raw - w.rest).natAbs) = false := by
      rw [place]
      simp
    unfold Channel.runsAway
    rw [near, Bool.and_false]
  · rw [freed]
    exact nofun

end Channel

/-- R5: a sample whose later judgements find nothing to do. -/
theorem Part.judged_settled {p r : Part} {c : Chan} (ended : p.judgeStandstill c = r) (state : (r.chan c).state ≠ .starting)
    (unjogged : (r.chan c).jog = none) (undirected : (r.chan c).direction = none) (undetected : (r.chan c).detected = []) :
    p.judged c = r := by
  have unconfirmed : r.judgeConfirm c = r := if_neg fun confirmed => state (Channel.starting_of_confirmed confirmed)
  rw [Part.judged, ended, unconfirmed, Part.judgeJogLimit_inside, Part.detect_none undetected,
    Part.modChan_self (Channel.watched_undirected undirected)]
  unfold Channel.jogLimited
  rw [unjogged]

theorem lastStandstillEndsTheMove : Claims.LastStandstillEndsTheMove := by
  intro c y a b g m s free there kind stopping history still upper lower drive load direction unjogged unwatched _ mover
    unreleased state move lane rest
  refine ⟨_, exec_feedbackArrival free c y, ?_⟩
  let x := (s.part.chan c).takeSample (deliver y)
  let p := (s.part.sampled c y).modChan c Channel.standstill
  have taken : (s.part.sampled c y).chan c = x := Part.sampled_chan_self ..
  have here : p.chan c = x.standstill := by
    show ((s.part.sampled c y).modChan c Channel.standstill).chan c = _
    rw [Part.modChan_chan_self, taken]
  have there_ {d : Chan} (other : d ≠ c) : p.chan d = s.part.chan d := by
    show ((s.part.sampled c y).modChan c Channel.standstill).chan d = _
    rw [Part.modChan_chan_ne _ _ _ _ other, Part.sampled_chan_ne other]
  have landed : x.Landed x.standstill := Channel.standstill_landed stopping mover unreleased
  have rests (ln : Lane) (mem : ln ∈ (s.part.group g).lanes) :
      (p.chan ln.channel).state = .holding ∨ (p.chan ln.channel).state = .faulted := by
    by_cases same : ln.channel = c
    · rw [same, here]
      exact landed.rests
    · rw [there_ same]
      exact rest ln mem same
  have ended : (s.part.sampled c y).judgeStandstill c = (p.exitCore g).tellEnd g m := by
    have exits : p.exitStopping g = (p.exitCore g).tellEnd g m := Part.exitStopping_eq state move rests
    rw [← exits]
    unfold Part.judgeStandstill
    rw [if_pos (by rw [taken]; exact Channel.takeSample_still history still)]
    have moved : (p.chan c).mover = .group g := by
      rw [here]
      exact (Channel.standstill_keeps x).2.1.trans mover
    show p.tellMover c = _
    unfold Part.tellMover
    rw [moved]
  have kept : Kept s.part (((s.part.sampled c y).judged c).drive) [.clock] :=
    (((s.part.sampled_kept c y).mono (by simp)).trans ((Part.Judges.judged _ c).kept.mono (by simp))).drive
  rw [Part.sampleArrives_unwatched there kind unwatched]
  by_cases quiet : s.part.EndsQuietly g m
  · have leaves : s.part.Leaves ((p.exitCore g).tellEnd g m) g m := Part.exitCore_leaves (p := p) move
    have freed {ln : Lane} (mem : ln ∈ (s.part.group g).lanes) :
        ((p.chan ln.channel).freed).Like (((p.exitCore g).tellEnd g m).chan ln.channel) :=
      Part.exitCore_freed (p := p) move quiet mem (rests ln mem)
    obtain ⟨own, mem, named⟩ := lane
    have last := freed mem
    rw [named, here] at last
    have judged : (s.part.sampled c y).judged c = (p.exitCore g).tellEnd g m := by
      have like := last
      unfold Channel.Like at like
      refine Part.judged_settled ended ?_ ?_ ?_ ?_
      · rw [last.state]
        rcases landed.rests with e | e <;> simp [Channel.freed, e]
      · rw [like]
        rfl
      · rw [like]
        exact landed.direction.trans direction
      · exact landed.undetected last direction upper lower drive load
    rw [judged] at kept ⊢
    refine ⟨leaves.drive, fun _ => ?_, kept⟩
    rw [Part.drive_chan]
    refine ⟨?_, last.rest.trans landed.rest, last.standstillTimer.trans landed.timer, last.fault.trans landed.fault,
      fun ln mem => ?_⟩
    · rw [last.state]
      show (if x.standstill.state = .holding then ChannelState.idle else x.standstill.state) = _
      rw [landed.state]
      show _ = if x.fault.isSome then ChannelState.faulted else .idle
      split <;> rfl
    · have like := freed mem
      rw [Part.drive_chan]
      refine ⟨like.mover, ?_, fun other => ?_⟩
      · rw [like.owner]
        show (if (p.chan ln.channel).releaseOnEnd then none else (p.chan ln.channel).owner) = _
        by_cases same : ln.channel = c
        · rw [same, here, landed.owner.1, landed.owner.2]
          rfl
        · rw [there_ same]
      · rw [like.state]
        show (if (p.chan ln.channel).state = .holding then ChannelState.idle else (p.chan ln.channel).state) = _
        rw [there_ other]
        rcases rest ln mem other with e | e
        · rw [e]
          rfl
        · rw [e]
  · unfold Part.EndsQuietly at quiet
    push Not at quiet
    obtain ⟨reason, source, fires⟩ := quiet
    refine ⟨Part.leaves_fires source reason fires, fun quiet => ?_, kept⟩
    exact absurd (quiet reason source) fires

/-- Settles O49: how groups enter STOPPING with a fault, and how they leave STOPPING. -/
theorem groupsEnterAndLeaveStopping : Obligations.GroupsEnterAndLeaveStopping :=
  ⟨groupFaultNamesTheLane, controlPeriodRaisesGroupFaults, groupLeavesStoppingByItsReason, lastStandstillEndsTheMove⟩

end Sys2Proof.Machine
end

section
set_option Elab.async false
/-! PROOFS. The halt as a whole (R151, R155): what it leaves of channels, groups, queues and the Mode Controller. -/

namespace Sys2Proof.Machine

/-! ### Groups that are not moving -/

/-- A channel that runs down and that no jog moves keeps its mover: the group that moves it goes on waiting for it (R82). -/
structure Channel.Pinned (x y : Channel) : Prop where
  pinned : x.state = .stopping → (∀ l, x.mover ≠ .jog l) → y.state = .stopping ∧ y.mover = x.mover

namespace Channel.Pinned
variable {x y z : Channel}

theorem refl (x : Channel) : x.Pinned x := ⟨fun stopping _ => ⟨stopping, rfl⟩⟩

theorem trans (h : x.Pinned y) (k : y.Pinned z) : x.Pinned z := by
  refine ⟨fun stopping unjogged => ?_⟩
  obtain ⟨state, mover⟩ := h.pinned stopping unjogged
  obtain ⟨state', mover'⟩ := k.pinned state (by rw [mover]; exact unjogged)
  exact ⟨state', mover'.trans mover⟩

theorem like (h : x.Like y) : x.Pinned y := ⟨fun stopping _ => ⟨h.state.trans stopping, h.mover⟩⟩

theorem stop (x : Channel) : x.Pinned x.stop := by
  refine ⟨fun stopping _ => ?_⟩
  rw [Channel.stop_eq]
  unfold Channel.afterStop
  rw [if_neg (by simp [stopping]), if_pos stopping]
  exact ⟨stopping, rfl⟩

end Channel.Pinned

/-- A step that ends moves and starts none: a group that is neither PREPARING nor RUNNING stays as it is, no fault record of a
group changes, and a channel that runs down for a group keeps its mover. -/
structure Part.Stills (p q : Part) : Prop where
  groups : ∀ g, (p.group g).active = false → q.group g = p.group g
  fault : ∀ g, (q.group g).fault = (p.group g).fault
  pins : ∀ c, (p.chan c).Pinned (q.chan c)

namespace Part.Stills
variable {p q r : Part} {reason : StopReason}

theorem refl (p : Part) : Part.Stills p p := ⟨fun _ _ => rfl, fun _ => rfl, fun _ => .refl _⟩

theorem trans (h : Part.Stills p q) (k : Part.Stills q r) : Part.Stills p r := by
  refine ⟨fun g rests => ?_, fun g => (k.fault g).trans (h.fault g), fun c => (h.pins c).trans (k.pins c)⟩
  have same := h.groups g rests
  rw [k.groups g (by rw [same]; exact rests), same]

theorem of_kept (kept : Kept p q [.groups]) (pins : ∀ c, (p.chan c).Pinned (q.chan c)) : Part.Stills p q :=
  ⟨fun g _ => kept.group g, fun g => congrArg Group.fault (kept.group g), pins⟩

theorem of_chans (kept : Kept p q [.groups, .channels]) : Part.Stills p q :=
  of_kept (kept.mono (by simp)) fun c => .like (.of_eq ((kept.mono (by simp)).chan c))

theorem active (h : Part.Stills p q) {g : Grp} (rests : (p.group g).active = false) : (q.group g).active = false := by
  rw [h.groups g rests]
  exact rests

theorem forEach {α : Type} {f : Part → α → Part} (l : List α) (each : ∀ q x, Part.Stills q (f q x)) (p : Part) :
    Part.Stills p (p.forEach l f) :=
  Part.forEach_inv (P := fun q => Part.Stills p q) (refl p) fun q x _ stills => stills.trans (each q x)

theorem raise (p : Part) (pair : NoticePair) (e : Event) : Part.Stills p (p.raise pair e) :=
  of_kept ((p.raise_kept pair e).mono (by simp)) fun c => .like (p.raise_like pair e c)

/-- R82: the exit from STOPPING leaves the fault record of its group. -/
theorem exitCore_fault (p : Part) (g : Grp) : ((p.exitCore g).group g).fault = (p.group g).fault := by
  have changed (f : Group → Group) (fault : ∀ x, (f x).fault = x.fault) :
      (((p.clearLanes g).modGroup g f).group g).fault = (p.group g).fault := by
    rw [Part.modGroup_group_self, fault, Part.clearLanes_group]
  have told (f : Group → Group) (fault : ∀ x, (f x).fault = x.fault) (e : Event) :
      ((((p.clearLanes g).modGroup g f).raise (.group g) e).group g).fault = (p.group g).fault := by
    rw [((Part.raise_kept _ _ _).mono (cs := [.groups]) (by simp)).group, changed f fault]
  have faulted := told (fun x => { x with state := .faulted }) (fun _ => rfl)
  have idled := told (fun x => { x with state := .idle, move := none }) (fun _ => rfl)
  have held := told (fun x => { x with state := .held, held := true }) (fun _ => rfl)
  unfold Part.exitCore
  split
  · rfl
  · dsimp only
    split
    · split
      · exact faulted _
      · exact changed (fun x => { x with state := .faulted }) fun _ => rfl
    · exact idled _
    · exact changed (fun x => { x with state := .idle, move := none }) fun _ => rfl
    · exact held _

theorem exitCore_out (p : Part) (g : Grp) {c : Chan} (out : ∀ ln ∈ (p.group g).lanes, ln.channel ≠ c) :
    (p.chan c).Like ((p.exitCore g).chan c) := by
  have changed (f : Group → Group) : (p.chan c).Like (((p.clearLanes g).modGroup g f).chan c) :=
    .of_eq (p.clearLanes_chan_out g c out)
  have told (f : Group → Group) (e : Event) : (p.chan c).Like ((((p.clearLanes g).modGroup g f).raise (.group g) e).chan c) :=
    (changed f).trans (Part.raise_like ..)
  have faulted := told fun x => { x with state := .faulted }
  have idled := told fun x => { x with state := .idle, move := none }
  have held := told fun x => { x with state := .held, held := true }
  unfold Part.exitCore
  split
  · exact .refl _
  · dsimp only
    split
    · split
      · exact faulted _
      · exact changed fun x => { x with state := .faulted }
    · exact idled _
    · exact changed fun x => { x with state := .idle, move := none }
    · exact held _

/-- R82: a group with a channel that runs down does not leave STOPPING, and a channel of no lane of it is left alone. -/
theorem endOf_pinned (p : Part) (g : Grp) (reason : StopReason) (c : Chan) : (p.chan c).Pinned ((p.endOf g reason).chan c) := by
  unfold Part.endOf
  split
  · by_cases lane : ∃ ln ∈ (p.group g).lanes, ln.channel = c
    · obtain ⟨ln, mem, rfl⟩ := lane
      have stopped := p.enterStopping_chan_in g reason ln mem
      split
      · next rests =>
        refine ⟨fun stopping unjogged => ?_⟩
        have runs := ((Channel.Pinned.stop (p.chan ln.channel)).pinned stopping unjogged).1
        have at_rest := List.all_eq_true.mp rests ln (by rw [Part.enterStopping_lanes]; exact mem)
        rw [stopped, runs] at at_rest
        cases at_rest
      · rw [stopped]
        exact .stop _
    · have out : ∀ ln ∈ (p.group g).lanes, ln.channel ≠ c := fun ln mem same => lane ⟨ln, mem, same⟩
      have stopped := p.enterStopping_chan_out g reason c out
      rw [← stopped]
      split
      · exact .like (exitCore_out _ g (by rw [Part.enterStopping_lanes]; exact out))
      · exact .refl _
  · exact .refl _

theorem endOf (p : Part) (g : Grp) (reason : StopReason) : Part.Stills p (p.endOf g reason) := by
  have beside := Part.Beside.endOf p g reason
  refine ⟨fun h rests => ?_, fun h => ?_, endOf_pinned p g reason⟩
  · by_cases same : h = g
    · rw [same] at rests ⊢
      rw [Part.endOf_inactive rests]
    · exact beside.groups h same
  · by_cases same : h = g
    · subst same
      have stopped : ((p.enterStopping h reason).group h).fault = (p.group h).fault := by
        rw [Part.enterStopping_group, if_pos rfl]
      unfold Part.endOf
      split
      · split
        · exact (exitCore_fault _ h).trans stopped
        · exact stopped
      · rfl
    · rw [beside.groups h same]

theorem endAll (p : Part) (l : List Grp) (reason : StopReason) : Part.Stills p (p.endAll l reason) :=
  forEach _ (fun q g => endOf q g reason) p

theorem modTrack (p : Part) (t : Trk) (f : Track → Track) : Part.Stills p (p.modTrack t f) :=
  of_chans ((Part.modTrack_kept p t f).mono (by simp))

theorem playEnded (p : Part) (t : Trk) (reason : StopReason) (e : Event) : Part.Stills p (p.playEnded t reason e) :=
  ((modTrack p t _).trans (endAll _ _ reason)).trans (raise _ _ e)

theorem moveEnded (p : Part) (t : Trk) (g : Grp) : Part.Stills p (p.moveEnded t g) := by
  have dropped := modTrack p t (Track.dropPlaying g)
  unfold Part.moveEnded
  split
  · dsimp only
    split
    · split
      · exact dropped.trans ((modTrack _ t _).trans (raise ..))
      · exact dropped
    · split
      · rw [Part.endPlay_eq]
        exact dropped.trans (playEnded ..)
      · exact dropped
  · exact refl p

theorem stopGroup (p : Part) (g : Grp) (mild : reason ≠ .complete) : Part.Stills p (p.stopGroup g reason) := by
  rw [Part.stopGroup_eq mild]
  split
  · split
    · exact (endOf p g reason).trans (moveEnded ..)
    · exact endOf p g reason
  · exact endOf p g reason

/-- R81: after a stop the group is neither PREPARING nor RUNNING. -/
theorem stopGroup_active (p : Part) (g : Grp) (mild : reason ≠ .complete) : ((p.stopGroup g reason).group g).active = false := by
  have ended := Part.endOf_active p g reason
  rw [Part.stopGroup_eq mild]
  split
  · split
    · exact (moveEnded _ _ g).active ended
    · exact ended
  · exact ended

theorem haltTrack (p : Part) (t : Trk) : Part.Stills p (p.haltTrack t) := by
  have stopped : Part.Stills p (((p.modTrack t Track.clearPlay).forEach (p.track t).playing fun p g => p.stopGroup g .request).raise
      (.track t) .trackStopped) :=
    ((modTrack p t _).trans (forEach _ (fun q g => stopGroup q g (by decide)) _)).trans (raise ..)
  unfold Part.haltTrack
  split
  · exact stopped
  · exact stopped
  · exact modTrack p t _
  · exact modTrack p t _

theorem endJogs (p : Part) (which : Link → Bool) : Part.Stills p (p.endJogs which) := by
  refine forEach _ (fun q c => ?_) p
  split
  · split
    · next l mover _ =>
      refine of_kept ((q.endJog_kept c).mono (by simp)) fun d => ?_
      rw [Part.endJog_chan]
      split
      · next same =>
        rw [same]
        exact ⟨fun _ unjogged => absurd mover (unjogged l)⟩
      · exact .refl _
    · exact refl q
  · exact refl q
  · exact refl q

end Part.Stills

/-! ### The halt (R155) -/

/-- R155: groups, tracks and jogs have taken a halt; the queues have not. -/
def Part.windDown (p : Part) : Part :=
  ((((p.draw 8).forEach (allGroups.filter p.haltsFirst) fun p g => p.stopGroup g .halt).forEach allTracks
    Part.haltTrack).forEach allGroups fun p g => p.stopGroup g .halt).endJogs fun _ => true

/-- R127: every queue takes a halt. -/
def Part.haltQueues (p : Part) : Part := p.forEach allGroups fun p g => p.modQueue g CueQueue.halt

theorem Part.handHalt_eq (p : Part) : p.handHalt = p.windDown.haltQueues := rfl

theorem Part.haltQueues_queue (p : Part) (g : Grp) : p.haltQueues.queue g = (p.queue g).halt :=
  Part.forEach_modQueue p (fun _ => CueQueue.halt) g

theorem Part.haltQueues_kept (p : Part) :
    Kept p p.haltQueues [.ctl, .link .a, .link .b, .channels, .ports, .samples, .groups, .clock, .tracks, .codes] :=
  Part.forEach_inv (P := fun q => Kept p q [.ctl, .link .a, .link .b, .channels, .ports, .samples, .groups, .clock, .tracks, .codes])
    (.refl _ _) fun q g _ kept => kept.trans ((q.modQueue_kept g CueQueue.halt).mono (by simp))

theorem Part.windDown_winds (p : Part) : Part.Winds p p.windDown := by
  have halted (q : Part) (g : Grp) : Part.Winds q (q.stopGroup g .halt) := .stopGroup q g (by decide)
  exact (((Part.Winds.draw p 8).trans (.forEach _ halted _)).trans (.forEach _ (fun q t => .haltTrack q t) _)).trans
    ((Part.Winds.forEach _ halted _).trans (.endJogs _ _))

theorem Part.windDown_stills (p : Part) : Part.Stills p p.windDown := by
  have halted (q : Part) (g : Grp) : Part.Stills q (q.stopGroup g .halt) := .stopGroup q g (by decide)
  exact (((Part.Stills.of_chans ((p.draw_kept 8).mono (by simp))).trans (.forEach _ halted _)).trans
    (.forEach _ (fun q t => .haltTrack q t) _)).trans ((Part.Stills.forEach _ halted _).trans (.endJogs _ _))

/-- R155: the part once the mode has changed, before the blocks take the halt. -/
def Part.toHalted (p : Part) (cause : ModeCause) : Part :=
  (p.modCtl fun m => { m with silenceDisarm := false }).changeMode .halted cause

section Halt
variable {p q : Part} {cause : ModeCause}

theorem Part.halt_eq (off : p.ctl.mode ≠ .halted) : p.halt cause = (p.toHalted cause).windDown.haltQueues := if_neg off

/-- R151, R155: the Mode Controller once it is HALTED. -/
theorem Part.toHalted_ctl (p : Part) (cause : ModeCause) : (p.toHalted cause).ctl = { p.ctl with
    mode := .halted, mainPower := false, powerGoodTimer := none, silenceDisarm := false } := by
  unfold Part.toHalted
  rw [Part.changeMode_ctl, Part.modCtl_ctl]
  exact if_neg Bool.false_ne_true

theorem Part.toHalted_codes (p : Part) (cause : ModeCause) : (p.toHalted cause).codes =
    { p.codes with mode := some (.modeChange .halted p.ctl.mode cause) } := by
  unfold Part.toHalted
  rw [Part.changeMode_codes]
  rfl

theorem Part.toHalted_like (p : Part) (cause : ModeCause) (c : Chan) : (p.chan c).Like ((p.toHalted cause).chan c) := by
  unfold Part.toHalted Channel.Like
  rw [Part.changeMode_chan, Part.modCtl_chan]

theorem Part.toHalted_kept (p : Part) (cause : ModeCause) : Kept p (p.toHalted cause) [.samples, .groups, .queues, .clock, .tracks] := by
  have cleared : Kept p (p.modCtl fun m => { m with silenceDisarm := false }) [.samples, .groups, .queues, .clock, .tracks] := by
    simp [Kept, Block.Kept]
  exact cleared.trans ((Part.changeMode_kept _ .halted cause).mono (by simp))

/-- What a halt leaves, whether it is taken or finds the device HALTED. -/
structure Part.Halts (p q : Part) (cause : ModeCause) : Prop where
  chans : ∀ c, (p.chan c).Winds (q.chan c)
  groups : Part.Stills p q
  lanes : ∀ g, (q.group g).lanes = (p.group g).lanes
  kept : Kept p q [.samples, .clock]
  faults : q.codes.faults = p.codes.faults
  mode : q.ctl.mode = .halted
  power : p.ctl.mode ≠ .halted → q.ctl.mainPower = false ∧ q.codes.mode = some (.modeChange .halted p.ctl.mode cause)

theorem Part.halt_halts (p : Part) (cause : ModeCause) : Part.Halts p (p.halt cause) cause := by
  by_cases off : p.ctl.mode = .halted
  · rw [Part.halt_halted off]
    exact ⟨fun c => .refl _, .refl p, fun _ => rfl, .refl _ _, rfl, off, fun up => absurd off up⟩
  · rw [Part.halt_eq off]
    have winds := (p.toHalted cause).windDown_winds
    have stills := (p.toHalted cause).windDown_stills
    have queues := (p.toHalted cause).windDown.haltQueues_kept
    have toHalted := p.toHalted_kept cause
    generalize (p.toHalted cause).windDown = w at *
    generalize w.haltQueues = q at *
    have mode : (p.toHalted cause).ctl.mode = .halted := by rw [Part.toHalted_ctl]
    obtain ⟨ctl, code⟩ := winds.ctl (by rw [mode]; decide) (.inl (by rw [mode]; decide))
    have ctl' : q.ctl = w.ctl := queues .ctl (by simp)
    have codes : q.codes = w.codes := queues .codes (by simp)
    have channels : Kept w q [.channels] := queues.mono (by simp)
    have groups : Kept w q [.groups] := queues.mono (by simp)
    refine ⟨fun c => ?_, ((Part.Stills.of_kept (toHalted.mono (by simp)) fun c => .like (p.toHalted_like cause c)).trans stills).trans
        (.of_chans (queues.mono (by simp))), fun g => ?_,
      ((toHalted.mono (by simp)).trans (winds.kept.mono (by simp))).trans (queues.mono (by simp)), ?_, ?_, fun _ => ⟨?_, ?_⟩⟩
    · rw [channels.chan]
      exact (Channel.Winds.like (p.toHalted_like cause c)).trans (winds.chans c)
    · rw [groups.group, winds.lanes]
      exact congrArg Group.lanes ((toHalted.mono (cs := [.groups]) (by simp)).group g)
    · rw [codes, winds.faults, Part.toHalted_codes]
    · rw [ctl', ctl, mode]
    · rw [ctl', ctl, Part.toHalted_ctl]
    · rw [codes, code, Part.toHalted_codes]

end Halt

end Sys2Proof.Machine
end

section
set_option Elab.async false
/-! PROOFS. What a fault leaves of the channel it reaches, and of the group that moves it (R17, R23, R79, R102, R103, R155). -/

namespace Sys2Proof.Machine

section Fault
variable {p q r : Part} {c : Chan} {g : Grp} {k : FaultKind} {f : FaultKind}

/-- R17, R102: what a new kind does to the channel itself. -/
def Channel.faulted (k : FaultKind) (x : Channel) : Channel := (x.enterFault k).faultState

/-- R17: the part once the channel has entered the kind. -/
def Part.entered (p : Part) (c : Chan) (k : FaultKind) : Part := p.modChan c (Channel.faulted k)

theorem Part.entered_chan (p : Part) (c : Chan) (k : FaultKind) : (p.entered c k).chan c = (p.chan c).faulted k :=
  Part.modChan_chan_self ..

theorem Part.struck_unmoved (mover : (p.chan c).mover = .none) : p.struck c k = p.entered c k := by
  unfold Part.struck
  rw [mover]
  rfl

theorem Part.struck_jogged {l : Link} (mover : (p.chan c).mover = .jog l) : p.struck c k = (p.entered c k).endJog c := by
  unfold Part.struck
  rw [mover]
  rfl

theorem Part.struck_grouped (mover : (p.chan c).mover = .group g) : p.struck c k = (p.entered c k).memberFault g c k := by
  unfold Part.struck
  rw [mover]
  rfl

/-- R79: the group's fault record takes the cause. -/
def Part.blamed (p : Part) (g : Grp) (c : Chan) (k : FaultKind) : Part :=
  p.modGroup g fun x => { x with fault := some (p.faultCause g c k) }

theorem Part.blamed_group (p : Part) (g : Grp) (c : Chan) (k : FaultKind) :
    (p.blamed g c k).group g = { p.group g with fault := some (p.faultCause g c k) } := Part.modGroup_group_self ..

theorem Part.memberFault_active (active : (p.group g).active = true) :
    p.memberFault g c k = (p.blamed g c k).stopGroup g .fault := by
  unfold Part.memberFault
  cases state : (p.group g).state with
  | preparing | running => rfl
  | empty | idle | stopping | held | faulted => simp [Group.active, state] at active

theorem Part.memberFault_stopping (stopping : (p.group g).state = .stopping) (other : (p.group g).move.bind (·.reason) ≠ some .fault) :
    p.memberFault g c k = (p.blamed g c k).modGroup g fun x =>
      { x with move := x.move.map fun m => { m with reason := some .fault } } := by
  unfold Part.memberFault
  rw [stopping]
  exact if_neg other

theorem Part.memberFault_other (inactive : (p.group g).active = false)
    (old : (p.group g).state = .stopping → (p.group g).move.bind (·.reason) = some .fault) : p.memberFault g c k = p := by
  unfold Part.memberFault
  cases state : (p.group g).state with
  | preparing | running => simp [Group.active, state] at inactive
  | empty | idle | held | faulted => rfl
  | stopping => exact if_pos (old state)

theorem Part.Winds.memberFault (p : Part) (g : Grp) (c : Chan) (k : FaultKind) : Part.Winds p (p.memberFault g c k) := by
  have blamed : Part.Winds p (p.blamed g c k) := .modGroup p g rfl
  by_cases active : (p.group g).active = true
  · rw [Part.memberFault_active active]
    exact blamed.trans (.stopGroup _ g (by decide))
  · have inactive := Bool.eq_false_iff.mpr active
    by_cases other : (p.group g).state = .stopping ∧ (p.group g).move.bind (·.reason) ≠ some .fault
    · rw [Part.memberFault_stopping other.1 other.2]
      exact blamed.trans (.modGroup _ g rfl)
    · rw [Part.memberFault_other inactive fun state => by_contra fun old => other ⟨state, old⟩]
      exact .refl p

theorem Part.struck_winds (p : Part) (c : Chan) (k : FaultKind) : Part.Winds (p.entered c k) (p.struck c k) := by
  cases mover : (p.chan c).mover with
  | none =>
    rw [Part.struck_unmoved mover]
    exact .refl _
  | jog l =>
    rw [Part.struck_jogged mover]
    exact .endJog ..
  | group g =>
    rw [Part.struck_grouped mover]
    exact .memberFault ..

/-- What is left once a fault's mover has been told: the notice, and the halt of a DEVICE fault. -/
structure Part.Settles (p q : Part) : Prop where
  chans : ∀ d, (p.chan d).Winds (q.chan d)
  groups : Part.Stills p q
  lanes : ∀ g, (q.group g).lanes = (p.group g).lanes

theorem Part.Settles.trans (h : Part.Settles p q) (k : Part.Settles q r) : Part.Settles p r :=
  ⟨fun d => (h.chans d).trans (k.chans d), h.groups.trans k.groups, fun g => (k.lanes g).trans (h.lanes g)⟩

theorem Part.noticed_settles (p : Part) (c : Chan) (k : FaultKind) : Part.Settles (p.struck c k) (p.noticed c k) := by
  have groups := ((p.struck c k).raise_kept (.channelFault c) (.fault k)).mono (cs := [.groups]) (by simp)
  exact ⟨fun d => .like ((p.struck c k).raise_like _ _ d), .raise .., fun g => congrArg Group.lanes (groups.group g)⟩

theorem Part.noticed_code (p : Part) (c : Chan) (k : FaultKind) : (p.noticed c k).codes.faults[c] = some (.fault k) := by
  unfold Part.noticed
  rw [Part.raise_codes]
  exact Vector.getElem_set_self_chan ..

/-- R17: a kind that the record of a configured channel does not hold. -/
structure Channel.Meets (x : Channel) (k : FaultKind) : Prop where
  configured : x.configured = true
  new : x.holdsFault k = false

theorem Part.faultReaches_device (meets : (p.chan c).Meets k) (device : k.isDevice = true) :
    p.faultReaches c k = (p.noticed c k).halt (.deviceFault c) := by
  rw [Part.faultReaches_eq, meets.configured, meets.new, if_pos (show (true && !false) = true from rfl), if_pos device]

theorem Part.faultReaches_minor (meets : (p.chan c).Meets k) (minor : k.isDevice = false) : p.faultReaches c k = p.noticed c k := by
  rw [Part.faultReaches_eq, meets.configured, meets.new, if_pos (show (true && !false) = true from rfl), minor]
  exact if_neg Bool.false_ne_true

theorem Part.faultReaches_settles (meets : (p.chan c).Meets k) : Part.Settles (p.struck c k) (p.faultReaches c k) := by
  cases device : k.isDevice with
  | true =>
    have halts := (p.noticed c k).halt_halts (.deviceFault c)
    rw [Part.faultReaches_device meets device]
    exact (p.noticed_settles c k).trans ⟨halts.chans, halts.groups, halts.lanes⟩
  | false =>
    rw [Part.faultReaches_minor meets device]
    exact p.noticed_settles c k

/-- R103: the channel's notice names the kind. -/
theorem Part.faultReaches_code (meets : (p.chan c).Meets k) : (p.faultReaches c k).codes.faults[c] = some (.fault k) := by
  cases device : k.isDevice with
  | true =>
    rw [Part.faultReaches_device meets device, ((p.noticed c k).halt_halts (.deviceFault c)).faults]
    exact p.noticed_code c k
  | false =>
    rw [Part.faultReaches_minor meets device]
    exact p.noticed_code c k

/-- R17, R23, R79: the channel that a fault has reached. -/
theorem Part.faultReaches_chan (meets : (p.chan c).Meets k) : ((p.chan c).faulted k).Winds ((p.faultReaches c k).chan c) := by
  have struck := (p.struck_winds c k).chans c
  rw [Part.entered_chan] at struck
  exact struck.trans ((Part.faultReaches_settles meets).chans c)

/-- R17: a fault that a record already holds is none. -/
theorem Part.faultReaches_old (old : (p.chan c).holdsFault k = true) : p.faultReaches c k = p := by
  rw [Part.faultReaches_eq, old, Bool.not_true, Bool.and_false]
  exact if_neg Bool.false_ne_true

/-- R17, R102: the record of the channel holds the kind. -/
theorem Part.faultReaches_holds (configured : (p.chan c).configured = true) :
    ((p.faultReaches c k).chan c).holdsFault k = true := by
  cases held : (p.chan c).holdsFault k with
  | true =>
    rw [Part.faultReaches_old held]
    exact held
  | false =>
    have winds := Part.faultReaches_chan (k := k) ⟨configured, held⟩
    have record : ((p.chan c).faulted k).holdsFault k = true := by
      unfold Channel.faulted Channel.holdsFault
      rw [(Channel.faultState_same _).2]
      have entered := (p.chan c).enterFault_holds k k
      unfold Channel.holdsFault at entered
      rw [entered]
      simp
    unfold Channel.holdsFault at record ⊢
    rw [winds.fault]
    exact record

/-- R23: a jog ends with a fault of its channel. -/
theorem Part.faultReaches_jogged {l : Link} (meets : (p.chan c).Meets k) (mover : (p.chan c).mover = .jog l) :
    ((p.faultReaches c k).chan c).mover = .none ∧ ((p.faultReaches c k).chan c).jog = none := by
  have struck : ((p.struck c k).chan c).mover = .none ∧ ((p.struck c k).chan c).jog = none := by
    rw [Part.struck_jogged mover, Part.endJog_chan, if_pos rfl]
    exact ⟨rfl, rfl⟩
  rcases ((Part.faultReaches_settles meets).chans c).mover with ⟨mover', jog'⟩ | gone
  · rw [mover', jog']
    exact struck
  · exact gone

/-- R79: the group of a channel that a fault reaches while the group moves. -/
theorem Part.faultReaches_group (meets : (p.chan c).Meets k) (mover : (p.chan c).mover = .group g)
    (active : (p.group g).active = true) :
    ((p.faultReaches c k).group g).active = false ∧ ((p.faultReaches c k).group g).fault = some (p.faultCause g c k) := by
  have settles := (Part.faultReaches_settles meets).groups
  have stills : Part.Stills ((p.entered c k).blamed g c k) (((p.entered c k).blamed g c k).stopGroup g .fault) :=
    .stopGroup _ g (by decide)
  have struck : p.struck c k = ((p.entered c k).blamed g c k).stopGroup g .fault := by
    rw [Part.struck_grouped mover]
    exact Part.memberFault_active (p := p.entered c k) active
  have stopped : ((p.struck c k).group g).active = false := by
    rw [struck]
    exact Part.Stills.stopGroup_active _ g (by decide)
  refine ⟨settles.active stopped, ?_⟩
  rw [settles.fault, struck, stills.fault, Part.blamed_group]
  rfl

end Fault

end Sys2Proof.Machine
end

section
set_option Elab.async false
/-! PROOFS. Expiries of the timers of ports and channels (R6, R11, R15, R16, R98, R99, R168). -/

namespace Sys2Proof.Machine

section Detect
variable {p : Part} {c : Chan} {k : FaultKind}

/-- R102: the record of a channel that had none. -/
theorem Channel.faulted_fresh {x : Channel} (sound : x.fault = none) (k : FaultKind) :
    (x.faulted k).fault = some { first := k, position := x.position, load := x.load, further := [] } := by
  unfold Channel.faulted
  rw [(Channel.faultState_same _).2]
  unfold Channel.enterFault
  rw [sound]

/-- R17: a running channel is stopped by its fault. -/
theorem Channel.faulted_running {x : Channel} (runs : x.state = .starting ∨ x.state = .moving ∨ x.state = .holding) (k : FaultKind) :
    x.faulted k = (x.enterFault k).toStopping := by
  unfold Channel.faulted Channel.faultState
  rw [Channel.enterFault_state]
  rcases runs with e | e | e <;> rw [e]

theorem Channel.faulted_idle {x : Channel} (idle : x.state = .idle) (k : FaultKind) : (x.faulted k).state = .faulted := by
  unfold Channel.faulted Channel.faultState
  rw [Channel.enterFault_state, idle]

/-- A stop or a loss of the mover leaves a channel that runs down, or that is FAULTED, as it is. -/
theorem Channel.Winds.ends {x y : Channel} (h : x.Winds y) (ended : x.state = .stopping ∨ x.state = .faulted) : y.state = x.state := by
  rcases h.state with same | ⟨live, -⟩ | ⟨holding, -⟩
  · exact same
  · rcases ended with e | e <;> simp [Channel.live, e] at live
  · rcases ended with e | e <;> simp [e] at holding

/-- R17, R23, R79, R103, R155: what a kind leaves that meets a channel without a record. -/
structure Part.Detected (p q : Part) (c : Chan) (k : FaultKind) : Prop where
  fault : (q.chan c).fault
    = some { first := k, position := (p.chan c).position, load := (p.chan c).load, further := [] }
  code : q.codes.faults[c] = some (.fault k)
  idle : (p.chan c).state = .idle → (q.chan c).state = .faulted
  runs : (p.chan c).state = .starting ∨ (p.chan c).state = .moving → (q.chan c).state = .stopping
  jogged : ∀ j, (p.chan c).mover = .jog j → (q.chan c).mover = .none ∧ (q.chan c).jog = none
  grouped : ∀ g, (p.chan c).mover = .group g → (p.group g).active = true → (q.group g).active = false
    ∧ (q.group g).fault = some (p.faultCause g c k)
  device : k.isDevice = true → q.ctl.mode = .halted ∧ (p.ctl.mode ≠ .halted → q.ctl.mainPower = false)

theorem Part.faultReaches_detected (configured : (p.chan c).configured = true) (sound : (p.chan c).fault = none) (k : FaultKind) :
    Part.Detected p (p.faultReaches c k) c k := by
  have meets : (p.chan c).Meets k := ⟨configured, by simp [Channel.holdsFault, sound]⟩
  have winds := Part.faultReaches_chan meets
  refine ⟨winds.fault.trans (Channel.faulted_fresh sound k), Part.faultReaches_code meets, fun idle => ?_, fun runs => ?_,
    fun j mover => Part.faultReaches_jogged meets mover, fun g mover active => Part.faultReaches_group meets mover active,
    fun device => ?_⟩
  · exact (winds.ends (.inr (Channel.faulted_idle idle k))).trans (Channel.faulted_idle idle k)
  · have stopping : ((p.chan c).faulted k).state = .stopping := by
      rw [Channel.faulted_running (runs.imp_right .inl), Channel.toStopping_eq]
      rfl
    exact (winds.ends (.inl stopping)).trans stopping
  · have halts := (p.noticed c k).halt_halts (.deviceFault c)
    rw [Part.faultReaches_device meets device]
    refine ⟨halts.mode, fun up => (halts.power ?_).1⟩
    have struck : (p.struck c k).ctl.mode ≠ .halted := (p.struck_winds c k).up up
    unfold Part.noticed
    by_cases wakes : (p.struck c k).Wakes (.channelFault c) (.fault k)
    · rw [Part.raise_wakes wakes, Part.changeMode_ctl, ModeCtl.setPower_mode]
      exact fun same => by cases same
    · rw [Part.raise_sleeps wakes, Part.post_ctl]
      exact struck

theorem Channel.faulted_history {x : Channel} (empty : x.history = []) (k : FaultKind) : (x.faulted k).history = [] := by
  have entered : (x.enterFault k).history = [] := by
    unfold Channel.enterFault
    split <;> exact empty
  unfold Channel.faulted Channel.faultState
  rw [Channel.toStopping_eq]
  cases (x.enterFault k).state with
  | starting | moving | holding => rfl
  | idle | stopping | absent | faulted => exact entered

theorem Channel.faulted_settling (x : Channel) (k : FaultKind) :
    (x.faulted k).settling = x.settling ∧ (x.faulted k).settleTimer = x.settleTimer := by
  have entered : (x.enterFault k).settling = x.settling ∧ (x.enterFault k).settleTimer = x.settleTimer := by
    unfold Channel.enterFault
    split <;> exact ⟨rfl, rfl⟩
  unfold Channel.faulted Channel.faultState
  rw [Channel.toStopping_eq]
  split <;> exact entered

/-- R17: a fault leaves an empty history empty, and settling as it is. -/
theorem Part.faultReaches_quiet (configured : (p.chan c).configured = true) (k : FaultKind) :
    ((p.chan c).history = [] → ((p.faultReaches c k).chan c).history = [])
      ∧ ((p.faultReaches c k).chan c).settling = (p.chan c).settling
      ∧ ((p.faultReaches c k).chan c).settleTimer = (p.chan c).settleTimer := by
  cases held : (p.chan c).holdsFault k with
  | true =>
    rw [Part.faultReaches_old held]
    exact ⟨id, rfl, rfl⟩
  | false =>
    have winds := Part.faultReaches_chan (k := k) ⟨configured, held⟩
    have settled := (p.chan c).faulted_settling k
    refine ⟨fun empty => ?_, ?_, ?_⟩
    · rcases winds.history with same | gone
      · rw [same, Channel.faulted_history empty]
      · exact gone
    · rw [winds.same]
      exact settled.1
    · rw [winds.same]
      exact settled.2

end Detect

/-! ### The expiries that detect (R99) -/

section Expiry
variable {s : State} {p : Part} {c : Chan} {k : FaultKind}

/-- R6: the part once a feedback timer has run out. -/
def Part.lost (p : Part) (c : Chan) : Part :=
  (p.modPort c fun q => { q with feedbackTimer := none, arrivedSinceLoss := false }).modChan c fun x => { x with history := [] }

theorem exec_feedbackTimerExpiry (free : s.part.ctl.held = false) (out : (s.part.port c).feedbackTimer = some 0) :
    exec (.feedbackTimerExpiry c) s = .next { s with part := ((s.part.lost c).faultReaches c .feedbackLost).drive } := by
  have taking : exec (.feedbackTimerExpiry c) s = execFeedbackTimerExpiry c s := rfl
  rw [taking, execFeedbackTimerExpiry, State.take_next, Part.awake_of_free free, out]
  rfl

theorem exec_confirmTimerExpiry (free : s.part.ctl.held = false) (out : (s.part.chan c).confirmTimer = some 0) :
    exec (.confirmTimerExpiry c) s
      = .next { s with part := ((s.part.modChan c fun x => { x with confirmTimer := none }).faultReaches c .stall).drive } := by
  have taking : exec (.confirmTimerExpiry c) s = execConfirmTimerExpiry c s := rfl
  rw [taking, execConfirmTimerExpiry, State.take_next, Part.awake_of_free free, out]
  rfl

theorem exec_standstillTimerExpiry (free : s.part.ctl.held = false) (out : (s.part.chan c).standstillTimer = some 0) :
    exec (.standstillTimerExpiry c) s
      = .next { s with part := ((s.part.modChan c fun x => { x with standstillTimer := none }).faultReaches c .runaway).drive } := by
  have taking : exec (.standstillTimerExpiry c) s = execStandstillTimerExpiry c s := rfl
  rw [taking, execStandstillTimerExpiry, State.take_next, Part.awake_of_free free, out]
  rfl

theorem exec_settleTimerExpiry (free : s.part.ctl.held = false) (out : (s.part.chan c).settleTimer = some 0) :
    exec (.settleTimerExpiry c) s = .next { s with
      part := ((s.part.modChan c fun x => { x with settleTimer := none, settling := false }).faultReaches c .runaway).drive } := by
  have taking : exec (.settleTimerExpiry c) s = execSettleTimerExpiry c s := rfl
  rw [taking, execSettleTimerExpiry, State.take_next, Part.awake_of_free free, out]
  rfl

/-- R79: the cause that a fault gives the group, as the claim on the expiries writes it. -/
theorem Part.faultCause_eq (p : Part) (g : Grp) (c : Chan) (k : FaultKind) :
    p.faultCause g c k = match k, (p.group g).lanes.findIdx? fun ln => ln.channel == c with
      | .stall, some n => .stall n
      | _, _ => .memberFault c k := rfl

/-- A channel that an expiry has touched and none of whose other fields differs. -/
structure Part.Touched (p q : Part) (c : Chan) : Prop where
  reading : (q.chan c).reading = (p.chan c).reading
  fault : (q.chan c).fault = (p.chan c).fault
  state : (q.chan c).state = (p.chan c).state
  mover : (q.chan c).mover = (p.chan c).mover
  groups : ∀ g, q.group g = p.group g
  ctl : q.ctl = p.ctl

theorem Part.Touched.modChan (p : Part) (c : Chan) {f : Channel → Channel} (reading : (f (p.chan c)).reading = (p.chan c).reading)
    (fault : (f (p.chan c)).fault = (p.chan c).fault) (state : (f (p.chan c)).state = (p.chan c).state)
    (mover : (f (p.chan c)).mover = (p.chan c).mover) : Part.Touched p (p.modChan c f) c := by
  refine ⟨?_, ?_, ?_, ?_, fun _ => rfl, rfl⟩ <;> rw [Part.modChan_chan_self]
  · exact reading
  · exact fault
  · exact state
  · exact mover

/-- R99: what an expiry's kind leaves, once its timer has been cleared. -/
theorem Part.Touched.detects {q : Part} (touched : Part.Touched p q c) (kind : (p.chan c).kind ≠ .absent) (k : FaultKind) :
    (((q.faultReaches c k).drive.chan c).holdsFault k = true)
      ∧ ((p.chan c).fault = none → Part.Detected p (q.faultReaches c k).drive c k) := by
  have configured : (q.chan c).configured = true := by
    have same : (q.chan c).kind = (p.chan c).kind := congrArg (·.1) touched.reading
    unfold Channel.configured
    rw [same]
    simpa using kind
  refine ⟨?_, fun sound => ?_⟩
  · rw [Part.drive_chan]
    exact Part.faultReaches_holds configured
  · obtain ⟨fault, code, idle, runs, jogged, grouped, device⟩ :=
      Part.faultReaches_detected configured (touched.fault.trans sound) k
    have position : (q.chan c).position = (p.chan c).position := by
      have raw : (q.chan c).raw = (p.chan c).raw := congrArg (·.2.2.1) touched.reading
      have offset : (q.chan c).offset = (p.chan c).offset := congrArg (·.2.2.2.2.1) touched.reading
      have referenced : (q.chan c).referenced = (p.chan c).referenced := congrArg (·.2.2.2.2.2.1) touched.reading
      unfold Channel.position Channel.pos
      rw [raw, offset, referenced]
    have load : (q.chan c).load = (p.chan c).load := congrArg (·.2.2.2.1) touched.reading
    rw [position, load] at fault
    rw [touched.state] at idle runs
    rw [touched.mover] at jogged grouped
    rw [touched.ctl] at device
    refine ⟨?_, ?_, ?_, ?_, ?_, fun g mover active => ?_, ?_⟩
    · rw [Part.drive_chan]
      exact fault
    · rw [Part.drive_codes]
      exact code
    · rw [Part.drive_chan]
      exact idle
    · rw [Part.drive_chan]
      exact runs
    · rw [Part.drive_chan]
      exact jogged
    · obtain ⟨ends, cause⟩ := grouped g mover (by rw [touched.groups]; exact active)
      rw [Part.drive_group]
      refine ⟨ends, ?_⟩
      rw [cause, Part.faultCause_eq, Part.faultCause_eq, touched.groups]
    · rw [Part.drive_ctl]
      exact device

/-- R17, R79, R155: the same as the claim on the expiries writes it. -/
theorem Part.Detected.claim {q : Part} (d : Part.Detected p q.drive c k) :
    (q.drive.chan c).fault = some { first := k, position := (p.chan c).position, load := (p.chan c).load, further := [] }
      ∧ q.drive.codes.faults[c] = some (.fault k)
      ∧ ((p.chan c).state = .idle → (p.chan c).mover = .none → (q.drive.chan c).state = .faulted)
      ∧ ((p.chan c).state = .starting ∨ (p.chan c).state = .moving →
          (q.drive.chan c).state = .stopping ∧ (q.drive.port c).output.brakeReleased = false ∧ (q.drive.port c).output.run = false)
      ∧ (∀ j, (p.chan c).mover = .jog j → (q.drive.chan c).mover = .none ∧ (q.drive.chan c).jog = none)
      ∧ (∀ g, (p.chan c).mover = .group g → (p.group g).active = true → (q.drive.group g).active = false
          ∧ (q.drive.group g).fault = some (p.faultCause g c k))
      ∧ (k = .runaway → q.drive.ctl.mode = .halted ∧ (p.ctl.mode ≠ .halted → q.drive.ctl.mainPower = false)) := by
  refine ⟨d.fault, d.code, fun idle _ => d.idle idle, fun runs => ?_, d.jogged, d.grouped, fun kind => d.device ?_⟩
  · have stopping := d.runs runs
    have safe := Part.drive_safe (p := q) (c := c) (by
      rw [Part.drive_chan] at stopping
      simp [Channel.live, stopping])
    exact ⟨stopping, safe⟩
  · rw [kind]
    rfl

end Expiry

theorem Part.lost_touched (p : Part) (c : Chan) : Part.Touched p (p.lost c) c := by
  obtain ⟨reading, fault, state, mover, groups, ctl⟩ := Part.Touched.modChan
    (p.modPort c fun q => { q with feedbackTimer := none, arrivedSinceLoss := false }) c (f := fun x => { x with history := [] })
    rfl rfl rfl rfl
  exact ⟨reading, fault, state, mover, groups, ctl⟩

theorem Part.lost_port (p : Part) (c : Chan) : (p.lost c).port c = { p.port c with feedbackTimer := none, arrivedSinceLoss := false } := by
  unfold Part.lost
  rw [Part.modChan_port, Part.modPort_port_self]

theorem timerExpiriesDetectFaults : Claims.TimerExpiriesDetectFaults := by
  intro c i k s free kind due
  have configured (f : Channel → Channel) (same : (f (s.part.chan c)).kind = (s.part.chan c).kind) :
      (f (s.part.chan c)).configured = true := by
    unfold Channel.configured
    rw [same]
    simpa using kind
  rcases due with ⟨rfl, out, rfl⟩ | ⟨rfl, out, rfl⟩ | ⟨rfl, out, rfl⟩ | ⟨rfl, out, rfl⟩
  · have detects := (s.part.lost_touched c).detects kind .feedbackLost
    have here : (s.part.lost c).chan c = { s.part.chan c with history := [] } := Part.modChan_chan_self ..
    have quiet := (Part.faultReaches_quiet (p := s.part.lost c) (by
      rw [here]
      exact configured (fun x => { x with history := [] }) rfl) .feedbackLost).1 (by rw [here])
    have port := (Part.Judges.faultReaches (s.part.lost c) c .feedbackLost).kept .samples (by simp) c
    rw [Part.lost_port] at port
    refine ⟨_, exec_feedbackTimerExpiry free out, detects.1, fun _ => ⟨?_, ?_, ?_⟩, ?_, fun sound => (detects.2 sound).claim⟩
    · rw [Part.drive_chan]
      exact quiet
    · rw [Part.drive_port]
      exact congrArg Port.feedbackTimer port
    · rw [Part.drive_port]
      exact congrArg Port.arrivedSinceLoss port
    · exact nofun
  · have touched : Part.Touched s.part (s.part.modChan c fun x => { x with confirmTimer := none }) c := .modChan _ c rfl rfl rfl rfl
    have detects := touched.detects kind .stall
    refine ⟨_, exec_confirmTimerExpiry free out, detects.1, ?_, ?_, fun sound => (detects.2 sound).claim⟩
    · exact nofun
    · exact nofun
  · have touched : Part.Touched s.part (s.part.modChan c fun x => { x with standstillTimer := none }) c := .modChan _ c rfl rfl rfl rfl
    have detects := touched.detects kind .runaway
    refine ⟨_, exec_standstillTimerExpiry free out, detects.1, ?_, ?_, fun sound => (detects.2 sound).claim⟩
    · exact nofun
    · exact nofun
  · have touched : Part.Touched s.part (s.part.modChan c fun x => { x with settleTimer := none, settling := false }) c :=
      .modChan _ c rfl rfl rfl rfl
    have detects := touched.detects kind .runaway
    have here : (s.part.modChan c fun x => { x with settleTimer := none, settling := false }).chan c
        = { s.part.chan c with settleTimer := none, settling := false } := Part.modChan_chan_self ..
    have quiet := (Part.faultReaches_quiet (p := s.part.modChan c fun x => { x with settleTimer := none, settling := false }) (by
      rw [here]
      exact configured (fun x => { x with settleTimer := none, settling := false }) rfl) .runaway).2
    rw [here] at quiet
    refine ⟨_, exec_settleTimerExpiry free out, detects.1, ?_, fun _ => ?_, fun sound => (detects.2 sound).claim⟩
    · exact nofun
    · rw [Part.drive_chan]
      exact quiet

/-! ### Expiries that detect nothing (R6, R98) -/

theorem harmlessExpiries : Claims.HarmlessExpiries := by
  intro c s free
  refine ⟨fun absent out => ?_, fun out => ?_⟩
  · have here : (s.part.lost c).chan c = { s.part.chan c with history := [] } := Part.modChan_chan_self ..
    have kept : Kept s.part (s.part.lost c) [.groups, .queues, .clock, .tracks, .codes, .ctl, .link .a, .link .b] := by
      simp [Part.lost, Kept, Block.Kept]
    have idle : (s.part.lost c).faultReaches c .feedbackLost = s.part.lost c := by
      have unconfigured : ((s.part.lost c).chan c).configured = false := by
        rw [here]
        simp [Channel.configured, absent]
      rw [Part.faultReaches_eq, unconfigured, Bool.false_and]
      exact if_neg Bool.false_ne_true
    refine ⟨_, exec_feedbackTimerExpiry free out, ?_⟩
    rw [idle]
    refine ⟨?_, ?_, fun e other => ?_, kept.drive⟩
    · rw [Part.drive_port, Part.lost_port]
    · rw [Part.drive_chan, here]
    · rw [Part.drive_chan]
      exact Part.modChan_chan_ne _ _ _ _ other
  · have noted : exec (.progressTimerExpiry c) s = .next { s with
        part := s.part.modChan c fun x => if x.progressTimer = .running 0 then { x with progressTimer := .expired } else x } := by
      have taking : exec (.progressTimerExpiry c) s = execProgressTimerExpiry c s := rfl
      rw [taking, execProgressTimerExpiry, State.note, Part.awake_of_free free]
    refine ⟨_, noted, ?_, fun e other => ?_, (Part.modChan_kept _ c _).mono (by simp)⟩
    · rw [Part.modChan_chan_self, if_pos out]
    · exact Part.modChan_chan_ne _ _ _ _ other

/-! ### Expiries out of time (R168, R178) -/

/-- R7: a taking that changes nothing the outputs go by leaves the ports as they are. -/
theorem Part.drive_lawful {p : Part} (law : p.OutputLaw) : Kept p p.drive [.ports] := by
  have drives (c : Chan) : p.drives c ↔ p.releases c = true := by
    simp [Part.drives, Part.releases, Channel.live, and_assoc]
  have safe (c : Chan) (off : p.releases c = false) : (p.port c).output.isSafe = true :=
    (PortOutput.isSafe_iff _).mpr ((law c).2 (by rw [drives]; simp [off]))
  have output (c : Chan) : p.outputOf c = (p.port c).output := by
    cases on : p.releases c with
    | false => exact Part.outputOf_kept on (safe c on)
    | true =>
      obtain ⟨brake, run, direction, demand⟩ := (law c).1 ((drives c).mpr on)
      have way : (p.chan c).direction.getD (p.port c).output.direction = (p.port c).output.direction := by
        cases directed : (p.chan c).direction with
        | none => rfl
        | some d => exact (direction d directed).symm
      rw [Part.outputOf_released on, way]
      cases state : (p.port c).output
      simp_all
  have steady : allChans.any p.becomesSafe = false := by
    rw [List.any_eq_false]
    intro c _ falls
    unfold Part.becomesSafe at falls
    cases on : p.releases c with
    | true => simp [on] at falls
    | false => simp [on, safe c on] at falls
  have ports : p.drive.ports = p.ports := Part.ports_ext fun c => by rw [Part.drive_port, output]
  have draws : p.drive.draws = p.draws := by
    rw [Part.drive_draws, steady]
    rfl
  simpa [Kept, Block.Kept] using ⟨ports, draws⟩

section Idle
variable {i : Instr} {s : State} {f : Part → Part}

theorem State.take_idle (idle : f s.part = s.part) : (s.take fun p => p.awake f) = .next { s with part := s.part.drive } := by
  rw [State.take_next]
  unfold Part.awake
  rw [idle, ite_self]

/-- What a command leaves that finds nothing due. -/
def LeavesAll (i : Instr) (s : State) : Prop :=
  Gives i s fun q => Kept s.part q [.channels, .samples, .groups, .queues, .clock, .tracks, .codes, .ctl, .link .a, .link .b]
    ∧ (s.part.OutputLaw → Kept s.part q [.ports])

theorem LeavesAll.taken {r : Host.Outcome State Fault Refusal} (taking : exec i s = r) (body : r = s.take fun p => p.awake f)
    (idle : f s.part = s.part) : LeavesAll i s :=
  ⟨_, taking.trans (body.trans (State.take_idle idle)), (Kept.refl _ _).drive, Part.drive_lawful⟩

end Idle

theorem expiryOutOfTimeChangesNothing : Claims.ExpiryOutOfTimeChangesNothing := by
  intro i s timed out
  show LeavesAll i s
  cases i with
  | feedbackTimerExpiry c => exact .taken (r := execFeedbackTimerExpiry c s) rfl rfl (if_neg fun due => out ((Timer.out_iff _).mp due))
  | confirmTimerExpiry c => exact .taken (r := execConfirmTimerExpiry c s) rfl rfl (if_neg fun due => out ((Timer.out_iff _).mp due))
  | standstillTimerExpiry c => exact .taken (r := execStandstillTimerExpiry c s) rfl rfl (if_neg fun due => out ((Timer.out_iff _).mp due))
  | settleTimerExpiry c => exact .taken (r := execSettleTimerExpiry c s) rfl rfl (if_neg fun due => out ((Timer.out_iff _).mp due))
  | jogLeaseExpiry c => exact .taken (r := execJogLeaseExpiry c s) rfl rfl (if_neg out)
  | controlPeriod g => exact .taken (r := execControlPeriod g s) rfl rfl (if_neg fun due => out ((Timer.out_iff _).mp due))
  | dwellExpiry g => exact .taken (r := execDwellExpiry g s) rfl rfl (if_neg fun due => out ((Timer.out_iff _).mp due))
  | starvationTimerExpiry t => exact .taken (r := execStarvationTimerExpiry t s) rfl rfl (if_neg fun due => out ((Timer.out_iff _).mp due))
  | watchdogExpiry l => exact .taken (r := execWatchdogExpiry l s) rfl rfl (if_neg fun due => out ((Timer.out_iff _).mp due))
  | powerGoodTimerExpiry => exact .taken (r := execPowerGoodTimerExpiry s) rfl rfl (if_neg fun due => out ((Timer.out_iff _).mp due))
  | segmentTimerExpiry t =>
    refine .taken (r := execSegmentTimerExpiry t s) rfl rfl ?_
    cases (s.part.track t).current with
    | none => rfl
    | some w => exact if_neg fun due => out ((Timer.out_iff _).mp due)
  | progressTimerExpiry c =>
    have running : ¬(s.part.chan c).progressTimer = .running 0 := out
    have noted : exec (.progressTimerExpiry c) s = .next { s with part := s.part } := by
      have taking : exec (.progressTimerExpiry c) s = execProgressTimerExpiry c s := rfl
      rw [taking, execProgressTimerExpiry, State.note]
      unfold Part.awake
      dsimp only
      have idle : (s.part.modChan c fun x => if x.progressTimer = .running 0 then { x with progressTimer := .expired } else x)
          = s.part := Part.modChan_self (if_neg running)
      rw [idle, ite_self]
    exact ⟨_, noted, .refl _ _, fun _ => .refl _ _⟩
  | showClockSaturate =>
    refine .taken (r := execShowClockSaturate s) rfl rfl (if_neg fun due => out ?_)
    simp only [Bool.and_eq_true, beq_iff_eq] at due
    exact due
  | _ => exact absurd timed Bool.false_ne_true

/-- Settles O40: what the expiries detect, and those that detect nothing. -/
theorem timerExpiriesDetectWhatTheyName : Obligations.TimerExpiriesDetectWhatTheyName :=
  ⟨timerExpiriesDetectFaults, harmlessExpiries, expiryOutOfTimeChangesNothing⟩

end Sys2Proof.Machine
end

section
set_option Elab.async false
/-! PROOFS. What the detection of a sample leaves (R5, R17, R93 to R98, R102, R103, R155). -/

namespace Sys2Proof.Machine

/-! ### The kinds a sample meets (R93) -/

section Kinds
variable {x : Channel} {k : FaultKind}

theorem Channel.detects_limit (limit : x.upperOpen = true ∨ x.lowerOpen = true) : .finalLimit ∈ x.detected := by
  rcases limit with e | e <;> simp [Channel.detected, e]

theorem Channel.detects_drive (drive : x.driveFault = true) : .driveFault ∈ x.detected := by simp [Channel.detected, drive]

theorem Channel.detects_overload (heavy : x.config.wll * x.config.overloadPct < 100 * x.load) : .overload ∈ x.detected := by
  simp [Channel.detected, Channel.overloaded, heavy]

theorem Channel.detects_slack (live : x.live = true) (slack : x.load < x.config.underload) : .slack ∈ x.detected := by
  simp [Channel.detected, live, slack]

theorem Channel.detects_reversed (reversed : x.moveExtreme.reversed = true) : .reversed ∈ x.detected := by
  simp [Channel.detected, reversed]

theorem Channel.detects_runaway (runs : x.runsAway = true) : .runaway ∈ x.detected := by simp [Channel.detected, runs]

theorem Channel.detects_stall (expired : x.progressTimer = .expired) (still : x.progressed = false) : .stall ∈ x.detected := by
  simp [Channel.detected, expired, still]

/-- R93: the kind that comes first of those a sample meets in every state. -/
theorem Channel.detected_head (some_ : x.upperOpen = true ∨ x.lowerOpen = true ∨ x.driveFault = true ∨ x.overloaded = true) :
    ∃ rest, x.detected = (if x.upperOpen = true ∨ x.lowerOpen = true then .finalLimit
      else if x.driveFault = true then .driveFault else .overload) :: rest := by
  unfold Channel.detected
  cases upper : x.upperOpen <;> cases lower : x.lowerOpen <;> cases drive : x.driveFault <;> cases heavy : x.overloaded
  all_goals simp_all

end Kinds

/-! ### One fault after another -/

section Faults
variable {p q : Part} {c : Chan} {k f : FaultKind}

/-- R17, R93: the kinds of a list reach a channel in turn. -/
def Part.faultsReach (p : Part) (c : Chan) (l : List FaultKind) : Part := p.forEach l fun q k => q.faultReaches c k

theorem Part.faultsReach_nil (p : Part) (c : Chan) : p.faultsReach c [] = p := rfl

theorem Part.faultsReach_cons (p : Part) (c : Chan) (k : FaultKind) (l : List FaultKind) :
    p.faultsReach c (k :: l) = (p.faultReaches c k).faultsReach c l := Part.forEach_cons ..

theorem Part.faultsReach_judges (p : Part) (c : Chan) (l : List FaultKind) : Part.Judges p (p.faultsReach c l) :=
  .forEach _ (fun q k => .faultReaches q c k) p

theorem Part.detect_eq (p : Part) (c : Chan) :
    p.detect c = (p.modChan c fun x => x.moveExtreme.moveProgress).faultsReach c (p.chan c).detected := rfl

theorem Part.faultsReach_holds {l : List FaultKind} (configured : (p.chan c).configured = true) (mem : k ∈ l) :
    ((p.faultsReach c l).chan c).holdsFault k = true := by
  induction l generalizing p with
  | nil => cases mem
  | cons h l ih =>
    rw [Part.faultsReach_cons]
    have judges := Part.Judges.faultReaches p c h
    rcases List.mem_cons.mp mem with rfl | mem
    · exact ((Part.faultsReach_judges _ c l).chans c).holds k (Part.faultReaches_holds configured)
    · exact ih ((judges.chans c).configured.trans configured) mem

/-- R17: a fault enters its own kind in the record and no other. -/
theorem Part.faultReaches_others (other : f ≠ k) : ((p.faultReaches c k).chan c).holdsFault f = (p.chan c).holdsFault f := by
  by_cases meets : (p.chan c).Meets k
  · have winds := Part.faultReaches_chan meets
    have entered := (p.chan c).enterFault_holds k f
    unfold Channel.holdsFault at entered ⊢
    rw [winds.fault]
    unfold Channel.faulted
    rw [(Channel.faultState_same _).2, entered]
    simp [other]
  · have same : p.faultReaches c k = p := by
      rw [Part.faultReaches_eq]
      refine if_neg fun both => meets ?_
      simp only [Bool.and_eq_true, Bool.not_eq_true'] at both
      exact ⟨both.1, both.2⟩
    rw [same]

/-- R17: a kind that reaches no configured channel without it leaves the part as it is. -/
theorem Part.faultReaches_unmet (old : ¬(p.chan c).Meets k) : p.faultReaches c k = p := by
  rw [Part.faultReaches_eq]
  refine if_neg fun both => old ?_
  simp only [Bool.and_eq_true, Bool.not_eq_true'] at both
  exact ⟨both.1, both.2⟩

/-- R159: a DEVICE fault wakes no device. -/
theorem Part.noticed_device (device : k.isDevice = true) : (p.noticed c k).ctl = (p.struck c k).ctl := by
  have sleeps : ¬(p.struck c k).Wakes (.channelFault c) (.fault k) := by
    rintro ⟨-, -, -, exempt⟩
    refine exempt ⟨c, k, rfl, rfl, ?_⟩
    cases k <;> simp [FaultKind.isDevice] at device ⊢
  unfold Part.noticed
  rw [Part.raise_sleeps sleeps, Part.post_ctl]

/-- R92, R155: a DEVICE fault that the record does not hold halts the device. -/
theorem Part.faultReaches_halts (meets : (p.chan c).Meets k) (device : k.isDevice = true) :
    (p.faultReaches c k).ctl.mode = .halted
      ∧ ((p.struck c k).ctl.mode ≠ .halted → (p.faultReaches c k).ctl.mainPower = false
        ∧ (p.faultReaches c k).codes.mode = some (.modeChange .halted (p.struck c k).ctl.mode (.deviceFault c))) := by
  have halts := (p.noticed c k).halt_halts (.deviceFault c)
  rw [Part.faultReaches_device meets device]
  refine ⟨halts.mode, fun up => ?_⟩
  have ctl := Part.noticed_device (p := p) (c := c) device
  have power := halts.power (by rw [ctl]; exact up)
  rwa [ctl] at power

/-- The mode once faults of a channel have reached it: halted by one of them, or changed by no halt. -/
inductive Part.Moded (p q : Part) (c : Chan) : Prop where
  | halted (mode : q.ctl.mode = .halted)
      (fell : p.ctl.mode ≠ .halted → q.ctl.mainPower = false ∧ ∃ old, q.codes.mode = some (.modeChange .halted old (.deviceFault c))
        ∧ (p.ctl.mode ≠ .parked → p.ctl.silenceDisarm = false → old = p.ctl.mode))
  | up (up : p.ctl.mode ≠ .halted → q.ctl.mode ≠ .halted)
      (ctl : p.ctl.mode ≠ .parked → p.ctl.silenceDisarm = false → q.ctl = p.ctl)

theorem Part.struck_ctl (awake : p.ctl.mode ≠ .parked) (clear : p.ctl.silenceDisarm = false) : (p.struck c k).ctl = p.ctl :=
  ((p.struck_winds c k).ctl awake (.inr clear)).1

theorem Part.noticed_up (up : p.ctl.mode ≠ .halted) : (p.noticed c k).ctl.mode ≠ .halted := by
  have struck : (p.struck c k).ctl.mode ≠ .halted := (p.struck_winds c k).up up
  unfold Part.noticed
  by_cases wakes : (p.struck c k).Wakes (.channelFault c) (.fault k)
  · rw [Part.raise_wakes wakes, Part.changeMode_ctl, ModeCtl.setPower_mode]
    exact fun same => by cases same
  · rw [Part.raise_sleeps wakes, Part.post_ctl]
    exact struck

theorem Part.noticed_ctl (awake : p.ctl.mode ≠ .parked) (clear : p.ctl.silenceDisarm = false) : (p.noticed c k).ctl = p.ctl := by
  have struck := Part.struck_ctl (c := c) (k := k) awake clear
  unfold Part.noticed
  rw [Part.raise_awake (by rw [struck]; exact awake), Part.post_ctl, struck]

theorem Part.Moded.device (h : Part.Moded p q c) (meets : (q.chan c).Meets k) (device : k.isDevice = true) :
    Part.Moded p (q.faultReaches c k) c ∧ (q.faultReaches c k).ctl.mode = .halted := by
  obtain ⟨mode, fell⟩ := Part.faultReaches_halts meets device
  refine ⟨?_, mode⟩
  have judges := Part.Judges.faultReaches q c k
  cases h with
  | halted down told =>
    obtain ⟨ctl, code⟩ := judges.halted down
    exact .halted mode (by rw [ctl, code]; exact told)
  | up up same =>
    refine .halted mode fun off => ?_
    obtain ⟨power, code⟩ := fell ((q.struck_winds c k).up (up off))
    refine ⟨power, _, code, fun awake clear => ?_⟩
    have still := same awake clear
    rw [Part.struck_ctl (by rw [still]; exact awake) (by rw [still]; exact clear), still]

theorem Part.Moded.step (h : Part.Moded p q c) (k : FaultKind) : Part.Moded p (q.faultReaches c k) c := by
  by_cases meets : (q.chan c).Meets k
  · cases device : k.isDevice with
    | true => exact (h.device meets device).1
    | false =>
      have judges := Part.Judges.faultReaches q c k
      cases h with
      | halted down told =>
        obtain ⟨ctl, code⟩ := judges.halted down
        exact .halted (by rw [ctl]; exact down) (by rw [ctl, code]; exact told)
      | up up same =>
        rw [Part.faultReaches_minor meets device]
        refine .up (fun off => Part.noticed_up (up off)) fun awake clear => ?_
        have still := same awake clear
        rw [Part.noticed_ctl (by rw [still]; exact awake) (by rw [still]; exact clear), still]
  · rw [Part.faultReaches_unmet meets]
    exact h

theorem Part.Moded.forEach (h : Part.Moded p q c) (l : List FaultKind) : Part.Moded p (q.faultsReach c l) c :=
  Part.forEach_inv (P := fun r => Part.Moded p r c) h fun _ k _ moded => moded.step k

/-- R92, R155: a DEVICE fault among those that reach a channel without it halts the device. -/
theorem Part.Moded.halts (h : Part.Moded p q c) (device : k.isDevice = true) (configured : (q.chan c).configured = true)
    (new : (q.chan c).holdsFault k = false) {l : List FaultKind} (mem : k ∈ l) :
    Part.Moded p (q.faultsReach c l) c ∧ (q.faultsReach c l).ctl.mode = .halted := by
  refine ⟨h.forEach l, ?_⟩
  induction l generalizing q with
  | nil => cases mem
  | cons f l ih =>
    rw [Part.faultsReach_cons]
    by_cases same : k = f
    · subst same
      obtain ⟨-, halted⟩ := h.device ⟨configured, new⟩ device
      rw [((Part.faultsReach_judges _ c l).halted halted).1]
      exact halted
    · refine ih (h.step f) ?_ ?_ ((List.mem_cons.mp mem).resolve_left same)
      · exact ((Part.Judges.faultReaches q c f).chans c).configured.trans configured
      · rw [Part.faultReaches_others same]
        exact new

end Faults

/-! ### The load watch after a detection -/

/-- What the load watch leaves of the judgements before it. -/
structure Part.Tells (p q : Part) : Prop where
  like : ∀ d, (p.chan d).Like (q.chan d)
  groups : ∀ g, q.group g = p.group g
  faults : q.codes.faults = p.codes.faults
  mode : p.ctl.mode ≠ .parked → q.ctl = p.ctl ∧ q.codes.mode = p.codes.mode

theorem Part.watchLoad_tells (p : Part) (c : Chan) (b : Option Nat) : Part.Tells p (p.watchLoad c b) := by
  have idle : Part.Tells p p := ⟨fun _ => .refl _, fun _ => rfl, rfl, fun _ => ⟨rfl, rfl⟩⟩
  unfold Part.watchLoad
  split
  · split
    · have kept := ((p.modChan c fun x => { x with watchBaseline := x.watchBaseline.map fun _ => x.load }).raise_kept
        (.loadWatch c) (.loadWatch (p.chan c).load)).mono (cs := [.groups]) (by simp)
      refine ⟨fun d => ?_, fun g => kept.group g, ?_, fun awake => ?_⟩
      · refine Channel.Like.trans ?_ (Part.raise_like ..)
        rw [Part.modChan_chan]
        split
        · next same =>
          rw [same]
          rfl
        · exact .refl _
      · rw [Part.raise_codes]
        rfl
      · rw [Part.raise_awake (by rw [Part.modChan_ctl]; exact awake)]
        exact ⟨Part.post_ctl .., rfl⟩
    · exact idle
  · exact idle

end Sys2Proof.Machine
end

section
set_option Elab.async false
/-! PROOFS. Faults of channels without a mover, RUNAWAY at rest, and the progress mark (R92 to R98, R101 to R103, R155). -/

namespace Sys2Proof.Machine

/-! ### The steps before the detection -/

section Steps
variable {x : Channel} {p : Part} {c : Chan}

theorem Channel.leaveStopping_same (x : Channel) : x.leaveStopping.jog = x.jog ∧ x.leaveStopping.fault = x.fault := by
  unfold Channel.leaveStopping
  dsimp only
  split
  · exact ⟨rfl, rfl⟩
  · split
    · rw [Channel.start_eq]
      exact ⟨rfl, rfl⟩
    · split <;> exact ⟨rfl, rfl⟩

theorem Channel.standstill_same (x : Channel) : x.standstill.jog = x.jog ∧ x.standstill.fault = x.fault := by
  unfold Channel.standstill
  dsimp only
  split
  · split
    · exact Channel.leaveStopping_same _
    · exact ⟨rfl, rfl⟩
  · split
    · exact Channel.leaveStopping_same _
    · exact ⟨rfl, rfl⟩

/-- R5 steps 3 and 4, on a channel that no group moves. -/
def Channel.stepped (x : Channel) : Channel := (if atStandstill x.history then x.standstill else x).confirm

theorem Channel.stepped_senses (x : Channel) : x.Senses x.stepped := by
  have confirmed (z : Channel) : z.Senses z.confirm := by
    unfold Channel.confirm
    split
    · exact z.toMoving_senses
    · exact .refl z
  unfold Channel.stepped
  split
  · exact x.standstill_senses.trans (confirmed _)
  · exact confirmed x

theorem Channel.stepped_same (x : Channel) :
    x.stepped.mover = x.mover ∧ x.stepped.jog = x.jog ∧ x.stepped.fault = x.fault := by
  obtain ⟨jog, fault⟩ := x.standstill_same
  have mover := x.standstill_keeps.2.1
  unfold Channel.stepped
  split
  · have onward := x.standstill.confirm_onward
    exact ⟨onward.mover.trans mover, onward.jog.trans jog, onward.fault.trans fault⟩
  · have onward := x.confirm_onward
    exact ⟨onward.mover, onward.jog, onward.fault⟩

theorem Channel.stepped_idle (idle : x.state = .idle) : x.stepped.state = .idle := by
  have still : x.standstill.state = .idle := by
    unfold Channel.standstill
    dsimp only
    split
    · rw [if_neg (by simp [Channel.endSettling, idle])]
      exact idle
    · rw [if_neg (by simp [idle])]
      exact idle
  have stays (z : Channel) (hz : z.state = .idle) : z.confirm.state = .idle := by
    rw [Channel.confirm_stays (by simp [hz]), hz]
  unfold Channel.stepped
  split
  · exact stays _ still
  · exact stays _ idle

/-- R96, R98: the extreme and the mark are all that a sample moves before it detects. -/
theorem Channel.watched_same (x : Channel) : x.moveExtreme.moveProgress = { x with
    reversalExtreme := x.moveExtreme.reversalExtreme, progressMark := x.moveExtreme.moveProgress.progressMark
    progressTimer := x.moveExtreme.moveProgress.progressTimer } := by
  have progress (z : Channel) : z.moveProgress = { z with
      progressMark := z.moveProgress.progressMark, progressTimer := z.moveProgress.progressTimer } := by
    unfold Channel.moveProgress
    split
    · rfl
    · split <;> rfl
  have extreme := x.moveExtreme_same
  rw [progress]
  generalize x.moveExtreme.moveProgress = z at *
  generalize x.moveExtreme = w at *
  rw [extreme]

/-- R5: the judgements of a sample of a channel without a mover. -/
theorem Part.judged_unmoved (unmoved : (p.chan c).mover = .none) (unjogged : (p.chan c).jog = none) :
    p.judged c = (p.modChan c fun x => x.stepped.moveExtreme.moveProgress).faultsReach c (p.chan c).stepped.detected := by
  have stood : p.judgeStandstill c = p.modChan c fun x => if atStandstill x.history then x.standstill else x := by
    unfold Part.judgeStandstill
    split
    · next still =>
      have mod : (p.modChan c fun x => if atStandstill x.history then x.standstill else x) = p.modChan c Channel.standstill := by
        unfold Part.modChan
        exact congrArg (p.setChan c) (if_pos still)
      rw [mod]
      refine Part.tellMover_idle fun g mover => ?_
      rw [Part.modChan_chan_self, (p.chan c).standstill_keeps.2.1, unmoved] at mover
      cases mover
    · next moves =>
      refine (Part.modChan_self ?_).symm
      exact if_neg moves
  have stepped : (p.judgeStandstill c).judgeConfirm c = p.modChan c Channel.stepped := by
    rw [stood, Part.judgeConfirm_ungrouped, Part.modChan_modChan]
    · rfl
    · intro g mover
      rw [Part.modChan_chan_self] at mover
      split at mover
      · rw [(p.chan c).standstill_keeps.2.1, unmoved] at mover
        cases mover
      · rw [unmoved] at mover
        cases mover
  have here : (p.modChan c Channel.stepped).chan c = (p.chan c).stepped := Part.modChan_chan_self ..
  unfold Part.judged
  rw [stepped, Part.judgeJogLimit_inside, Part.detect_eq, Part.modChan_modChan, here]
  unfold Channel.jogLimited
  rw [here, (p.chan c).stepped_same.2.1, unjogged]

end Steps

/-! ### A channel without a mover (R17, R101 to R103) -/

section Unmoved
variable {p q : Part} {c : Chan} {k : FaultKind} {x : Channel}

theorem Channel.faulted_faulted (faulted : x.state = .faulted) (k : FaultKind) : (x.faulted k).state = .faulted := by
  unfold Channel.faulted Channel.faultState
  rw [Channel.enterFault_state, faulted]
  exact (Channel.enterFault_state k x).trans faulted

theorem Channel.faulted_mover (x : Channel) (k : FaultKind) : (x.faulted k).mover = x.mover := by
  have entered := Channel.enterFault_mover k x
  unfold Channel.faulted Channel.faultState
  rw [Channel.toStopping_eq]
  split <;> exact entered

/-- R101: an IDLE channel without a record, or one that a fault has taken to FAULTED, without a mover. -/
structure Channel.Resting (x : Channel) : Prop where
  mover : x.mover = .none
  state : x.state = .faulted ∨ x.state = .idle ∧ x.fault = none

theorem Channel.Resting.faultReaches (h : (p.chan c).Resting) (k : FaultKind) : ((p.faultReaches c k).chan c).Resting := by
  by_cases meets : (p.chan c).Meets k
  · have winds := Part.faultReaches_chan meets
    refine ⟨?_, .inl ?_⟩
    · rcases winds.mover with ⟨mover, -⟩ | ⟨mover, -⟩
      · rw [mover, Channel.faulted_mover, h.mover]
      · exact mover
    · have faulted : ((p.chan c).faulted k).state = .faulted := by
        rcases h.state with e | ⟨e, -⟩
        · exact Channel.faulted_faulted e k
        · exact Channel.faulted_idle e k
      exact (winds.ends (.inr faulted)).trans faulted
  · rw [Part.faultReaches_unmet meets]
    exact h

/-- R103: a record that differs has a notice that names a kind. -/
theorem Part.faultsReach_told (l : List FaultKind) (changed : ((p.faultsReach c l).chan c).fault ≠ (p.chan c).fault) :
    ∃ k, (p.faultsReach c l).codes.faults[c] = some (.fault k) := by
  have told : ((p.faultsReach c l).chan c).fault = (p.chan c).fault ∨ ∃ k, (p.faultsReach c l).codes.faults[c] = some (.fault k) := by
    refine Part.forEach_inv (P := fun q => (q.chan c).fault = (p.chan c).fault ∨ ∃ k, q.codes.faults[c] = some (.fault k)) (.inl rfl)
      fun q k _ h => ?_
    by_cases meets : (q.chan c).Meets k
    · exact .inr ⟨k, Part.faultReaches_code meets⟩
    · rw [Part.faultReaches_unmet meets]
      exact h
  exact told.resolve_left changed

end Unmoved

theorem sampleFaultAtRestIsRecorded : Claims.SampleFaultAtRestIsRecorded := by
  intro c y s free there kind unmoved unjogged
  refine ⟨_, exec_feedbackArrival free c y, ?_⟩
  let x := (s.part.chan c).takeSample (deliver y)
  have taken : (s.part.sampled c y).chan c = x := Part.sampled_chan_self ..
  rw [Part.sampleArrives_configured there kind,
    Part.judged_unmoved (by rw [taken]; exact unmoved) (by rw [taken]; exact unjogged), taken]
  have here : ((s.part.sampled c y).modChan c fun x => x.stepped.moveExtreme.moveProgress).chan c
      = x.stepped.moveExtreme.moveProgress := by rw [Part.modChan_chan_self, taken]
  have ctl : ((s.part.sampled c y).modChan c fun x => x.stepped.moveExtreme.moveProgress).ctl = s.part.ctl := by
    rw [Part.modChan_ctl, Part.sampled_ctl]
  generalize ((s.part.sampled c y).modChan c fun x => x.stepped.moveExtreme.moveProgress) = p at *
  obtain ⟨mover, -, fault⟩ := x.stepped_same
  have watched := x.stepped.watched_same
  have fault' : (p.chan c).fault = (s.part.chan c).fault := by
    rw [here, watched]
    exact fault
  have mover' : (p.chan c).mover = .none := by
    rw [here, watched]
    exact mover.trans unmoved
  have senses : x.Senses (p.chan c) := by
    rw [here]
    exact x.stepped_senses.trans x.stepped.watched_senses
  have configured : (p.chan c).configured = true := by
    rw [senses.configured]
    simpa [Channel.configured, x, Channel.takeSample] using kind
  have stepped := x.stepped_senses
  have told := Part.faultsReach_told (p := p) (c := c) x.stepped.detected
  have judges := p.faultsReach_judges c x.stepped.detected
  have held {k : FaultKind} (mem : k ∈ x.stepped.detected) := Part.faultsReach_holds configured mem
  have resting : (s.part.chan c).state = .idle → (s.part.chan c).fault = none →
      ((p.faultsReach c x.stepped.detected).chan c).Resting := by
    intro idle sound
    have start : (p.chan c).Resting := by
      refine ⟨mover', .inr ⟨?_, fault'.trans sound⟩⟩
      rw [here, watched]
      exact Channel.stepped_idle idle
    exact Part.forEach_inv (P := fun q => (q.chan c).Resting) start fun q k _ h => h.faultReaches k
  have halts : (s.part.chan c).holdsFault .finalLimit = false → y.upperOpen = true ∨ y.lowerOpen = true →
      (p.faultsReach c x.stepped.detected).ctl.mode = .halted
        ∧ (s.part.ctl.mode ≠ .halted → (p.faultsReach c x.stepped.detected).ctl.mainPower = false
          ∧ (p.faultsReach c x.stepped.detected).codes.mode = some (.modeChange .halted s.part.ctl.mode (.deviceFault c))) := by
    intro new limit
    have limit' : x.stepped.upperOpen = true ∨ x.stepped.lowerOpen = true := by
      rw [stepped.upperOpen, stepped.lowerOpen]
      exact limit
    obtain ⟨rest, first⟩ := Channel.detected_head (x := x.stepped) (limit'.elim .inl fun lower => .inr (.inl lower))
    rw [if_pos limit'] at first
    have meets : (p.chan c).Meets .finalLimit := by
      refine ⟨configured, ?_⟩
      unfold Channel.holdsFault at new ⊢
      rw [fault']
      exact new
    obtain ⟨mode, fell⟩ := Part.faultReaches_halts meets rfl
    have struck : (p.struck c .finalLimit).ctl = s.part.ctl := by
      rw [Part.struck_unmoved mover']
      exact (Part.modChan_ctl ..).trans ctl
    rw [struck] at fell
    rw [first, Part.faultsReach_cons]
    obtain ⟨ctl', code'⟩ := ((p.faultReaches c .finalLimit).faultsReach_judges c rest).halted mode
    rw [ctl', code']
    exact ⟨mode, fell⟩
  have tells := (p.faultsReach c x.stepped.detected).watchLoad_tells c (s.part.chan c).watchBaseline
  generalize p.faultsReach c x.stepped.detected = d at *
  generalize d.watchLoad c (s.part.chan c).watchBaseline = q at *
  have all : x.Senses (q.chan c) := (senses.trans (judges.chans c)).trans (.winds (.like (tells.like c)))
  have holds {k : FaultKind} (h : (d.chan c).holdsFault k = true) : (q.chan c).holdsFault k = true :=
    (Channel.Senses.winds (.like (tells.like c))).holds k h
  dsimp only
  rw [Part.drive_chan, Part.drive_codes, Part.drive_ctl]
  refine ⟨fun limit => holds (held (Channel.detects_limit ?_)), fun drive => holds (held (Channel.detects_drive ?_)),
    fun heavy => holds (held (Channel.detects_overload ?_)), fun idle sound faulted => ?_, all.record, all.holds,
    fun changed => ?_, fun new limit => ?_⟩
  · rw [stepped.upperOpen, stepped.lowerOpen]
    exact limit
  · exact stepped.driveFault.trans drive
  · rw [stepped.config, stepped.load]
    exact heavy
  · rw [(tells.like c).state]
    rcases (resting idle sound).state with e | ⟨-, e⟩
    · exact e
    · rw [(tells.like c).fault, e] at faulted
      cases faulted
  · rw [(tells.like c).fault, ← fault'] at changed
    rw [tells.faults]
    exact told changed
  · obtain ⟨mode, fell⟩ := halts new limit
    obtain ⟨ctl', code'⟩ := tells.mode (by rw [mode]; decide)
    rw [ctl', code']
    exact ⟨mode, fell⟩

end Sys2Proof.Machine
end

section
set_option Elab.async false
/-! PROOFS. RUNAWAY at rest, and the progress mark (R92, R97, R98, R155). -/

namespace Sys2Proof.Machine

section Steps
variable {p : Part} {c : Chan} {g : Grp}

/-- R82: a STOPPING group that awaits one of its channels goes on STOPPING. -/
theorem Part.exitStopping_awaits (waits : (p.group g).state = .stopping → p.Underway g) : p.exitStopping g = p := by
  by_cases stopping : (p.group g).state = .stopping
  · exact Part.exitStopping_underway (waits stopping)
  · unfold Part.exitStopping
    rw [decide_eq_false stopping, Bool.false_and]
    exact if_neg Bool.false_ne_true

/-- R5 step 3, on a channel that is not STOPPING and whose group, if it is STOPPING, awaits a channel. -/
theorem Part.judgeStandstill_waits (moving : (p.chan c).state ≠ .stopping)
    (waits : ∀ g, (p.chan c).mover = .group g → (p.group g).state = .stopping → p.Underway g) :
    p.judgeStandstill c = p.modChan c Channel.quiet := by
  unfold Part.judgeStandstill
  split
  · next still =>
    have mod : p.modChan c Channel.standstill = p.modChan c Channel.quiet := by
      unfold Part.modChan
      rw [Channel.standstill_quiet moving still]
    have state (d : Chan) : ((p.modChan c Channel.quiet).chan d).state = (p.chan d).state := by
      rw [Part.modChan_chan]
      split
      · next same => rw [Channel.quiet_state, same]
      · rfl
    rw [mod]
    unfold Part.tellMover
    split
    · next g mover =>
      rw [Part.modChan_chan_self, (Channel.quiet_onward _).mover] at mover
      refine Part.exitStopping_awaits fun stopping => ?_
      obtain ⟨ln, lane, unheld, unfaulted⟩ := waits g mover stopping
      exact ⟨ln, lane, by rw [state]; exact unheld, by rw [state]; exact unfaulted⟩
    · rfl
    · rfl
  · next moves =>
    refine (Part.modChan_self ?_).symm
    unfold Channel.quiet
    exact if_neg (by simp [moves])

theorem Channel.quiet_settled {x : Channel} (settled : x.settling = false) : x.quiet = x := by
  unfold Channel.quiet
  rw [settled, Bool.and_false]
  exact if_neg Bool.false_ne_true

theorem Channel.jogLimited_unjogged {x : Channel} (unjogged : x.jog = none) : x.jogLimited = false := by
  unfold Channel.jogLimited
  rw [unjogged]

end Steps

theorem runawayAtRestHalts : Claims.RunawayAtRestHalts := by
  intro c y s free there kind rests settled unjogged far awaited
  refine ⟨_, exec_feedbackArrival free c y, ?_⟩
  let x := (s.part.chan c).takeSample (deliver y)
  have taken : (s.part.sampled c y).chan c = x := Part.sampled_chan_self ..
  have other (e : ChannelState) (out : e ∉ [ChannelState.idle, .holding, .faulted]) : x.state ≠ e := fun same => out (same ▸ rests)
  have quiet : x.quiet = x := Channel.quiet_settled settled
  have stood : (s.part.sampled c y).judgeStandstill c = s.part.sampled c y := by
    rw [Part.judgeStandstill_waits, Part.modChan_self]
    · rw [taken]
      exact quiet
    · rw [taken]
      exact other _ (by decide)
    · intro g mover stopping
      rw [taken] at mover
      obtain ⟨ln, lane, apart, unheld, unfaulted⟩ := awaited g mover stopping
      refine ⟨ln, lane, ?_, ?_⟩ <;> rw [Part.sampled_chan_ne apart]
      · exact unheld
      · exact unfaulted
  have judged : (s.part.sampled c y).judged c
      = ((s.part.sampled c y).modChan c fun x => x.moveExtreme.moveProgress).faultsReach c x.detected := by
    have unconfirmed : (s.part.sampled c y).judgeConfirm c = s.part.sampled c y := if_neg fun confirmed => by
      rw [taken] at confirmed
      exact other _ (by decide) (Channel.starting_of_confirmed confirmed)
    rw [Part.judged, stood, unconfirmed, Part.judgeJogLimit_inside, Part.detect_eq, taken]
    rw [taken]
    exact Channel.jogLimited_unjogged unjogged
  have here : ((s.part.sampled c y).modChan c fun x => x.moveExtreme.moveProgress).chan c = x.moveExtreme.moveProgress := by
    rw [Part.modChan_chan_self, taken]
  have ctl : ((s.part.sampled c y).modChan c fun x => x.moveExtreme.moveProgress).ctl = s.part.ctl := by
    rw [Part.modChan_ctl, Part.sampled_ctl]
  rw [Part.sampleArrives_configured there kind, judged]
  generalize ((s.part.sampled c y).modChan c fun x => x.moveExtreme.moveProgress) = p at *
  have configured : (p.chan c).configured = true := by
    rw [here, x.watched_senses.configured]
    simpa [Channel.configured, x, Channel.takeSample] using kind
  have fault : (p.chan c).fault = (s.part.chan c).fault := by
    rw [here, x.watched_same]
    rfl
  have mem : .runaway ∈ x.detected := by
    refine Channel.detects_runaway ?_
    have away : Config.runawayMm < (x.raw - x.rest).natAbs := far
    have state : (x.state == .idle || x.state == .holding || x.state == .faulted) = true := by
      simpa [x, Channel.takeSample, or_assoc] using rests
    have unsettled : x.settling = false := settled
    unfold Channel.runsAway
    rw [state, unsettled, decide_eq_true away]
    rfl
  have start : Part.Moded s.part p c := .up (by rw [ctl]; exact id) fun _ _ => ctl
  have tells := (p.faultsReach c x.detected).watchLoad_tells c (s.part.chan c).watchBaseline
  dsimp only
  rw [Part.drive_chan, Part.drive_ctl, Part.drive_codes]
  refine ⟨?_, fun new => ?_⟩
  · exact (Channel.Senses.winds (.like (tells.like c))).holds _ (Part.faultsReach_holds configured mem)
  · have new' : (p.chan c).holdsFault .runaway = false := by
      unfold Channel.holdsFault at new ⊢
      rw [fault]
      exact new
    obtain ⟨moded, mode⟩ := start.halts rfl configured new' mem
    obtain ⟨ctl', code'⟩ := tells.mode (by rw [mode]; decide)
    rw [ctl', code']
    refine ⟨mode, fun up => ?_⟩
    cases moded with
    | halted _ fell => exact fell up
    | up stays _ => exact absurd mode (stays up)

theorem progressMovesTheMark : Claims.ProgressMovesTheMark := by
  intro c y d mark n s free there kind moving direction marked running calm inside idle
  refine ⟨_, exec_feedbackArrival free c y, ?_⟩
  let x := (s.part.chan c).takeSample (deliver y)
  have taken : (s.part.sampled c y).chan c = x := Part.sampled_chan_self ..
  have judged : (s.part.sampled c y).judged c
      = (((s.part.sampled c y).modChan c Channel.quiet).judgeConfirm c).modChan c fun x => x.moveExtreme.moveProgress := by
    refine Part.judged_calm ?_ (fun g mover => ?_) ?_ ?_
    · rw [taken]
      exact fun same => by cases moving.symm.trans same
    · rw [taken] at mover
      exact idle g mover
    · rw [taken]
      exact Channel.calm_unlimited inside
    · rw [taken]
      exact Channel.calm_detected calm
  have unconfirmed : x.quiet.confirm = x.quiet := Channel.confirm_stays (by
    rw [Channel.quiet_state]
    exact fun same => by cases moving.symm.trans same)
  have onward := x.quiet_onward
  have progress : x.quiet.progressMark = some mark := by
    unfold Channel.quiet
    split <;> exact marked
  have timer : x.quiet.progressTimer = .running n := (x.quiet_timer).trans running
  have moved : x.quiet.moveExtreme.moveProgress = { x.quiet with
      reversalExtreme := x.quiet.moveExtreme.reversalExtreme
      progressMark := if 3 ≤ gain d mark y.raw then some y.raw else some mark
      progressTimer := if 3 ≤ gain d mark y.raw then .running 600 else .running n } := by
    have extreme := x.quiet.moveExtreme_same
    have progressed : x.quiet.moveExtreme.progressed = decide (3 ≤ gain d mark y.raw) := by
      rw [extreme]
      unfold Channel.progressed
      dsimp only
      rw [onward.direction, progress, onward.raw]
      show (match (s.part.chan c).direction, some mark with
        | some d, some mark => decide (Config.confirmMm ≤ gain d mark y.raw) | _, _ => false) = _
      rw [direction]
      rfl
    unfold Channel.moveProgress
    rw [progressed, if_neg (by rw [extreme]; simp [timer])]
    by_cases far : 3 ≤ gain d mark y.raw
    · rw [if_pos (decide_eq_true far), if_pos far, if_pos far, extreme]
      dsimp only
      rw [onward.raw]
      rfl
    · rw [if_neg (by simp [far]), if_neg far, if_neg far, ← progress, ← timer]
      exact extreme
  have tells := ((s.part.sampled c y).judged c).watchLoad_tells c (s.part.chan c).watchBaseline
  have like := tells.like c
  rw [Part.sampleArrives_configured there kind]
  dsimp only
  rw [Part.drive_chan]
  unfold Channel.Like at like
  rw [like, judged, Part.calmJudged_chan, if_pos rfl, taken, unconfirmed, moved]
  exact ⟨(Channel.quiet_state x).trans moving, onward.fault, rfl, rfl⟩

end Sys2Proof.Machine
end

section
set_option Elab.async false
/-! PROOFS. Faults of channels that a jog or a group moves (R17, R23, R79, R92 to R98, R155). -/

namespace Sys2Proof.Machine

/-! ### The channel -/

section Channel
variable {x z w : Channel} {k f : FaultKind}

/-- R17: a channel that runs down after a fault, and what it was before. -/
structure Channel.Sunk (x z : Channel) (k : FaultKind) : Prop where
  state : z.state = .stopping
  first : z.fault.map (·.first) = some k
  release : z.pendingRelease = none
  stopped : x.state ≠ .stopping → z.direction = none ∧ z.history = [] ∧ z.standstillTimer = some 2000
  timer : x.state = .stopping → z.standstillTimer = x.standstillTimer

theorem Channel.faulted_stopping (stopping : x.state = .stopping) (k : FaultKind) :
    x.faulted k = { x.enterFault k with pendingRelease := none } := by
  unfold Channel.faulted Channel.faultState
  have state := (x.enterFault_state k).trans stopping
  generalize x.enterFault k = z at state
  cases z
  cases state
  rfl

/-- R102: a further kind leaves the first of the record. -/
theorem Channel.enterFault_first (recorded : x.fault.map (·.first) = some f) (k : FaultKind) :
    (x.enterFault k).fault.map (·.first) = some f := by
  unfold Channel.enterFault
  cases fault : x.fault with
  | none => simp [fault] at recorded
  | some r =>
    rw [fault] at recorded
    exact recorded

theorem Channel.enterFault_same (x : Channel) (k : FaultKind) : x.enterFault k = { x with fault := (x.enterFault k).fault } := by
  unfold Channel.enterFault
  split <;> rfl

theorem Channel.Sunk.winds (h : x.Sunk z k) (wound : z.Winds w) : x.Sunk w k := by
  have rest : z.live = false := by simp [Channel.live, h.state]
  have still := wound.still rest
  have state : w.state = .stopping := (wound.ends (.inl h.state)).trans h.state
  refine ⟨state, ?_, ?_, fun moving => ?_, fun stopping => ?_⟩
  · rw [wound.fault]
    exact h.first
  · exact wound.release.elim (fun same => same.trans h.release) id
  · obtain ⟨direction, history, timer⟩ := h.stopped moving
    rw [still]
    exact ⟨direction, history, timer⟩
  · rw [still]
    exact h.timer stopping

theorem Channel.Sunk.faulted (h : x.Sunk z k) (f : FaultKind) : x.Sunk (z.faulted f) k := by
  have first := Channel.enterFault_first h.first f
  have same := z.enterFault_same f
  rw [Channel.faulted_stopping h.state]
  refine ⟨?_, first, rfl, fun moving => ?_, fun stopping => ?_⟩
  · rw [same]
    exact h.state
  · rw [same]
    exact h.stopped moving
  · rw [same]
    exact h.timer stopping

/-- R17: the first fault of a channel without a record, which runs, holds, or runs down. -/
theorem Channel.faulted_sunk (sound : z.fault = none) (moves : z.state = .starting ∨ z.state = .moving ∨ z.state = .holding
      ∨ z.state = .stopping)
    (kept : z.state = .stopping → (x.state ≠ .stopping → z.direction = none ∧ z.history = [] ∧ z.standstillTimer = some 2000)
      ∧ (x.state = .stopping → z.standstillTimer = x.standstillTimer))
    (new : z.state ≠ .stopping → x.state ≠ .stopping) (k : FaultKind) : x.Sunk (z.faulted k) k := by
  have fault := Channel.faulted_fresh sound k
  have same := z.enterFault_same k
  by_cases stopping : z.state = .stopping
  · obtain ⟨stopped, timer⟩ := kept stopping
    refine ⟨?_, by rw [fault]; rfl, ?_, fun moving => ?_, fun down => ?_⟩ <;> rw [Channel.faulted_stopping stopping]
    · rw [same]
      exact stopping
    · rw [same]
      exact stopped moving
    · rw [same]
      exact timer down
  · have runs : z.state = .starting ∨ z.state = .moving ∨ z.state = .holding := by
      rcases moves with e | e | e | e
      · exact .inl e
      · exact .inr (.inl e)
      · exact .inr (.inr e)
      · exact absurd e stopping
    have halted : z.faulted k = (z.enterFault k).stopped := by
      rw [Channel.faulted_running runs, Channel.toStopping_eq]
    refine ⟨?_, by rw [fault]; rfl, ?_, fun _ => ?_, fun down => absurd down (new stopping)⟩ <;> rw [halted]
    · rfl
    · rfl
    · exact ⟨rfl, rfl, rfl⟩

/-- R23: a jog that has ended stays ended. -/
def Channel.Unjogged (x : Channel) : Prop := x.mover = .none ∧ x.jog = none

theorem Channel.Unjogged.winds (h : z.Unjogged) (wound : z.Winds w) : w.Unjogged := by
  rcases wound.mover with ⟨mover, jog⟩ | gone
  · exact ⟨mover.trans h.1, jog.trans h.2⟩
  · exact gone

theorem Channel.faulted_jog (x : Channel) (k : FaultKind) : (x.faulted k).jog = x.jog := by
  have entered : (x.enterFault k).jog = x.jog := by rw [x.enterFault_same k]
  unfold Channel.faulted Channel.faultState
  rw [Channel.toStopping_eq]
  split <;> exact entered

theorem Channel.Unjogged.faulted (h : z.Unjogged) (k : FaultKind) : (z.faulted k).Unjogged :=
  ⟨(z.faulted_mover k).trans h.1, (z.faulted_jog k).trans h.2⟩

end Channel

/-! ### One fault after another -/

section Faults
variable {p q : Part} {c : Chan} {g : Grp} {k f : FaultKind} {x : Channel}

theorem Channel.Sunk.faultsReach (h : x.Sunk (p.chan c) k) (l : List FaultKind) : x.Sunk ((p.faultsReach c l).chan c) k :=
  Part.forEach_inv (P := fun q => x.Sunk (q.chan c) k) h fun q f _ sunk => by
    by_cases meets : (q.chan c).Meets f
    · exact (sunk.faulted f).winds (Part.faultReaches_chan meets)
    · rw [Part.faultReaches_unmet meets]
      exact sunk

theorem Channel.Unjogged.faultsReach (h : (p.chan c).Unjogged) (l : List FaultKind) : ((p.faultsReach c l).chan c).Unjogged :=
  Part.forEach_inv (P := fun q => (q.chan c).Unjogged) h fun q f _ unjogged => by
    by_cases meets : (q.chan c).Meets f
    · exact (unjogged.faulted f).winds (Part.faultReaches_chan meets)
    · rw [Part.faultReaches_unmet meets]
      exact unjogged

/-- R79: a group that a fault has stopped. -/
def Group.Failed (x : Group) : Prop := x.active = false ∧ x.fault.isSome = true

theorem Part.memberFault_failed (h : (p.group g).Failed) (i : Grp) (c : Chan) (k : FaultKind) :
    ((p.memberFault i c k).group g).Failed := by
  obtain ⟨inactive, fault⟩ := h
  have blamed : ((p.blamed i c k).group g).Failed := by
    by_cases same : g = i
    · subst same
      rw [Part.blamed_group]
      exact ⟨inactive, rfl⟩
    · unfold Part.blamed
      rw [Part.modGroup_group_ne _ _ _ _ same]
      exact ⟨inactive, fault⟩
  by_cases active : (p.group i).active = true
  · have stills : Part.Stills (p.blamed i c k) ((p.blamed i c k).stopGroup i .fault) := .stopGroup _ i (by decide)
    rw [Part.memberFault_active active, stills.groups g blamed.1]
    exact blamed
  · have rests := Bool.eq_false_iff.mpr active
    by_cases other : (p.group i).state = .stopping ∧ (p.group i).move.bind (·.reason) ≠ some .fault
    · rw [Part.memberFault_stopping other.1 other.2]
      by_cases same : g = i
      · subst same
        rw [Part.modGroup_group_self]
        exact blamed
      · rw [Part.modGroup_group_ne _ _ _ _ same]
        exact blamed
    · rw [Part.memberFault_other rests fun state => by_contra fun old => other ⟨state, old⟩]
      exact ⟨inactive, fault⟩

theorem Group.Failed.faultReaches (h : (p.group g).Failed) (k : FaultKind) : ((p.faultReaches c k).group g).Failed := by
  by_cases meets : (p.chan c).Meets k
  · have struck : ((p.struck c k).group g).Failed := by
      cases mover : (p.chan c).mover with
      | none =>
        rw [Part.struck_unmoved mover]
        exact h
      | jog l =>
        rw [Part.struck_jogged mover, (((p.entered c k).endJog_kept c).mono (cs := [.groups]) (by simp)).group]
        exact h
      | group i =>
        rw [Part.struck_grouped mover]
        exact Part.memberFault_failed (p := p.entered c k) h i c k
    rw [(Part.faultReaches_settles meets).groups.groups g struck.1]
    exact struck
  · rw [Part.faultReaches_unmet meets]
    exact h

theorem Group.Failed.faultsReach (h : (p.group g).Failed) (l : List FaultKind) : ((p.faultsReach c l).group g).Failed :=
  Part.forEach_inv (P := fun q => (q.group g).Failed) h fun _ k _ failed => failed.faultReaches k

/-- R79, R82: a group that goes on STOPPING for a member fault, and awaits the channel of that fault. -/
structure Part.Blamed (p : Part) (g : Grp) (c : Chan) (k : FaultKind) : Prop where
  down : (p.chan c).state = .stopping
  mover : (p.chan c).mover = .group g
  state : (p.group g).state = .stopping
  fault : (p.group g).fault = some (.memberFault c k)
  reason : (p.group g).move.bind (·.reason) = some .fault

theorem Part.Blamed.settles (h : Part.Blamed p g c k) (settles : Part.Settles p q) : Part.Blamed q g c k := by
  have same := settles.groups.groups g (by simp [Group.active, h.state])
  obtain ⟨state, mover⟩ := (settles.groups.pins c).pinned h.down (by rw [h.mover]; simp)
  exact ⟨state, mover.trans h.mover, by rw [same]; exact h.state, by rw [same]; exact h.fault, by rw [same]; exact h.reason⟩

theorem Part.Blamed.faultReaches (h : Part.Blamed p g c k) (f : FaultKind) : Part.Blamed (p.faultReaches c f) g c k := by
  by_cases meets : (p.chan c).Meets f
  · have entered : Part.Blamed (p.entered c f) g c k := by
      refine ⟨?_, ?_, h.state, h.fault, h.reason⟩
      · rw [Part.entered_chan, Channel.faulted_stopping h.down, Channel.enterFault_same]
        exact h.down
      · rw [Part.entered_chan, Channel.faulted_mover]
        exact h.mover
    have struck : p.struck c f = p.entered c f := by
      rw [Part.struck_grouped h.mover]
      exact Part.memberFault_other (by simp [Group.active, entered.state]) fun _ => entered.reason
    refine Part.Blamed.settles ?_ (Part.faultReaches_settles meets)
    rw [struck]
    exact entered
  · rw [Part.faultReaches_unmet meets]
    exact h

theorem Part.Blamed.faultsReach (h : Part.Blamed p g c k) (l : List FaultKind) : Part.Blamed (p.faultsReach c l) g c k :=
  Part.forEach_inv (P := fun q => Part.Blamed q g c k) h fun _ f _ blamed => blamed.faultReaches f

/-- R79: a kind other than STALL is a member fault of the group. -/
theorem Part.faultCause_member (other : k ≠ .stall) : p.faultCause g c k = .memberFault c k := by
  unfold Part.faultCause
  split
  · exact absurd rfl other
  · rfl

/-- R79, R81: the first fault of a channel of a moving or stopping group. -/
theorem Part.faultReaches_blamed (meets : (p.chan c).Meets k) (other : k ≠ .stall) (mover : (p.chan c).mover = .group g)
    (down : ((p.chan c).faulted k).state = .stopping) (lane : ∃ ln ∈ (p.group g).lanes, ln.channel = c) {m : MoveRecord}
    (move : (p.group g).move = some m)
    (state : (p.group g).active = true ∨ (p.group g).state = .stopping ∧ m.reason ≠ some .fault) :
    Part.Blamed (p.faultReaches c k) g c k := by
  refine Part.Blamed.settles ?_ (Part.faultReaches_settles meets)
  have cause : (p.entered c k).faultCause g c k = .memberFault c k := Part.faultCause_member other
  have here : (p.entered c k).chan c = (p.chan c).faulted k := Part.entered_chan ..
  have mover' : ((p.entered c k).chan c).mover = .group g := by rw [here, Channel.faulted_mover, mover]
  rw [Part.struck_grouped mover]
  rcases state with active | ⟨stopping, reason⟩
  · have active' : ((p.entered c k).group g).active = true := active
    obtain ⟨ln, mem, named⟩ := lane
    have under : ((p.entered c k).blamed g c k).Underway g := by
      refine ⟨ln, ?_, ?_⟩
      · rw [Part.blamed_group]
        exact mem
      · show ((p.entered c k).chan ln.channel).state ≠ .holding ∧ ((p.entered c k).chan ln.channel).state ≠ .faulted
        rw [named, here, down]
        decide
    have still : ((p.entered c k).blamed g c k).stopGroup g .fault = ((p.entered c k).blamed g c k).enterStopping g .fault :=
      Part.stopGroup_underway (by rw [Part.blamed_group]; exact active) under _
    have group : (((p.entered c k).blamed g c k).enterStopping g .fault).group g = _ :=
      (Part.enterStopping_group ..).trans (if_pos rfl)
    have chan := ((p.entered c k).blamed g c k).enterStopping_chan_in g .fault ln (by rw [Part.blamed_group]; exact mem)
    have blamed : ((p.entered c k).blamed g c k).chan ln.channel = (p.entered c k).chan ln.channel := rfl
    rw [blamed, named, here] at chan
    have pinned := (Channel.Pinned.stop ((p.chan c).faulted k)).pinned down (by rw [Channel.faulted_mover, mover]; simp)
    rw [Part.memberFault_active active', still]
    refine ⟨?_, ?_, ?_, ?_, ?_⟩
    · rw [chan]
      exact pinned.1
    · rw [chan, pinned.2, Channel.faulted_mover, mover]
    · rw [group]
    · rw [group, Part.blamed_group]
      exact congrArg some cause
    · rw [group, Part.blamed_group]
      show ((p.group g).move.map _).bind _ = _
      rw [move]
      rfl
  · have old : ((p.entered c k).group g).move.bind (·.reason) ≠ some .fault := by
      show (p.group g).move.bind _ ≠ _
      rw [move]
      exact reason
    rw [Part.memberFault_stopping (p := p.entered c k) stopping old]
    have group := ((p.entered c k).blamed g c k).modGroup_group_self g fun x =>
      { x with move := x.move.map fun m => { m with reason := some .fault } }
    rw [Part.blamed_group] at group
    refine ⟨?_, ?_, ?_, ?_, ?_⟩
    · show ((p.entered c k).chan c).state = _
      rw [here]
      exact down
    · exact mover'
    · rw [group]
      exact stopping
    · rw [group]
      exact congrArg some cause
    · rw [group]
      show ((p.group g).move.map _).bind _ = _
      rw [move]
      rfl

end Faults

end Sys2Proof.Machine
end

section
set_option Elab.async false
/-! PROOFS. Faults that a sample detects on channels that run, hold or run down (R17, R22, R23, R79, R92 to R98, R155). -/

namespace Sys2Proof.Machine

section Before
variable {p : Part} {c : Chan} {y : Sample} {g : Grp}

/-- R5: the judgements of a sample of a channel that is not STOPPING, as far as the limit of a jog. -/
def Part.advanced (p : Part) (c : Chan) : Part := ((p.modChan c Channel.quiet).judgeConfirm c).judgeJogLimit c

theorem Part.judged_advanced (moving : (p.chan c).state ≠ .stopping)
    (waits : ∀ g, (p.chan c).mover = .group g → (p.group g).state = .stopping → p.Underway g) :
    p.judged c = (p.advanced c).detect c := by
  unfold Part.judged Part.advanced
  rw [Part.judgeStandstill_waits moving waits]

theorem Part.confirmed_chan (p : Part) (c : Chan) : ((p.modChan c Channel.quiet).judgeConfirm c).chan c = (p.chan c).quiet.confirm := by
  rw [Part.judgeConfirm_chan, if_pos rfl, Part.modChan_chan_self]

/-- R11: a motion confirm changes the entries of a group's move, and no more of the group. -/
theorem Part.confirmed_group (p : Part) (c : Chan) (g : Grp) : ∃ f : MoveRecord → List LaneRecord,
    ((p.modChan c Channel.quiet).judgeConfirm c).group g
      = { p.group g with move := (p.group g).move.map fun m => { m with lanes := f m } } := by
  rw [Part.judgeConfirm_group]
  split
  · exact ⟨_, rfl⟩
  · refine ⟨fun m => m.lanes, ?_⟩
    rw [Part.modChan_group]
    cases move : (p.group g).move with
    | none =>
      rw [Option.map_none, ← move]
    | some m =>
      rw [Option.map_some, ← move]

end Before

theorem runningChannelFaultsAreDetected : Claims.RunningChannelFaultsAreDetected := by
  intro c y d s free there kind runs direction inside idle slack reversed stalled
  refine ⟨_, exec_feedbackArrival free c y, ?_⟩
  let x := (s.part.chan c).takeSample (deliver y)
  have taken : (s.part.sampled c y).chan c = x := Part.sampled_chan_self ..
  let w := x.quiet.confirm
  have onward : x.Onward w := x.quiet_onward.trans x.quiet.confirm_onward
  have live : w.live = true := by
    rw [onward.live]
    rcases runs with e | e <;> simp [Channel.live, x, Channel.takeSample, e]
  have chan := (s.part.sampled c y).confirmed_chan c
  have group := (s.part.sampled c y).confirmed_group c
  rw [taken] at chan
  have judged : (s.part.sampled c y).judged c
      = ((((s.part.sampled c y).modChan c Channel.quiet).judgeConfirm c).modChan c fun x => x.moveExtreme.moveProgress).faultsReach c
        w.detected := by
    have limit : (((s.part.sampled c y).modChan c Channel.quiet).judgeConfirm c).judgeJogLimit c
        = ((s.part.sampled c y).modChan c Channel.quiet).judgeConfirm c :=
      Part.judgeJogLimit_inside (by rw [chan]; exact Channel.calm_unlimited inside)
    rw [Part.judged_advanced, Part.advanced, limit, Part.detect_eq, chan]
    · rw [taken]
      exact fun same => by rcases runs with e | e <;> exact absurd (e.symm.trans same) (by decide)
    · intro g mover stopping
      rw [taken] at mover
      exact absurd stopping (idle g mover)
  have here : ((((s.part.sampled c y).modChan c Channel.quiet).judgeConfirm c).modChan c fun x => x.moveExtreme.moveProgress).chan c
      = w.moveExtreme.moveProgress := by rw [Part.modChan_chan_self, chan]
  have group' (g : Grp) : ((((s.part.sampled c y).modChan c Channel.quiet).judgeConfirm c).modChan c
      fun x => x.moveExtreme.moveProgress).group g = (((s.part.sampled c y).modChan c Channel.quiet).judgeConfirm c).group g := rfl
  rw [Part.sampleArrives_configured there kind, judged]
  generalize ((((s.part.sampled c y).modChan c Channel.quiet).judgeConfirm c).modChan c fun x => x.moveExtreme.moveProgress) = p at *
  have watched := w.watched_same
  have senses : x.Senses (p.chan c) := by
    rw [here]
    exact (Channel.Senses.of_fault (by
      unfold Channel.reading
      rw [onward.kind, onward.config, onward.raw, onward.load, onward.offset, onward.referenced, onward.upperOpen,
        onward.lowerOpen, onward.driveFault]) onward.fault).trans w.watched_senses
  have configured : (p.chan c).configured = true := by
    rw [senses.configured]
    simpa [Channel.configured, x, Channel.takeSample] using kind
  have fault : (p.chan c).fault = (s.part.chan c).fault := by
    rw [here, watched]
    exact onward.fault
  have mover : (p.chan c).mover = (s.part.chan c).mover := by
    rw [here, watched]
    exact onward.mover
  have state : (p.chan c).state = .starting ∨ (p.chan c).state = .moving := by
    rw [here, watched]
    simpa [Channel.live] using live
  have hasSlack (h : slack) : .slack ∈ w.detected := by
    refine Channel.detects_slack live ?_
    rw [onward.load, onward.config]
    exact h
  have hasReversed (h : reversed) : .reversed ∈ w.detected := by
    obtain ⟨e, extreme, back⟩ := h
    refine Channel.detects_reversed ?_
    have dir : w.direction = some d := onward.direction.trans direction
    have mark : w.reversalExtreme = some e := onward.reversalExtreme.trans extreme
    have raw : w.raw = y.raw := onward.raw
    have still : w.moveExtreme = w := by
      unfold Channel.moveExtreme
      rw [dir, mark]
      exact if_neg (by rw [raw]; omega)
    rw [still, Channel.reversed_eq dir mark, raw]
    exact decide_eq_true back
  have hasStall (h : stalled) : .stall ∈ w.detected := by
    obtain ⟨mark, moving, expired, marked, short⟩ := h
    have unconfirmed : w = x.quiet := Channel.confirm_stays (by
      rw [Channel.quiet_state]
      exact fun same => by cases moving.symm.trans same)
    have progressMark : x.quiet.progressMark = some mark := by
      unfold Channel.quiet
      split <;> exact marked
    refine Channel.detects_stall ?_ ?_
    · rw [unconfirmed, Channel.quiet_timer]
      exact expired
    · have dir : w.direction = some d := onward.direction.trans direction
      have raw : w.raw = y.raw := onward.raw
      unfold Channel.progressed
      rw [dir, unconfirmed, progressMark, ← unconfirmed, raw]
      exact decide_eq_false (by simp [Config.confirmMm]; omega)
  have holds {k : FaultKind} (mem : k ∈ w.detected) := Part.faultsReach_holds (p := p) configured mem
  have tells := (p.faultsReach c w.detected).watchLoad_tells c (s.part.chan c).watchBaseline
  have keeps {k : FaultKind} (h : ((p.faultsReach c w.detected).chan c).holdsFault k = true) :=
    (Channel.Senses.winds (.like (tells.like c))).holds k h
  dsimp only
  rw [Part.drive_chan, Part.drive_codes]
  refine ⟨fun h => keeps (holds (hasSlack h)), fun h => keeps (holds (hasReversed h)), fun h => keeps (holds (hasStall h)),
    fun some_ sound => ?_⟩
  have sound' : (p.chan c).fault = none := fault.trans sound
  obtain ⟨k, rest, list⟩ : ∃ k rest, w.detected = k :: rest := by
    have mem : ∃ k, k ∈ w.detected := by
      rcases some_ with h | h | h
      · exact ⟨_, hasSlack h⟩
      · exact ⟨_, hasReversed h⟩
      · exact ⟨_, hasStall h⟩
    obtain ⟨k, mem⟩ := mem
    exact List.exists_cons_of_ne_nil (List.ne_nil_of_mem mem)
  have meets : (p.chan c).Meets k := ⟨configured, by simp [Channel.holdsFault, sound']⟩
  have sunk : (p.chan c).Sunk ((p.faultsReach c w.detected).chan c) k := by
    rw [list, Part.faultsReach_cons]
    refine Channel.Sunk.faultsReach (Channel.Sunk.winds ?_ (Part.faultReaches_chan meets)) rest
    have moving : (p.chan c).state ≠ .stopping := by rcases state with e | e <;> simp [e]
    exact Channel.faulted_sunk sound' (by rcases state with e | e <;> simp [e]) (fun down => absurd down moving) id k
  have told : ∃ k, (p.faultsReach c w.detected).codes.faults[c] = some (.fault k) := by
    refine Part.faultsReach_told _ fun same => ?_
    have first := sunk.first
    rw [same, sound'] at first
    cases first
  have stopping : (((p.faultsReach c w.detected).watchLoad c (s.part.chan c).watchBaseline).chan c).state = .stopping :=
    (tells.like c).state.trans sunk.state
  have safe := Part.drive_safe (p := (p.faultsReach c w.detected).watchLoad c (s.part.chan c).watchBaseline) (c := c) (by
    simp [Channel.live, stopping])
  refine ⟨stopping, safe.1, safe.2, ?_, fun l jogged => ?_, fun g grouped active => ?_⟩
  · rw [tells.faults]
    exact told
  · have ended : ((p.faultsReach c w.detected).chan c).Unjogged := by
      rw [list, Part.faultsReach_cons]
      exact Channel.Unjogged.faultsReach (Part.faultReaches_jogged meets (mover.trans jogged)) rest
    have like := tells.like c
    unfold Channel.Like at like
    rw [like]
    exact ended
  · have active' : (p.group g).active = true := by
      obtain ⟨f, same⟩ := group g
      rw [group', same]
      exact active
    have failed : ((p.faultsReach c w.detected).group g).Failed := by
      obtain ⟨inactive, cause⟩ := Part.faultReaches_group meets (mover.trans grouped) active'
      rw [list, Part.faultsReach_cons]
      exact Group.Failed.faultsReach ⟨inactive, by rw [cause]; rfl⟩ rest
    rw [Part.drive_group, tells.groups]
    exact failed

end Sys2Proof.Machine
end

section
set_option Elab.async false
/-! PROOFS. FINAL_LIMIT, DRIVE_FAULT and OVERLOAD on channels that a jog or a group moves (R17, R22, R23, R79, R92 to R95, R155). -/

namespace Sys2Proof.Machine

/-! ### The judgements before the detection -/

/-- What the judgements before the detection leave: the fault records, and a device that is not HALTED. -/
structure Part.Precedes (p q : Part) : Prop where
  faults : ∀ c, (q.chan c).fault = (p.chan c).fault
  up : p.ctl.mode ≠ .halted → q.ctl.mode ≠ .halted

namespace Part.Precedes
variable {p q r : Part} {g : Grp}

theorem refl (p : Part) : Part.Precedes p p := ⟨fun _ => rfl, id⟩

theorem trans (h : Part.Precedes p q) (k : Part.Precedes q r) : Part.Precedes p r :=
  ⟨fun c => (k.faults c).trans (h.faults c), fun up => k.up (h.up up)⟩

theorem winds (h : Part.Winds p q) : Part.Precedes p q := ⟨fun c => (h.chans c).fault, h.up⟩

theorem modQueue (p : Part) (g : Grp) (f : CueQueue → CueQueue) : Part.Precedes p (p.modQueue g f) := ⟨fun _ => rfl, id⟩

theorem modGroup (p : Part) (g : Grp) (f : Group → Group) : Part.Precedes p (p.modGroup g f) := ⟨fun _ => rfl, id⟩

theorem modChan (p : Part) (c : Chan) {f : Channel → Channel} (fault : ∀ x : Channel, (f x).fault = x.fault) :
    Part.Precedes p (p.modChan c f) := by
  refine ⟨fun d => ?_, id⟩
  rw [Part.modChan_chan]
  split
  · next same => rw [same, fault]
  · rfl

theorem raise (p : Part) (pair : NoticePair) (e : Event) : Part.Precedes p (p.raise pair e) := by
  refine ⟨fun c => (Part.raise_like ..).fault, fun up => ?_⟩
  by_cases wakes : p.Wakes pair e
  · rw [Part.raise_wakes wakes, Part.changeMode_ctl, ModeCtl.setPower_mode]
    exact fun same => by cases same
  · rw [Part.raise_sleeps wakes, Part.post_ctl]
    exact up

theorem startMove (p : Part) (g : Grp) (tier : Nat) (l : Link) (src : MoveSource) (v : Option Nat) (plan : List (Int × Nat)) :
    Part.Precedes p (p.startMove g tier l src v plan) := by
  have reserved (r : LaneRecord) (x : Channel) : (reserveChannel g r x).fault = x.fault := by
    unfold reserveChannel
    dsimp only
    split
    · rfl
    · exact (Channel.armWatch_steered true _).fault.trans (Channel.start_steered ..).fault
  exact (modGroup p g _).trans
    (Part.forEach_inv (P := fun q => Part.Precedes _ q) (refl _) fun q lr _ h => h.trans (modChan q lr.1.channel (reserved lr.2)))

theorem arm (p : Part) (occ : Occasion) (g : Grp) : Part.Precedes p (p.arm occ g) :=
  Part.arm_induction refl trans (fun q => modQueue q g) (fun q f e => (modQueue q g f).trans (raise _ _ e))
    (fun q => startMove q g) (fun q _ => ((winds (.clearLanes q g)).trans (modGroup _ g _)).trans (raise _ _ _)) p occ

theorem exitStopping (p : Part) (g : Grp) : Part.Precedes p (p.exitStopping g) := by
  have told (q : Part) (m : MoveRecord) : Part.Precedes q (q.tellEnd g m) := by
    unfold Part.tellEnd
    split
    · exact winds (.moveEnded ..)
    · split
      · exact arm ..
      · exact refl q
  unfold Part.exitStopping
  split
  · split
    · exact (winds (.exitCore p g)).trans (told ..)
    · exact refl p
  · exact refl p

theorem judgeStandstill (p : Part) (c : Chan) : Part.Precedes p (p.judgeStandstill c) := by
  have stood := modChan p c fun x => x.standstill_same.2
  unfold Part.judgeStandstill Part.tellMover
  split
  · split
    · exact stood.trans (exitStopping ..)
    · exact stood
    · exact stood
  · exact refl p

theorem judgeConfirm (p : Part) (c : Chan) : Part.Precedes p (p.judgeConfirm c) := by
  have moved := modChan p c (f := Channel.toMoving) fun _ => (Channel.syncWatch_steered _).fault
  unfold Part.judgeConfirm
  split
  · dsimp only
    split
    · exact moved.trans (modGroup ..)
    · exact moved
    · exact moved
  · exact refl p

theorem judgeJogLimit (p : Part) (c : Chan) : Part.Precedes p (p.judgeJogLimit c) := by
  rw [Part.judgeJogLimit_eq]
  split
  · exact winds (.endJog p c)
  · exact refl p

end Part.Precedes

/-! ### A channel that moves, holds or runs down -/

/-- A moved channel before and after the judgements before the detection. -/
structure Channel.Advanced (x v : Channel) : Prop where
  state : v.state = .starting ∨ v.state = .moving ∨ v.state = .holding ∨ v.state = .stopping
  down : v.state = .stopping → (x.state ≠ .stopping → v.direction = none ∧ v.history = [] ∧ v.standstillTimer = some 2000)
    ∧ (x.state = .stopping → v.standstillTimer = x.standstillTimer)
  goes : x.state = .stopping → v.state = .stopping
  mover : v.mover = x.mover ∧ v.jog = x.jog ∨ v.Unjogged ∧ x.jog ≠ none

namespace Channel.Advanced
variable {x v : Channel}

theorem watched (h : x.Advanced v) : x.Advanced v.moveExtreme.moveProgress := by
  rw [v.watched_same]
  exact ⟨h.state, h.down, h.goes, h.mover⟩

/-- R5 step 4: as far as motion confirm. -/
theorem confirmed (moves : x.state = .starting ∨ x.state = .moving ∨ x.state = .holding ∨ x.state = .stopping) :
    x.Advanced x.quiet.confirm := by
  have onward := x.quiet_onward.trans x.quiet.confirm_onward
  have rests (e : x.live = false) : x.quiet.confirm = x.quiet := Channel.confirm_stays fun starting => by
    rw [Channel.quiet_state] at starting
    simp [Channel.live, starting] at e
  have timer : x.quiet.standstillTimer = x.standstillTimer := by
    unfold Channel.quiet
    split <;> rfl
  have live := onward.live
  have stays := onward.stays
  refine ⟨?_, fun down => ?_, fun stopping => ?_, .inl ⟨onward.mover, onward.jog⟩⟩
  · cases runs : x.live with
    | false =>
      rw [stays runs]
      exact moves
    | true =>
      rw [runs] at live
      simp only [Channel.live, Bool.or_eq_true, beq_iff_eq] at live
      exact live.elim .inl fun moving => .inr (.inl moving)
  · have idle : x.live = false := by
      rw [← live]
      simp [Channel.live, down]
    refine ⟨fun moving => absurd ((stays idle).symm.trans down) moving, fun _ => ?_⟩
    rw [rests idle, timer]
  · rw [stays (by simp [Channel.live, stopping]), stopping]

/-- R22, R23: the limit of a jog ends it. -/
theorem limited (h : x.Advanced v) (jogs : x.jog ≠ none) (unheld : v.state ≠ .holding) : x.Advanced v.stop.dropMover := by
  have ended : v.stop.dropMover.Unjogged := ⟨by simp, by simp⟩
  rw [Channel.dropMover_eq, Channel.stop_eq] at ended ⊢
  unfold Channel.afterStop at ended ⊢
  by_cases live : v.state = .starting ∨ v.state = .moving
  · rw [if_pos live] at ended ⊢
    refine ⟨.inr (.inr (.inr rfl)), fun _ => ⟨fun _ => ⟨rfl, rfl, rfl⟩, fun stopping => ?_⟩, fun _ => rfl, .inr ⟨ended, jogs⟩⟩
    rw [h.goes stopping] at live
    exact absurd live (by decide)
  · have stopping : v.state = .stopping := by
      rcases h.state with e | e | e | e
      · exact absurd (.inl e) live
      · exact absurd (.inr e) live
      · exact absurd e unheld
      · exact e
    rw [if_neg live, if_pos stopping] at ended ⊢
    have state : (if v.state = .holding then ChannelState.idle else v.state) = .stopping := by rw [if_neg unheld, stopping]
    exact ⟨.inr (.inr (.inr state)), fun _ => h.down stopping, fun _ => state, .inr ⟨ended, jogs⟩⟩

end Channel.Advanced

section Before
variable {p : Part} {c : Chan}

/-- R5: a channel whose history shows no standstill, as far as the limit of a jog. -/
theorem Part.judgeStandstill_moves (moves : atStandstill (p.chan c).history = false) :
    p.judgeStandstill c = p.modChan c Channel.quiet := by
  unfold Part.judgeStandstill
  rw [if_neg (by simp [moves]), Part.modChan_self]
  unfold Channel.quiet
  exact if_neg (by simp [moves])

/-- R5: the part after the judgements before the detection. -/
theorem Part.advanced_chan (moves : (p.chan c).state = .starting ∨ (p.chan c).state = .moving ∨ (p.chan c).state = .holding
      ∨ (p.chan c).state = .stopping) (held : (p.chan c).jog ≠ none → (p.chan c).state ≠ .holding) :
    (p.chan c).Advanced ((p.advanced c).chan c) := by
  have confirmed := Channel.Advanced.confirmed moves
  have onward := (p.chan c).quiet_onward.trans (p.chan c).quiet.confirm_onward
  unfold Part.advanced
  rw [Part.judgeJogLimit_eq, Part.confirmed_chan]
  split
  · next limited =>
    have jogs : (p.chan c).jog ≠ none := fun unjogged => by
      rw [Channel.jogLimited_unjogged (onward.jog.trans unjogged)] at limited
      cases limited
    rw [Part.endJog_chan, if_pos rfl, Part.confirmed_chan]
    refine confirmed.limited jogs fun holding => held jogs ?_
    rw [← onward.stays, holding]
    rw [← onward.live]
    simp [Channel.live, holding]
  · rw [Part.confirmed_chan]
    exact confirmed

theorem Part.advanced_group (p : Part) (c : Chan) (g : Grp) : ∃ f : MoveRecord → List LaneRecord,
    (p.advanced c).group g = { p.group g with move := (p.group g).move.map fun m => { m with lanes := f m } } := by
  have confirmed := p.confirmed_group c g
  unfold Part.advanced
  rw [Part.judgeJogLimit_eq]
  split
  · rw [((Part.endJog_kept _ c).mono (cs := [.groups]) (by simp)).group]
    exact confirmed
  · exact confirmed

end Before

/-- R5 step 3, on a sample of a channel that does not end its STOPPING. -/
theorem Part.judgeStandstill_runs {p : Part} {c : Chan} {y : Sample}
    (moves : (p.chan c).state ∈ [ChannelState.starting, .moving, .holding] ∨ (p.chan c).state = .stopping
      ∧ ¬∃ a b, (p.chan c).history.take 2 = [a, b] ∧ max y.raw (max a b) - min y.raw (min a b) ≤ 2)
    (waits : ∀ g, (p.chan c).mover = .group g → (p.group g).state = .stopping → p.Underway g) :
    (p.sampled c y).judgeStandstill c = (p.sampled c y).modChan c Channel.quiet := by
  have taken : (p.sampled c y).chan c = (p.chan c).takeSample (deliver y) := Part.sampled_chan_self ..
  rcases moves with runs | ⟨-, moving⟩
  · refine Part.judgeStandstill_waits ?_ fun g mover stopping => ?_
    · rw [taken]
      exact fun stopping => absurd (stopping ▸ runs : ChannelState.stopping ∈ _) (by decide)
    · rw [taken] at mover
      obtain ⟨ln, lane, unheld, unfaulted⟩ := waits g mover stopping
      have state : ((p.sampled c y).chan ln.channel).state = (p.chan ln.channel).state := by
        by_cases same : ln.channel = c
        · rw [same, taken]
          rfl
        · rw [Part.sampled_chan_ne same]
      exact ⟨ln, lane, by rw [state]; exact unheld, by rw [state]; exact unfaulted⟩
  · refine Part.judgeStandstill_moves (Bool.eq_false_iff.mpr fun stands => moving ?_)
    rw [taken, atStandstill_iff] at stands
    obtain ⟨i, j, k, history, near⟩ := stands
    have shape : (y.raw :: (p.chan c).history).take 3 = [i, j, k] := history
    rw [List.take_succ_cons] at shape
    obtain ⟨rfl, rest⟩ := List.cons.inj shape
    exact ⟨j, k, rest, near⟩

/-! ### The first fault of a moved channel, and those after it -/

section First
variable {p : Part} {c : Chan} {g : Grp} {k : FaultKind} {x : Channel}

theorem Channel.Advanced.faulted (h : x.Advanced (p.chan c)) (sound : (p.chan c).fault = none) (k : FaultKind) :
    x.Sunk ((p.chan c).faulted k) k :=
  Channel.faulted_sunk sound h.state h.down (fun running stopping => running (h.goes stopping)) k

theorem Channel.Advanced.sunk (h : x.Advanced (p.chan c)) (meets : (p.chan c).Meets k) (sound : (p.chan c).fault = none)
    (rest : List FaultKind) : x.Sunk ((p.faultsReach c (k :: rest)).chan c) k := by
  rw [Part.faultsReach_cons]
  exact Channel.Sunk.faultsReach ((h.faulted sound k).winds (Part.faultReaches_chan meets)) rest

theorem Channel.Advanced.told (h : x.Advanced (p.chan c)) (meets : (p.chan c).Meets k) (sound : (p.chan c).fault = none)
    (rest : List FaultKind) : ∃ f, (p.faultsReach c (k :: rest)).codes.faults[c] = some (.fault f) := by
  refine Part.faultsReach_told _ fun same => ?_
  have recorded := (h.sunk meets sound rest).first
  rw [same, sound] at recorded
  cases recorded

theorem Part.faultsReach_unjogged (meets : (p.chan c).Meets k) (rest : List FaultKind)
    (unjogged : (p.chan c).Unjogged ∨ ∃ l, (p.chan c).mover = .jog l) : ((p.faultsReach c (k :: rest)).chan c).Unjogged := by
  rw [Part.faultsReach_cons]
  refine Channel.Unjogged.faultsReach ?_ rest
  rcases unjogged with unjogged | ⟨l, jogged⟩
  · exact (unjogged.faulted k).winds (Part.faultReaches_chan meets)
  · exact Part.faultReaches_jogged meets jogged

theorem Channel.Advanced.blamed (h : x.Advanced (p.chan c)) (meets : (p.chan c).Meets k) (sound : (p.chan c).fault = none)
    (other : k ≠ .stall) (mover : (p.chan c).mover = .group g) (lane : ∃ ln ∈ (p.group g).lanes, ln.channel = c) {m : MoveRecord}
    (move : (p.group g).move = some m)
    (state : (p.group g).active = true ∨ (p.group g).state = .stopping ∧ m.reason ≠ some .fault) (rest : List FaultKind) :
    Part.Blamed (p.faultsReach c (k :: rest)) g c k := by
  rw [Part.faultsReach_cons]
  exact Part.Blamed.faultsReach (Part.faultReaches_blamed meets other mover (h.faulted sound k).state lane move state) rest

end First

/-! ### The claim -/

theorem movedChannelFaultsAreDetected : Claims.MovedChannelFaultsAreDetected := by
  intro c y s free there kind x₀ limit heavy first still
  refine ⟨_, exec_feedbackArrival free c y, ?_⟩
  let x := x₀.takeSample (deliver y)
  have taken : (s.part.sampled c y).chan c = x := Part.sampled_chan_self ..
  let b := (((s.part.sampled c y).judgeStandstill c).judgeConfirm c).judgeJogLimit c
  have judges : Part.Judges (s.part.sampled c y) b :=
    ((Part.Judges.judgeStandstill _ c).trans (.judgeConfirm _ c)).trans (.judgeJogLimit _ c)
  have precedes : Part.Precedes (s.part.sampled c y) b :=
    ((Part.Precedes.judgeStandstill _ c).trans (.judgeConfirm _ c)).trans (.judgeJogLimit _ c)
  let p := b.modChan c fun x => x.moveExtreme.moveProgress
  have here : p.chan c = (b.chan c).moveExtreme.moveProgress := Part.modChan_chan_self ..
  have before : x.Senses (b.chan c) := taken ▸ judges.chans c
  have senses : x.Senses (p.chan c) := by
    rw [here]
    exact before.trans (b.chan c).watched_senses
  have fault : (p.chan c).fault = x₀.fault := by
    rw [here, (b.chan c).watched_same]
    refine (precedes.faults c).trans ?_
    rw [taken]
    rfl
  have up : s.part.ctl.mode ≠ .halted → p.ctl.mode ≠ .halted := fun off => precedes.up (by rw [Part.sampled_ctl]; exact off)
  have configured : (p.chan c).configured = true := by
    rw [senses.configured]
    simpa [Channel.configured, x, Channel.takeSample] using kind
  have judged : (s.part.sampled c y).judged c = p.faultsReach c (b.chan c).detected := Part.detect_eq b c
  have limits : (b.chan c).upperOpen = true ∨ (b.chan c).lowerOpen = true ↔ limit := by
    rw [before.upperOpen, before.lowerOpen]
    exact Iff.rfl
  have drives : (b.chan c).driveFault = true ↔ y.driveFault = true := by
    rw [before.driveFault]
    exact Iff.rfl
  have loads : (b.chan c).overloaded = true ↔ heavy := by
    unfold Channel.overloaded
    rw [before.config, before.load]
    exact decide_eq_true_iff
  have holds {k : FaultKind} (mem : k ∈ (b.chan c).detected) := Part.faultsReach_holds (p := p) configured mem
  have tells := (p.faultsReach c (b.chan c).detected).watchLoad_tells c x₀.watchBaseline
  have keeps {k : FaultKind} (h : ((p.faultsReach c (b.chan c).detected).chan c).holdsFault k = true) :=
    (Channel.Senses.winds (.like (tells.like c))).holds k h
  rw [Part.sampleArrives_configured there kind, judged]
  dsimp only
  rw [Part.drive_chan, Part.drive_codes, Part.drive_ctl]
  refine ⟨fun h => keeps (holds (Channel.detects_limit (limits.mpr h))), fun h => keeps (holds (Channel.detects_drive (drives.mpr h))),
    fun h => keeps (holds (Channel.detects_overload (decide_eq_true_iff.mp (loads.mpr h)))), fun h new => ?_,
    fun some_ sound moves jogs waits => ?_⟩
  · have new' : (p.chan c).holdsFault .finalLimit = false := by
      unfold Channel.holdsFault at new ⊢
      rw [fault]
      exact new
    obtain ⟨moded, mode⟩ := (Part.Moded.up id fun _ _ => rfl : Part.Moded p p c).halts rfl configured new'
      (Channel.detects_limit (limits.mpr h))
    obtain ⟨ctl, code⟩ := tells.mode (by rw [mode]; decide)
    rw [ctl, code]
    refine ⟨mode, fun off => ?_⟩
    cases moded with
    | halted _ fell =>
      obtain ⟨power, old, told, -⟩ := fell (up off)
      exact ⟨power, old, told⟩
    | up stays _ => exact absurd mode (stays (up off))
  · have head : ∃ rest, (b.chan c).detected = first :: rest := by
      obtain ⟨rest, list⟩ := Channel.detected_head (x := b.chan c) (by
        rw [← or_assoc, limits, drives, loads]
        exact some_)
      exact ⟨rest, list.trans (congrArg (· :: rest) (if_congr limits rfl (if_congr drives rfl rfl)))⟩
    have quiet := Part.judgeStandstill_runs moves waits
    have advanced : x.Advanced (p.chan c) := by
      rw [here]
      refine Channel.Advanced.watched ?_
      have chan := (s.part.sampled c y).advanced_chan (c := c)
      unfold Part.advanced at chan
      rw [← quiet, taken] at chan
      refine chan ?_ fun jogged holding => ?_
      · rcases moves with runs | ⟨stopping, -⟩
        · have state : x₀.state = .starting ∨ x₀.state = .moving ∨ x₀.state = .holding := by simpa using runs
          exact state.imp_right (Or.imp_right .inl)
        · exact .inr (.inr (.inr stopping))
      · exact jogs.elim jogged fun both => both.2 holding
    have group (g : Grp) : ∃ f : MoveRecord → List LaneRecord,
        p.group g = { s.part.group g with move := (s.part.group g).move.map fun m => { m with lanes := f m } } := by
      have group := (s.part.sampled c y).advanced_group c g
      unfold Part.advanced at group
      rwa [← quiet, Part.sampled_group] at group
    clear_value p b
    obtain ⟨rest, list⟩ := head
    rw [list]
    clear tells keeps holds judged
    have tells := (p.faultsReach c (first :: rest)).watchLoad_tells c x₀.watchBaseline
    have sound' : (p.chan c).fault = none := fault.trans sound
    have meets : (p.chan c).Meets first := ⟨configured, by simp [Channel.holdsFault, sound']⟩
    have sunk := advanced.sunk meets sound' rest
    have told := advanced.told meets sound' rest
    have ended := Part.faultsReach_unjogged meets rest
    have blamed (g : Grp) (m : MoveRecord) (grouped : x₀.mover = .group g) (lane : ∃ ln ∈ (s.part.group g).lanes, ln.channel = c)
        (move : (s.part.group g).move = some m)
        (state : (s.part.group g).active = true ∨ (s.part.group g).state = .stopping ∧ m.reason ≠ some .fault) :
        Part.Blamed (p.faultsReach c (first :: rest)) g c first := by
      obtain ⟨f, same⟩ := group g
      have mover : (p.chan c).mover = .group g := by
        rcases advanced.mover with ⟨mover, -⟩ | ⟨-, jogged⟩
        · exact mover.trans grouped
        · rcases jogs with unjogged | ⟨⟨l, jog⟩, -⟩
          · exact absurd unjogged jogged
          · cases grouped.symm.trans jog
      refine advanced.blamed (m := { m with lanes := f m }) meets sound' ?_ mover ?_ ?_ ?_ rest
      · show (if limit then FaultKind.finalLimit else if y.driveFault then .driveFault else .overload) ≠ .stall
        split
        · decide
        · split <;> decide
      · rw [same]
        exact lane
      · rw [same, move]
        rfl
      · rw [same]
        exact state
    generalize p.faultsReach c (first :: rest) = d at *
    generalize d.watchLoad c x₀.watchBaseline = q at *
    have like := tells.like c
    have safe := Part.drive_safe (p := q) (c := c) (by simp [Channel.live, like.state, sunk.state])
    unfold Channel.Like at like
    rw [like]
    refine ⟨sunk.state, sunk.first, sunk.release, sunk.stopped, sunk.timer, safe.1, safe.2, ?_, fun l jogged => ?_,
      fun g m grouped lane move state => ?_⟩
    · rw [tells.faults]
      exact told
    · refine ended ?_
      rcases advanced.mover with ⟨mover, -⟩ | ⟨unjogged, -⟩
      · exact .inr ⟨l, mover.trans jogged⟩
      · exact .inl unjogged
    · have blamed := blamed g m grouped lane move state
      rw [Part.drive_group, tells.groups]
      exact ⟨blamed.mover, blamed.state, blamed.fault, blamed.reason⟩

/-- Settles O39: a sample's faults reach the record by the branch of the channel's state, its mover and its group. -/
theorem sampleFaultIsRecorded : Obligations.SampleFaultIsRecorded :=
  ⟨sampleFaultAtRestIsRecorded, runawayAtRestHalts, runningChannelFaultsAreDetected, movedChannelFaultsAreDetected,
    progressMovesTheMark⟩

end Sys2Proof.Machine
end

section
set_option Elab.async false
/-! PROOFS. STOP (R81, R86, R121). -/

namespace Sys2Proof.Machine

section Stop
variable {p : Part} {g : Grp} {c : Chan}

theorem groupsOf_bytes (gs : List Grp) (nodup : gs.Nodup) : groupsOf (gs.map fun g => byteOf g.val) = some gs := by
  induction gs with
  | nil => rfl
  | cons g gs ih =>
    rw [List.nodup_cons] at nodup
    rw [List.map_cons, groupsOf, grpOf_byteOf, ih nodup.2]
    exact if_neg (by simpa using nodup.1)

/-- R86: a STOP of groups named once each, as its judge answers it; with none named, of all. -/
theorem judgeStop_names (l : Link) (tier : Nat) (p : Part) {gs : List Grp} (nodup : gs.Nodup) :
    judgeStop l tier (byteOf gs.length :: gs.map fun g => byteOf g.val) p
      = .accepted [] (p.forEach (if gs = [] then allGroups else gs) Part.stopRequest) := by
  have few : gs.length ≤ 8 := by simpa using nodup.length_le_card
  have count : (byteOf gs.length).toNat = gs.length := byteOf_toNat (by omega)
  unfold judgeStop
  dsimp only
  rw [count, groupsOf_bytes gs nodup]
  unfold refuseIf
  rw [if_neg (by simpa using few)]
  simp only [List.length_eq_zero_iff]

/-- R86: the steps of a STOP. A moving group ends its move, and the queue of an IDLE one is disarmed. -/
theorem Part.stopRequest_idle (idle : (p.group g).state = .idle) : p.stopRequest g = p.modQueue g CueQueue.stopped := if_pos idle

theorem Part.stopRequest_busy (busy : (p.group g).state ≠ .idle) : p.stopRequest g = p.stopGroup g .request := if_neg busy

/-- What a STOP leaves of the part, group by group. -/
structure Part.Stopped (p q : Part) : Prop where
  stills : Part.Stills p q
  kept : Kept p q [.samples, .clock]
  ctl : p.ctl.mode ≠ .parked → p.ctl.silenceDisarm = false → q.ctl = p.ctl

theorem Part.Stopped.trans {q r : Part} (h : Part.Stopped p q) (k : Part.Stopped q r) : Part.Stopped p r := by
  refine ⟨h.stills.trans k.stills, h.kept.trans k.kept, fun awake clear => ?_⟩
  have same := h.ctl awake clear
  rw [k.ctl (by rw [same]; exact awake) (by rw [same]; exact clear), same]

theorem Part.stopRequest_stopped (p : Part) (g : Grp) : Part.Stopped p (p.stopRequest g) := by
  by_cases idle : (p.group g).state = .idle
  · have kept := p.modQueue_kept g CueQueue.stopped
    rw [Part.stopRequest_idle idle]
    exact ⟨.of_chans (kept.mono (by simp)), kept.mono (by simp), fun _ _ => kept .ctl (by simp)⟩
  · have winds : Part.Winds p (p.stopGroup g .request) := .stopGroup p g (by decide)
    rw [Part.stopRequest_busy idle]
    exact ⟨.stopGroup p g (by decide), winds.kept.mono (by simp), fun awake clear => (winds.ctl awake (.inr clear)).1⟩

theorem Part.stopRequests_stopped (p : Part) (l : List Grp) : Part.Stopped p (p.forEach l Part.stopRequest) :=
  Part.forEach_inv (P := fun q => Part.Stopped p q) ⟨.refl p, .refl _ _, fun _ _ => rfl⟩
    fun q g _ h => h.trans (q.stopRequest_stopped g)

theorem Part.stopRequest_active (p : Part) (g : Grp) : ((p.stopRequest g).group g).active = false := by
  by_cases idle : (p.group g).state = .idle
  · rw [Part.stopRequest_idle idle, Part.modQueue_group]
    simp [Group.active, idle]
  · rw [Part.stopRequest_busy idle]
    exact Part.Stills.stopGroup_active p g (by decide)

/-- R86: the queue of an IDLE group takes the stop; no other stop reaches a queue. -/
theorem Part.stopRequest_queue (p : Part) (g h : Grp) : (p.stopRequest g).queue h =
    if h = g ∧ (p.group g).state = .idle then (p.queue g).stopped else p.queue h := by
  by_cases idle : (p.group g).state = .idle
  · rw [Part.stopRequest_idle idle, Part.modQueue_queue]
    by_cases same : h = g
    · rw [if_pos same, if_pos ⟨same, idle⟩, same]
    · rw [if_neg same, if_neg fun both => same both.1]
  · have winds : Part.Winds p (p.stopGroup g .request) := .stopGroup p g (by decide)
    rw [Part.stopRequest_busy idle, if_neg fun both => idle both.2]
    exact (winds.kept.mono (by simp)).queue h

/-- R86: the stops before and after a group's own leave its queue. -/
theorem Part.stopRequests_queue_out {l : List Grp} (out : g ∉ l) (p : Part) : (p.forEach l Part.stopRequest).queue g = p.queue g :=
  Part.forEach_keeps (fun q => q.queue g) _ _ fun q h mem => by
    rw [Part.stopRequest_queue, if_neg]
    rintro ⟨rfl, -⟩
    exact out mem

/-- R86, R121: each group named once. -/
theorem Part.stopRequests_named {l : List Grp} (nodup : l.Nodup) (mem : g ∈ l) (p : Part) :
    ((p.forEach l Part.stopRequest).group g).active = false
      ∧ ((p.group g).state = .idle → (p.forEach l Part.stopRequest).group g = p.group g
        ∧ (p.forEach l Part.stopRequest).queue g = (p.queue g).stopped) := by
  obtain ⟨a, b, rfl⟩ := List.append_of_mem mem
  have apart := List.nodup_middle.mp nodup
  rw [List.nodup_cons, List.mem_append, not_or] at apart
  obtain ⟨⟨before, after⟩, -⟩ := apart
  rw [Part.forEach_append, Part.forEach_cons]
  have first := p.stopRequests_stopped a
  generalize hq : p.forEach a Part.stopRequest = q at *
  have queue : q.queue g = p.queue g := by
    rw [← hq]
    exact Part.stopRequests_queue_out before p
  have rest := (q.stopRequest g).stopRequests_stopped b
  have stops := q.stopRequest_active g
  refine ⟨rest.stills.active stops, fun idle => ⟨?_, ?_⟩⟩
  · have inactive : (p.group g).active = false := by simp [Group.active, idle]
    have here := first.stills.groups g inactive
    rw [rest.stills.groups g stops, (q.stopRequest_stopped g).stills.groups g (by rw [here]; exact inactive), here]
  · have inactive : (p.group g).active = false := by simp [Group.active, idle]
    have here := first.stills.groups g inactive
    rw [Part.stopRequests_queue_out after, Part.stopRequest_queue, if_pos ⟨rfl, by rw [here]; exact idle⟩, queue]

theorem CueQueue.stopped_eq (q : CueQueue) : q.stopped = if q.arming = .none then q
    else { cues := q.cues, blocked := !q.cues.isEmpty, arming := .none, dwellTimer := none } := rfl

end Stop

theorem stopStopsAMovingGroup : Claims.StopStopsAMovingGroup := by
  intro l tier g m s ready low moves move underway
  have active : ((s.part.frameTaken l).group g).active = true := by
    rw [Part.frameTaken_group]
    rcases moves with e | e <;> simp [Group.active, e]
  have under : (s.part.frameTaken l).Underway g := by
    simpa only [Part.Underway, Part.frameTaken_group, Part.frameTaken_chan] using underway
  have stop : (s.part.frameTaken l).stopRequest g = (s.part.frameTaken l).enterStopping g .request := by
    rw [Part.stopRequest_busy, Part.stopGroup_underway active under]
    rw [Part.frameTaken_group]
    rcases moves with e | e <;> simp [e]
  have judged : judgeStop l (s.part.effectiveTier l tier) [1, byteOf g.val] (s.part.frameTaken l)
      = .accepted [] ((s.part.frameTaken l).enterStopping g .request) := by
    rw [← stop]
    exact judgeStop_names l _ _ (List.nodup_singleton g)
  refine ⟨_, rfl, ?_⟩
  dsimp only
  rw [Part.judged_driven_accepts ready (by simp) rfl low judged]
  have kept := (s.part.frameTaken l).enterStopping_kept g .request
  have out := (s.part.frameTaken l).enterStopping_chan_out g .request
  have mem := (s.part.frameTaken l).enterStopping_chan_in g .request
  have group := (s.part.frameTaken l).enterStopping_group g
  simp only [Part.frameTaken_group, Part.frameTaken_chan, Channel.stop_eq] at out mem group
  have group := fun h => group h .request
  generalize (s.part.frameTaken l).enterStopping g .request = q at *
  refine ⟨Part.answers_of_kept (kept.mono (by simp)).drive .., ?_, fun ln lane => ⟨fun runs => ?_, fun stopping => ?_, fun holds => ?_⟩,
    Part.Alone.answer ⟨fun h other => (group h).trans (if_neg other), fun c outside => out c outside⟩ ..⟩
  · rw [Part.answer_group, Part.drive_group, group g, if_pos rfl, move]
    rfl
  · have stopped : q.chan ln.channel = (s.part.chan ln.channel).stopped := (mem ln lane).trans (if_pos runs)
    obtain ⟨brake, run⟩ := Part.drive_safe (p := q) (c := ln.channel) (by rw [stopped]; rfl)
    rw [Part.answer_chan, Part.drive_chan, Part.answer_port]
    exact ⟨stopped, brake, run⟩
  · rw [Part.answer_chan, Part.drive_chan, mem ln lane, Channel.afterStop, if_neg (by simp [stopping]), if_pos stopping]
  · rw [Part.answer_chan, Part.drive_chan, mem ln lane, Channel.afterStop, if_neg (by simp [holds]), if_neg (by simp [holds])]

theorem stopReachesEveryNamedGroup : Claims.StopReachesEveryNamedGroup := by
  intro l tier gs s ready low nodup
  have judged := judgeStop_names l (s.part.effectiveTier l tier) (s.part.frameTaken l) nodup
  have short : (byteOf gs.length :: gs.map fun g => byteOf g.val).length ≤ 240 := by
    have few : gs.length ≤ 8 := by simpa using nodup.length_le_card
    simp
    omega
  have fit : countedLength 0 1 1 (byteOf gs.length :: gs.map fun g => byteOf g.val) = true := by
    have few : gs.length ≤ 8 := by simpa using nodup.length_le_card
    refine (countedLength_iff ..).mpr ⟨_, rfl, ?_⟩
    rw [byteOf_toNat (by omega), List.length_cons, List.length_map]
    omega
  refine ⟨_, rfl, ?_⟩
  dsimp only
  rw [Part.judged_driven_accepts ready short fit low judged]
  let named := if gs = [] then allGroups else gs
  have distinct : named.Nodup := by
    show (if gs = [] then allGroups else gs).Nodup
    split
    · exact allGroups_nodup
    · exact nodup
  have stopped := (s.part.frameTaken l).stopRequests_stopped named
  have frame : Kept s.part (s.part.frameTaken l) [.samples, .clock] := by simp [Kept, Block.Kept]
  refine ⟨Part.answer_accepted .., (frame.trans stopped.kept).drive.answer _ _ _ _ _, fun awake => ?_, fun g mem => ?_⟩
  · have ctl := stopped.ctl (by simpa using awake) (by simp)
    have taken : Kept s.part ((s.part.frameTaken l).forEach named Part.stopRequest) [.taken] := by
      simp [Kept, Block.Kept, ctl]
    exact taken.drive.answer _ _ _ _ _
  · have inside : g ∈ named := by
      show g ∈ if gs = [] then allGroups else gs
      split
      · exact mem_allGroups g
      · next some_ => exact mem.resolve_right some_
    obtain ⟨rests, idles⟩ := Part.stopRequests_named distinct inside (s.part.frameTaken l)
    rw [Part.frameTaken_group, Part.frameTaken_queue] at idles
    rw [Part.answer_group, Part.drive_group, Part.answer_queue, Part.drive_queue]
    exact ⟨rests, idles⟩

/-- Settles O43: a STOP stops every group that it names. -/
theorem stopStopsTheNamedGroups : Obligations.StopStopsTheNamedGroups := ⟨stopStopsAMovingGroup, stopReachesEveryNamedGroup⟩

end Sys2Proof.Machine
end

section
set_option Elab.async false
/-! PROOFS. A millisecond with no command waiting (R129, R178; logs 3 to 5). -/

namespace Sys2Proof.Machine

/-! ### The loops over the records -/

/-- The loop over the channels and their drive ports. -/
def Part.tickChannels (p : Part) : Part := p.forEach allChans fun p c => (p.modChan c Channel.tick).modPort c Port.tick

/-- The loop over the groups and their queues. -/
def Part.tickGroups (p : Part) : Part := p.forEach allGroups fun p g => (p.modGroup g Group.tick).modQueue g CueQueue.tick

/-- The loop over the tracks. -/
def Part.tickTracks (p : Part) : Part := p.forEach allTracks fun p t => p.modTrack t Track.tick

theorem Part.tick_loops (p : Part) : p.tick = p.tickChannels.tickGroups.tickTracks.tickBlocks := rfl

section Loops
variable {p : Part}

/-- A loop leaves the blocks that each of its rounds leaves. -/
theorem Part.forEach_kept {α : Type} {f : Part → α → Part} {bs : List Block} (l : List α) (p : Part)
    (each : ∀ q x, Kept q (f q x) bs) (untaken : .taken ∉ bs := by decide) : Kept p (p.forEach l f) bs :=
  Part.forEach_inv (P := fun q => Kept p q bs) (.refl p bs untaken) fun q x _ kept => kept.trans (each q x)

theorem Part.tickChannels_kept (p : Part) :
    Kept p p.tickChannels [.ctl, .link .a, .link .b, .groups, .queues, .clock, .tracks, .codes] :=
  Part.forEach_kept _ _ fun q c => by simp [Kept, Block.Kept]

theorem Part.tickGroups_kept (p : Part) :
    Kept p p.tickGroups [.ctl, .link .a, .link .b, .channels, .ports, .clock, .tracks, .codes] :=
  Part.forEach_kept _ _ fun q g => ((q.modGroup_kept g _).mono (by simp)).trans ((Part.modQueue_kept _ g _).mono (by simp))

theorem Part.tickTracks_kept (p : Part) :
    Kept p p.tickTracks [.ctl, .link .a, .link .b, .channels, .ports, .groups, .queues, .clock, .codes] :=
  Part.forEach_kept _ _ fun q t => (q.modTrack_kept t _).mono (by simp)

theorem Part.tickChannels_read (p : Part) (d : Chan) :
    p.tickChannels.chan d = (p.chan d).tick ∧ p.tickChannels.port d = (p.port d).tick := by
  have loop (l : List Chan) (nodup : l.Nodup) (q : Part) :
      (q.forEach l fun p c => (p.modChan c Channel.tick).modPort c Port.tick).chan d
          = (if d ∈ l then (q.chan d).tick else q.chan d)
        ∧ (q.forEach l fun p c => (p.modChan c Channel.tick).modPort c Port.tick).port d
          = (if d ∈ l then (q.port d).tick else q.port d) := by
    induction l generalizing q with
    | nil => exact ⟨rfl, rfl⟩
    | cons c l ih =>
      rw [List.nodup_cons] at nodup
      obtain ⟨chan, port⟩ := ih nodup.2 ((q.modChan c Channel.tick).modPort c Port.tick)
      rw [Part.forEach_cons, chan, port, Part.modPort_chan, Part.modChan_chan]
      by_cases same : d = c
      · subst same
        rw [if_neg nodup.1, if_neg nodup.1, if_pos rfl, if_pos (by simp), if_pos (by simp), Part.modPort_port_self,
          Part.modChan_port]
        exact ⟨rfl, rfl⟩
      · rw [if_neg same, Part.modPort_port_ne _ _ _ _ same, Part.modChan_port]
        simp [same]
  have all := loop allChans allChans_nodup p
  rwa [if_pos (mem_allChans d), if_pos (mem_allChans d)] at all

theorem Part.tickGroups_read (p : Part) (h : Grp) :
    p.tickGroups.group h = (p.group h).tick ∧ p.tickGroups.queue h = (p.queue h).tick := by
  have loop (l : List Grp) (nodup : l.Nodup) (q : Part) :
      (q.forEach l fun p g => (p.modGroup g Group.tick).modQueue g CueQueue.tick).group h
          = (if h ∈ l then (q.group h).tick else q.group h)
        ∧ (q.forEach l fun p g => (p.modGroup g Group.tick).modQueue g CueQueue.tick).queue h
          = (if h ∈ l then (q.queue h).tick else q.queue h) := by
    induction l generalizing q with
    | nil => exact ⟨rfl, rfl⟩
    | cons g l ih =>
      rw [List.nodup_cons] at nodup
      obtain ⟨group, queue⟩ := ih nodup.2 ((q.modGroup g Group.tick).modQueue g CueQueue.tick)
      rw [Part.forEach_cons, group, queue, Part.modQueue_group, Part.modGroup_group, Part.modQueue_queue]
      by_cases same : h = g
      · subst same
        rw [if_neg nodup.1, if_neg nodup.1, if_pos rfl, if_pos rfl, if_pos (by simp), if_pos (by simp)]
        exact ⟨rfl, rfl⟩
      · rw [if_neg same, if_neg same]
        simp [same]
  have all := loop allGroups allGroups_nodup p
  rwa [if_pos (mem_allGroups h), if_pos (mem_allGroups h)] at all

theorem Part.tickTracks_read (p : Part) (u : Trk) : p.tickTracks.track u = (p.track u).tick := by
  have loop (l : List Trk) (nodup : l.Nodup) (q : Part) :
      (q.forEach l fun p t => p.modTrack t Track.tick).track u = if u ∈ l then (q.track u).tick else q.track u := by
    induction l generalizing q with
    | nil => rfl
    | cons t l ih =>
      rw [List.nodup_cons] at nodup
      rw [Part.forEach_cons, ih nodup.2, Part.modTrack_track]
      by_cases same : u = t
      · subst same
        rw [if_neg nodup.1, if_pos rfl, if_pos (by simp)]
      · rw [if_neg same]
        simp [same]
  exact (loop allTracks allTracks_nodup p).trans (if_pos (mem_allTracks u))

/-- A millisecond reads every channel, port, group, queue, track and link once. -/
theorem Part.tick_read (p : Part) :
    (∀ c, p.tick.chan c = (p.chan c).tick ∧ p.tick.port c = (p.port c).tick)
      ∧ (∀ g, p.tick.group g = (p.group g).tick ∧ p.tick.queue g = (p.queue g).tick)
      ∧ (∀ t, p.tick.track t = (p.track t).tick) ∧ (∀ l, p.tick.link l = (p.link l).tick)
      ∧ p.tick.clock = p.clock.tick ∧ p.tick.ctl = { p.ctl with powerGoodTimer := tickTimer p.ctl.powerGoodTimer }
      ∧ p.tick.codes = p.codes := by
  have chans := p.tickChannels_read
  have groups := p.tickChannels.tickGroups_read
  have tracks := p.tickChannels.tickGroups.tickTracks_read
  have first := p.tickChannels_kept
  have second := p.tickChannels.tickGroups_kept
  have third := p.tickChannels.tickGroups.tickTracks_kept
  rw [Part.tick_loops]
  generalize p.tickChannels = q at *
  generalize q.tickGroups = r at *
  generalize r.tickTracks = s at *
  have all : Kept p s [.ctl, .link .a, .link .b, .clock, .codes] :=
    ((first.mono (by simp)).trans (second.mono (by simp))).trans (third.mono (by simp))
  have later : Kept q s [.channels, .ports] := (second.mono (by simp)).trans (third.mono (by simp))
  have ports (c : Chan) : s.port c = q.port c := by
    have same : s.ports = q.ports := (later .ports (by simp)).1
    simp only [Part.port, same]
  have clock : s.clock = p.clock := all .clock (by simp)
  have ctl : s.ctl = p.ctl := all .ctl (by simp)
  have codes : s.codes = p.codes := all .codes (by simp)
  refine ⟨fun c => ⟨?_, ?_⟩, fun g => ⟨?_, ?_⟩, fun t => ?_, fun l => ?_, congrArg ShowClock.tick clock,
    congrArg (fun m : ModeCtl => { m with powerGoodTimer := tickTimer m.powerGoodTimer }) ctl, codes⟩
  · exact ((later.mono (by simp)).chan c).trans (chans c).1
  · exact (ports c).trans (chans c).2
  · refine ((third.mono (by simp)).group g).trans ((groups g).1.trans (congrArg Group.tick ?_))
    exact (first.mono (by simp)).group g
  · refine ((third.mono (by simp)).queue g).trans ((groups g).2.trans (congrArg CueQueue.tick ?_))
    exact (first.mono (by simp)).queue g
  · refine (tracks t).trans (congrArg Track.tick ?_)
    exact ((second.mono (by simp)).track t).trans ((first.mono (by simp)).track t)
  · rw [Part.tickBlocks_link]
    refine congrArg LinkIf.tick ?_
    cases l with
    | a => exact all (.link .a) (by simp)
    | b => exact all (.link .b) (by simp)

end Loops

/-! ### The commands that fall due -/

section Due
variable {p : Part} {i : Instr}

/-- R120: the mark of a head that waits for one. -/
theorem CueQueue.mark_iff (q : CueQueue) (v : Nat) :
    q.mark = some v ↔ q.arming = .awaitingMark ∧ q.cues.head?.map (·.trigger) = some (.atMark v) := by
  unfold CueQueue.mark
  cases q.cues with
  | nil => cases q.arming <;> simp
  | cons x rest =>
    cases arming : q.arming with
    | awaitingMark => cases trigger : x.trigger <;> simp [trigger]
    | none => simp
    | dwelling => simp

theorem mem_cmdIf {due : Bool} {c : Instr} : i ∈ cmdIf due c ↔ due = true ∧ i = c := by
  cases due <;> simp [cmdIf]

/-- R120, R168, R178: the commands of a millisecond are those of the timers that have run out, of the marks the clock has reached
and of a clock at its end. -/
theorem Part.mem_due (p : Part) (i : Instr) : i ∈ p.due ↔ p.RunOut i := by
  unfold Part.due Part.channelDue Part.groupDue Part.trackDue
  simp only [List.mem_append, List.mem_flatMap, mem_cmdIf, Timer.out_iff]
  cases i
  case watchdogExpiry l => cases l <;> simp [Part.RunOut, Part.link]
  case markReached g => simp [Part.RunOut, CueQueue.mark_iff, Config.clockMax, and_assoc]
  case showClockSaturate => simp [Part.RunOut, Config.clockMax]
  all_goals simp [Part.RunOut]

/-- Drawing random numbers runs out no timer. -/
theorem Part.draw_runOut (p : Part) (n : Nat) (i : Instr) : (p.draw n).RunOut i ↔ p.RunOut i := by cases i <;> exact Iff.rfl

end Due

/-- Settles O1: a step with no command waiting is one tick of every timer, and what runs out is what then waits. -/
theorem idleStepCountsOneMillisecond : Obligations.IdleStepCountsOneMillisecond := by
  intro s empty
  have steps : step s = .next s.tick := by
    unfold step
    rw [empty]
  refine ⟨fun held => ?_, fun free => ⟨s.tick, steps, ?_⟩⟩
  · rw [steps, State.tick, if_pos held]
  · have ticked : s.tick =
        { part := s.part.tick.draw s.part.tick.due.length, pending := freeOrder s.part.tick.draws s.part.tick.due } := by
      unfold State.tick
      rw [if_neg (by simp [free])]
    obtain ⟨chans, groups, tracks, links, clock, ctl, codes⟩ := s.part.tick_read
    have running : s.part.clock.tick.running = s.part.clock.running := by
      unfold ShowClock.tick
      split <;> rfl
    have due := fun i => (mem_freeOrder s.part.tick.draws i _).trans (s.part.tick.mem_due i)
    rw [ticked]
    simp only [Part.draw_runOut, Part.draw_clock, Part.draw_chan, Part.draw_port, Part.draw_group, Part.draw_queue,
      Part.draw_track, Part.draw_link, Part.draw_ctl, Part.draw_codes]
    generalize s.part.tick = p at *
    rw [clock]
    refine ⟨running, fun runs => ?_, fun stands => ?_, chans, groups, tracks, links, ctl, codes, due⟩
    · unfold ShowClock.tick
      rw [if_pos runs]
      rfl
    · unfold ShowClock.tick
      rw [if_neg (by simp [stands])]

end Sys2Proof.Machine
end

section
set_option Elab.async false
/-! PROOFS. Link silence at a track whose group another track also plays (R145, R149, R162; logs 18, 34). -/

namespace Sys2Proof.Machine

/-! ### A state that refutes the abandoned play

Track 1 plays G1, at rest, and is not closing. Track 0 is closing and plays G0, at rest, and G1 too, which has arrived: no law of a
state forbids that G1 is in both playing sets. The silence of Link A stops G0 first, whose leaving ends the play of track 0, and the
completion order of that end completes G1's move. G1 is IDLE when the silence reaches it, so it tells track 1 nothing. -/

/-- A channel that a group holds for Link A. -/
def heldBy (g : Grp) : Channel := { Channel.powerOn with kind := .variableSpeed, state := .holding, mover := .group g, owner := some .a }

/-- A lane entry that has arrived. -/
def arrivedEntry : LaneRecord :=
  { start := 0, target := 10, travel := 10, baseline := 0, state := .arrived, confirmed := true, demand := 0, full := 40 }

/-- A group of one lane with a track move of Link A at rest on its targets. -/
def restingGroup (t : Trk) (c : Chan) : Group :=
  { Group.powerOn with
    state := .running, lanes := [⟨c, .follow, 0⟩], boundTrack := some t, controlTimer := some 20
    move := some { origin := .a, tier := 0, source := .track t, speed := none, reason := none, lanes := [arrivedEntry] } }

/-- A track of Link A that plays. -/
def playingTrack (bound : Grp) (closing : Bool) (playing arrived : List Grp) : Track :=
  { Track.clear with state := .playing, owner := some .a, bound := [bound], closing := closing, playing := playing, arrived := arrived }

/-- G1 in the playing sets of both tracks, and the watchdog of Link A at its end. -/
def twicePlayed : Part :=
  { Part.reset with
    channels := (Part.reset.channels.set 0 (heldBy 0)).set 1 (heldBy 1)
    groups := (Part.reset.groups.set 0 (restingGroup 0 0)).set 1 (restingGroup 1 1)
    tracks := #v[playingTrack 0 true [0, 1] [1], playingTrack 1 false [1] []]
    linkA := { LinkIf.powerOn Enables.all with watchdog := { period := 100, state := .running, timer := some 0 } } }

theorem twicePlayed_chan (c : Chan) :
    twicePlayed.chan c = if c = 0 then heldBy 0 else if c = 1 then heldBy 1 else Channel.powerOn := by
  revert c
  decide

theorem twicePlayed_group (g : Grp) :
    twicePlayed.group g = if g = 0 then restingGroup 0 0 else if g = 1 then restingGroup 1 1 else Group.powerOn := by
  revert g
  decide

section Laws
variable {p : Part} {g : Grp} {t : Trk} {c : Chan}

theorem restingGroup_moveLaw (group : p.group g = restingGroup t c) (moved : ∀ d, (p.chan d).mover = .group g → d = c)
    (held : p.chan c = heldBy g) : p.MoveLaw g := by
  unfold Part.MoveLaw
  rw [group]
  refine ⟨by simp [restingGroup], by simp [restingGroup], fun m move => ?_, fun d grouped => ?_, fun _ m move ln lane => ?_,
    by simp [restingGroup]⟩
  · cases Option.some.inj move
    exact ⟨rfl, rfl⟩
  · exact ⟨by simp [restingGroup], ⟨c, .follow, 0⟩, List.mem_singleton_self _, (moved d grouped).symm⟩
  · cases Option.some.inj move
    cases List.mem_singleton.mp lane
    rw [held]
    exact ⟨rfl, rfl⟩

theorem empty_moveLaw (group : p.group g = Group.powerOn) (free : ∀ d, (p.chan d).mover ≠ .group g) : p.MoveLaw g := by
  unfold Part.MoveLaw
  rw [group]
  refine ⟨by simp [Group.powerOn], fun _ => rfl, fun m move => ?_, fun d grouped => absurd grouped (free d), fun state => ?_,
    by simp [Group.powerOn]⟩
  · cases move
  · simp [Group.powerOn] at state

end Laws

/-- R8, R39, R68, R136: the playing sets are no part of who moves, owns and binds what. -/
theorem twicePlayed_ownershipLaw : twicePlayed.OwnershipLaw := by
  have there : twicePlayed.hasChan 0 = true ∧ twicePlayed.hasChan 1 = true := by decide
  refine ⟨fun c => ?_, fun g => ?_, fun t => ?_⟩
  · unfold Part.MoverLaw
    rw [twicePlayed_chan]
    by_cases first : c = 0
    · subst first
      simp [heldBy, Channel.powerOn, there]
    · by_cases second : c = 1
      · subst second
        simp [heldBy, Channel.powerOn, there]
      · simp [first, second, Channel.powerOn]
  · have movers : ∀ d g, (twicePlayed.chan d).mover = .group g → d = 0 ∧ g = 0 ∨ d = 1 ∧ g = 1 := by decide
    by_cases first : g = 0
    · subst first
      exact restingGroup_moveLaw (t := 0) (c := 0) (by decide) (by decide) (by decide)
    · by_cases second : g = 1
      · subst second
        exact restingGroup_moveLaw (t := 1) (c := 1) (by decide) (by decide) (by decide)
      · refine empty_moveLaw ?_ fun d grouped => ?_
        · rw [twicePlayed_group, if_neg first, if_neg second]
        · rcases movers d g grouped with ⟨-, e⟩ | ⟨-, e⟩
          · exact first e
          · exact second e
  · have unset : ∀ (t : Trk) (g : Grp), (twicePlayed.track t).origins[g] = none := by decide
    refine ⟨by revert t; decide, by revert t; decide, by revert t; decide, by revert t; decide, by revert t; decide,
      fun g o origins => ?_⟩
    rw [unset t g] at origins
    cases origins

/-- The playing set of a track once a command has been taken. -/
def playingAfter (i : Instr) (s : State) (t : Trk) : List Grp :=
  match exec i s with
  | .next next => (next.part.track t).playing
  | .fault _ | .refused _ => []

set_option maxRecDepth 100000 in
theorem twicePlayed_stays : playingAfter (.watchdogExpiry .a) { part := twicePlayed, pending := [] } 1 = [1] := by decide

theorem not_silenceAbandonsThePlay : ¬ Claims.SilenceAbandonsThePlay := by
  intro abandons
  obtain ⟨q, taken, track, -⟩ := abandons .a 1 { part := twicePlayed, pending := [] } (by decide) (by decide)
    twicePlayed_ownershipLaw (by decide) (by decide) (by decide) (by decide) (by decide) (by decide)
  have stays := twicePlayed_stays
  unfold playingAfter at stays
  rw [taken] at stays
  dsimp only at stays
  rw [track] at stays
  cases stays

/-- Refutes O28: the group of an abandoned play may be in the playing set of a closing track too, whose end completes it first. -/
theorem not_watchdogExpiryIsLinkSilence : ¬ Obligations.WatchdogExpiryIsLinkSilence :=
  fun holds => not_silenceAbandonsThePlay holds.2.2

end Sys2Proof.Machine
end

section
set_option Elab.async false
/-! PROOFS. A winding down, end by end: moves ended for the reasons that reach them, tracks cut back, notices of tracks
(R81 to R84, R145, R147 to R149, R155; log 34). -/

namespace Sys2Proof.Machine

/-! ### Tracks that are cut back -/

/-- R145, R147, R148: what the ends of moves and of plays do to a track. -/
inductive Track.Cut : (Track → Track) → Prop where
  | left (g : Grp) : Track.Cut (Track.dropPlaying g)
  | abandoned : Track.Cut Track.endSegment
  | ended : Track.Cut Track.clearPlay
  | unset : Track.Cut fun x => { x with origins := Vector.replicate 8 none }

/-- A track before and after cuts. -/
structure Track.Lessens (x y : Track) : Prop where
  playing : ∀ g ∈ y.playing, g ∈ x.playing
  closing : y.closing = true → x.closing = true
  kept : y.waypoints = x.waypoints ∧ y.owner = x.owner ∧ y.bound = x.bound
  rests : x.inPlay = false → y.inPlay = false

namespace Track.Lessens
variable {x y z : Track}

theorem refl (x : Track) : x.Lessens x := ⟨fun _ => id, id, ⟨rfl, rfl, rfl⟩, id⟩

theorem trans (h : x.Lessens y) (k : y.Lessens z) : x.Lessens z := by
  obtain ⟨waypoints, owner, bound⟩ := h.kept
  obtain ⟨waypoints', owner', bound'⟩ := k.kept
  exact ⟨fun g mem => h.playing g (k.playing g mem), fun closes => h.closing (k.closing closes),
    ⟨waypoints'.trans waypoints, owner'.trans owner, bound'.trans bound⟩, fun idle => k.rests (h.rests idle)⟩

end Track.Lessens

theorem Track.restState_rests (x : Track) : (x.restState == .playing || x.restState == .starved) = false := by
  unfold Track.restState
  split <;> rfl

theorem Track.Cut.lessens {f : Track → Track} (cut : Track.Cut f) (x : Track) : x.Lessens (f x) := by
  cases cut with
  | left g => exact ⟨fun h mem => List.mem_of_mem_filter mem, id, ⟨rfl, rfl, rfl⟩, id⟩
  | abandoned => exact ⟨fun _ => id, fun closes => absurd closes Bool.false_ne_true, ⟨rfl, rfl, rfl⟩, fun _ => x.restState_rests⟩
  | ended => exact ⟨fun _ mem => absurd mem List.not_mem_nil, fun closes => absurd closes Bool.false_ne_true, ⟨rfl, rfl, rfl⟩,
      fun _ => x.restState_rests⟩
  | unset => exact ⟨fun _ => id, id, ⟨rfl, rfl, rfl⟩, id⟩

/-! ### The ends, one after another -/

/-- A part that a run of ends leads to: moves ended for reasons that may reach their groups, tracks cut back, notices of tracks, and
draws. -/
inductive Part.Wound (may : Grp → StopReason → Prop) (p : Part) : Part → Prop where
  | start : Part.Wound may p p
  | group {q : Part} {g : Grp} {r : StopReason} (reached : may g r) (before : Part.Wound may p q) : Part.Wound may p (q.endOf g r)
  | track {q : Part} (t : Trk) {f : Track → Track} (cut : Track.Cut f) (before : Part.Wound may p q) :
      Part.Wound may p (q.modTrack t f)
  | told {q : Part} (t : Trk) (e : Event) (before : Part.Wound may p q) : Part.Wound may p (q.raise (.track t) e)
  | drawn {q : Part} (n : Nat) (before : Part.Wound may p q) : Part.Wound may p (q.draw n)

/-- R145, R147: the end of a closing play may complete a group while another group leaves it. -/
def Part.MayComplete (p : Part) (g : Grp) : Prop :=
  ∃ t, (p.track t).closing = true ∧ g ∈ (p.track t).playing ∧ ∃ h ∈ (p.track t).playing, h ≠ g

namespace Part.Wound
variable {may : Grp → StopReason → Prop} {p q : Part} {g : Grp} {t : Trk} {r : StopReason}

theorem lessens (w : Part.Wound may p q) (t : Trk) : (p.track t).Lessens (q.track t) := by
  induction w with
  | start => exact .refl _
  | @group q g r reached before ih =>
    rw [((Part.Beside.endOf q g r).kept.mono (cs := [.tracks]) (by simp)).track]
    exact ih
  | track u cut before ih =>
    rw [Part.modTrack_track]
    split
    · next same =>
      subst same
      exact ih.trans (cut.lessens _)
    · exact ih
  | told u e before ih =>
    rw [((Part.raise_kept _ _ _).mono (cs := [.tracks]) (by simp)).track]
    exact ih
  | drawn n before ih => exact ih

/-! #### The runs of ends of the model -/

theorem endAll (w : Part.Wound may p q) {l : List Grp} (reached : ∀ g ∈ l, may g r) : Part.Wound may p (q.endAll l r) :=
  Part.forEach_inv (P := fun q => Part.Wound may p q) w fun _ g mem before => .group (reached g mem) before

theorem playEnded (w : Part.Wound may p q) (t : Trk) (e : Event) (reached : ∀ g ∈ (q.track t).playing, may g r) :
    Part.Wound may p (q.playEnded t r e) :=
  .told t e ((Part.Wound.track t .ended w).endAll reached)

theorem moveEnded (w : Part.Wound may p q) (completes : ∀ g, p.MayComplete g → may g .complete) (t : Trk) (g : Grp) :
    Part.Wound may p (q.moveEnded t g) := by
  have left := Part.Wound.track t (.left g) w
  have here : (q.modTrack t (Track.dropPlaying g)).track t = Track.dropPlaying g (q.track t) := Part.modTrack_track_self ..
  unfold Part.moveEnded
  split
  · next plays =>
    have member : g ∈ (p.track t).playing := (w.lessens t).playing g (List.contains_iff_mem.mp plays)
    dsimp only
    split
    · split
      · exact .told t .trackStopped (.track t .abandoned left)
      · exact left
    · split
      · next closes =>
        rw [Part.endPlay_eq]
        refine left.playEnded t .trackEnded fun h mem => completes h ?_
        have closing : ((q.modTrack t (Track.dropPlaying g)).track t).closing = true := (Bool.and_eq_true_iff.mp closes).1
        have other : g ≠ h := by
          rintro rfl
          rw [here] at mem
          simp [Track.dropPlaying, dropGroup] at mem
        exact ⟨t, (left.lessens t).closing closing, (left.lessens t).playing h mem, g, member, other⟩
      · exact left
  · exact w

theorem stopGroup (w : Part.Wound may p q) (completes : ∀ g, p.MayComplete g → may g .complete) (reached : may g r)
    (mild : r ≠ .complete) : Part.Wound may p (q.stopGroup g r) := by
  have ended := Part.Wound.group reached w
  rw [Part.stopGroup_eq mild]
  split
  · split
    · exact ended.moveEnded completes _ g
    · exact ended
  · exact ended

theorem haltTrack (w : Part.Wound may p q) (completes : ∀ g, p.MayComplete g → may g .complete)
    (reached : ∀ g ∈ (p.track t).playing, may g .request) : Part.Wound may p (q.haltTrack t) := by
  have stopped : Part.Wound may p (((q.modTrack t Track.clearPlay).forEach (q.track t).playing fun p g => p.stopGroup g .request).raise
      (.track t) .trackStopped) :=
    .told t .trackStopped (Part.forEach_inv (P := fun q => Part.Wound may p q) (.track t .ended w) fun _ g mem before =>
      before.stopGroup completes (reached g ((w.lessens t).playing g mem)) (by decide))
  unfold Part.haltTrack
  split
  · exact stopped
  · exact stopped
  · exact .track t .unset w
  · exact .track t .unset w

/-! #### What the ends leave -/

theorem winds (w : Part.Wound may p q) : Part.Winds p q := by
  induction w with
  | start => exact .refl p
  | group reached before ih => exact ih.trans (.endOf ..)
  | track t cut before ih => exact ih.trans (.modTrack ..)
  | told t e before ih => exact ih.trans (.raise _ e (fun d => by simp) (by simp))
  | drawn n before ih => exact ih.trans (.draw ..)

theorem stills (w : Part.Wound may p q) : Part.Stills p q := by
  induction w with
  | start => exact .refl p
  | group reached before ih => exact ih.trans (.endOf ..)
  | track t cut before ih => exact ih.trans (.modTrack ..)
  | told t e before ih => exact ih.trans (.raise ..)
  | @drawn q n before ih => exact ih.trans (.of_chans ((q.draw_kept n).mono (by simp)))

end Part.Wound

end Sys2Proof.Machine
end

section
set_option Elab.async false
/-! PROOFS. What a winding down makes of one group (R81 to R84, R149, R155). -/

namespace Sys2Proof.Machine

/-! ### The end of one move -/

/-- R82: what is neither HOLDING nor FAULTED does not come to rest by winding down. -/
theorem Channel.Winds.moving {x y : Channel} (h : x.Winds y) (moves : x.state ≠ .holding ∧ x.state ≠ .faulted) :
    y.state ≠ .holding ∧ y.state ≠ .faulted := by
  rcases h.state with same | ⟨-, stopping⟩ | ⟨holding, -⟩
  · rw [same]
    exact moves
  · simp [stopping]
  · exact absurd holding moves.1

section One
variable {p q : Part} {g h : Grp} {r : StopReason} {m : MoveRecord} {n : Nat} {c : Chan}

/-- A channel of no lane of the group is left as it is, but for its watch baseline (R110). -/
theorem Part.endOf_out (p : Part) (g : Grp) (r : StopReason) (out : ∀ ln ∈ (p.group g).lanes, ln.channel ≠ c) :
    (p.chan c).Like ((p.endOf g r).chan c) := by
  have stopped : (p.chan c).Like ((p.enterStopping g r).chan c) := .of_eq (p.enterStopping_chan_out g r c out)
  unfold Part.endOf
  split
  · split
    · exact stopped.trans (Part.Stills.exitCore_out _ g (by rw [Part.enterStopping_lanes]; exact out))
    · exact stopped
  · exact .refl _

/-- R82: a cue move that a stop ends at rest is held. -/
theorem Part.endOf_held (active : (p.group g).active = true) (rests : ¬p.Underway g) (move : (p.group g).move = some m)
    (source : m.source = .cue n) (ordinary : some r ∈ ordinaryStops) :
    (p.endOf g r).group g = { p.group g with
        state := .held, held := true, controlTimer := none, move := some { m with reason := some r } }
      ∧ (p.endOf g r).codes.groups[g] = some .groupHeld := by
  have stopped : (p.enterStopping g r).group g = { p.group g with
      state := .stopping, controlTimer := none, move := some { m with reason := some r } } := by
    rw [Part.enterStopping_group, if_pos rfl, move]
    rfl
  have ended : p.endOf g r = (p.enterStopping g r).exitCore g := by
    unfold Part.endOf
    rw [if_pos active, if_pos ((p.enterStopping_atRest g r).mpr rests)]
  rw [ended, Part.exitCore_held (m := { m with reason := some r }) (by rw [stopped]) ordinary source]
  constructor
  · rw [((Part.raise_kept _ _ _).mono (cs := [.groups]) (by simp)).group, Part.modGroup_group_self, Part.clearLanes_group, stopped]
  · rw [Part.raise_codes]
    exact (Vector.getElem_set_grp ..).trans (if_pos rfl)

/-- R82, R84: a track move that a stop or a completion ends at rest leaves nothing. -/
theorem Part.endOf_idle {t : Trk} (active : (p.group g).active = true) (rests : ¬p.Underway g) (move : (p.group g).move = some m)
    (source : m.source = .track t) (mild : r ≠ .fault) :
    (p.endOf g r).group g = { p.group g with state := .idle, controlTimer := none, move := none }
      ∧ (p.endOf g r).codes.groups[g] = p.codes.groups[g] := by
  obtain ⟨-, -, codes, -, -, idle⟩ := Part.endOfMove move source mild
  have unfolded : p.endOf g r = if (p.enterStopping g r).atRest g then (p.enterStopping g r).exitCore g else p.enterStopping g r :=
    if_pos active
  rw [unfolded]
  exact ⟨(idle rests).1, by rw [codes]⟩

end One

/-! ### Whose lanes are whose -/

/-- R39: the lane channels of a PREPARING or RUNNING group have it as mover, so no two of those groups share one. -/
def Part.Apart (p : Part) : Prop := ∀ g, (p.group g).active = true → ∀ ln ∈ (p.group g).lanes, (p.chan ln.channel).mover = .group g

theorem Part.OwnershipLaw.apart {p : Part} (law : p.OwnershipLaw) : p.Apart := by
  intro g active ln lane
  obtain ⟨-, moves, -⟩ := law
  obtain ⟨bare, -, -, -, held, -⟩ := moves g
  have state : (p.group g).state = .preparing ∨ (p.group g).state = .running := by simpa [Group.active] using active
  cases move : (p.group g).move with
  | none => rcases state with e | e <;> rcases bare.mp move with e' | e' <;> exact absurd (e.symm.trans e') (by decide)
  | some m => exact (held (by rcases state with e | e <;> simp [e]) m move ln lane).1

/-- The end of one group's move touches no lane channel of another PREPARING or RUNNING group. -/
theorem Part.Apart.endOf_lane {p : Part} {g h : Grp} {ln : Lane} (apart : p.Apart) (r : StopReason) (active : (p.group g).active = true)
    (other : g ≠ h) (lane : ln ∈ (p.group g).lanes) : (p.chan ln.channel).Like ((p.endOf h r).chan ln.channel) := by
  by_cases moves : (p.group h).active = true
  · refine p.endOf_out h r fun theirs mem same => other ?_
    have mover := apart h moves theirs mem
    rw [same, apart g active ln lane] at mover
    exact Mover.group.inj mover
  · rw [Part.endOf_inactive (Bool.eq_false_iff.mpr moves)]
    exact .refl _

theorem Part.Apart.endOf {p : Part} (apart : p.Apart) (h : Grp) (r : StopReason) : (p.endOf h r).Apart := by
  intro g active ln lane
  have other : g ≠ h := by
    rintro rfl
    rw [Part.endOf_active] at active
    cases active
  rw [(Part.Beside.endOf p h r).groups g other] at active lane
  exact (apart.endOf_lane r active other lane).mover.trans (apart g active ln lane)

/-! ### A group before and after its end -/

/-- A group that no end has reached. -/
structure Part.Spared (p q : Part) (g : Grp) : Prop where
  group : q.group g = p.group g
  code : q.codes.groups[g] = p.codes.groups[g]
  lanes : p.Apart → ∀ ln ∈ (p.group g).lanes, (q.chan ln.channel).state = (p.chan ln.channel).state

/-- R81, R82, R84: a PREPARING or RUNNING group whose move an end of a reason has reached. -/
structure Part.Reached (p q : Part) (g : Grp) (r : StopReason) : Prop where
  inactive : (q.group g).active = false
  stops : ∀ ln ∈ (p.group g).lanes, (q.chan ln.channel).live = false
  underway : p.Underway g → q.group g = { p.group g with
    state := .stopping, controlTimer := none, move := (p.group g).move.map fun m => { m with reason := some r } }
  idle : p.Apart → ¬p.Underway g → r ≠ .fault → ∀ m t, (p.group g).move = some m → m.source = .track t →
    q.group g = { p.group g with state := .idle, controlTimer := none, move := none }
      ∧ q.codes.groups[g] = p.codes.groups[g]
  held : p.Apart → ¬p.Underway g → some r ∈ ordinaryStops → ∀ m n, (p.group g).move = some m → m.source = .cue n →
    q.group g = { p.group g with state := .held, held := true, controlTimer := none, move := some { m with reason := some r } }
      ∧ q.codes.groups[g] = some .groupHeld

section Phases
variable {p q q' : Part} {g : Grp} {r : StopReason}

theorem Part.Spared.refl (p : Part) (g : Grp) : p.Spared p g := ⟨rfl, rfl, fun _ _ _ => rfl⟩

/-- A step that leaves the group, its code and its lane channels' states. -/
theorem Part.Spared.step (h : p.Spared q g) (group : q'.group g = q.group g) (code : q'.codes.groups[g] = q.codes.groups[g])
    (lanes : p.Apart → ∀ ln ∈ (p.group g).lanes, (q'.chan ln.channel).state = (q.chan ln.channel).state) : p.Spared q' g :=
  ⟨group.trans h.group, code.trans h.code, fun apart ln lane => (lanes apart ln lane).trans (h.lanes apart ln lane)⟩

theorem Part.Reached.step (h : p.Reached q g r) (group : q'.group g = q.group g) (code : q'.codes.groups[g] = q.codes.groups[g])
    (stops : ∀ c, (q.chan c).live = false → (q'.chan c).live = false) : p.Reached q' g r :=
  ⟨by rw [group]; exact h.inactive, fun ln lane => stops _ (h.stops ln lane), fun moves => group.trans (h.underway moves),
    fun apart rests mild m t move source => by rw [group, code]; exact h.idle apart rests mild m t move source,
    fun apart rests ordinary m n move source => by rw [group, code]; exact h.held apart rests ordinary m n move source⟩

/-- R81: the end that reaches a group is the first one. -/
theorem Part.Spared.reached (h : p.Spared q g) (winds : Part.Winds p q) (active : (p.group g).active = true) (r : StopReason) :
    p.Reached (q.endOf g r) g r := by
  have active' : (q.group g).active = true := by rw [h.group]; exact active
  have moves : p.Underway g → q.Underway g := fun ⟨ln, lane, unheld, unfaulted⟩ =>
    ⟨ln, by rw [h.group]; exact lane, (winds.chans ln.channel).moving ⟨unheld, unfaulted⟩⟩
  have rests (apart : p.Apart) (still : ¬p.Underway g) : ¬q.Underway g := fun ⟨ln, lane, moving⟩ => by
    rw [h.group] at lane
    rw [h.lanes apart ln lane] at moving
    exact still ⟨ln, lane, moving⟩
  refine ⟨Part.endOf_active .., fun ln lane => Part.endOf_rests active' (by rw [h.group]; exact lane), fun moving => ?_,
    fun apart still mild m t move source => ?_, fun apart still ordinary m n move source => ?_⟩
  · rw [Part.endOf_underway active' (moves moving), h.group]
  · rw [← h.group, ← h.code]
    exact Part.endOf_idle active' (rests apart still) (by rw [h.group]; exact move) source mild
  · rw [← h.group]
    exact Part.endOf_held active' (rests apart still) (by rw [h.group]; exact move) source ordinary

end Phases

namespace Part.Wound
variable {may : Grp → StopReason → Prop} {p q : Part} {g : Grp}

theorem apart (w : Part.Wound may p q) (start : p.Apart) : q.Apart := by
  have like {a b : Part} (h : a.Apart) (groups : ∀ g, b.group g = a.group g) (chans : ∀ c, (a.chan c).Like (b.chan c)) : b.Apart := by
    intro g active ln lane
    rw [groups] at active lane
    exact (chans ln.channel).mover.trans (h g active ln lane)
  induction w with
  | start => exact start
  | group reached before ih => exact ih.endOf _ _
  | track t cut before ih => exact like ih (fun _ => rfl) fun _ => .refl _
  | told t e before ih => exact like ih (fun g => ((Part.raise_kept _ _ _).mono (by simp)).group g) fun c => Part.raise_like ..
  | drawn n before ih => exact like ih (fun _ => rfl) fun _ => .refl _

/-- R81 to R84, R155: a PREPARING or RUNNING group has not been reached, or one end has reached it. -/
theorem phase (w : Part.Wound may p q) (active : (p.group g).active = true) :
    p.Spared q g ∨ ∃ r, may g r ∧ p.Reached q g r := by
  have quiet {a b : Part} (h : p.Spared a g ∨ ∃ r, may g r ∧ p.Reached a g r) (group : b.group g = a.group g)
      (code : b.codes.groups[g] = a.codes.groups[g]) (chans : ∀ c, (a.chan c).Like (b.chan c)) :
      p.Spared b g ∨ ∃ r, may g r ∧ p.Reached b g r := by
    rcases h with spared | ⟨r, reached, ended⟩
    · exact .inl (spared.step group code fun _ ln _ => (chans ln.channel).state)
    · exact .inr ⟨r, reached, ended.step group code fun c rests => by
        unfold Channel.live at rests ⊢
        rw [(chans c).state]
        exact rests⟩
  induction w with
  | start => exact .inl (.refl p g)
  | @group q h r reached before ih =>
    have beside := Part.Beside.endOf q h r
    rcases ih with spared | ⟨r', reached', ended⟩
    · by_cases same : g = h
      · subst same
        exact .inr ⟨r, reached, spared.reached before.winds active r⟩
      · refine .inl (spared.step (beside.groups g same) (beside.codes g same) fun apart ln lane => ?_)
        exact ((before.apart apart).endOf_lane r (by rw [spared.group]; exact active) same (by rw [spared.group]; exact lane)).state
    · refine .inr ⟨r', reached', ?_⟩
      by_cases same : g = h
      · subst same
        rw [Part.endOf_inactive ended.inactive]
        exact ended
      · exact ended.step (beside.groups g same) (beside.codes g same) fun c rests => (q.endOf_slows h r c).live rests
  | track t cut before ih => exact quiet ih rfl rfl fun _ => .refl _
  | told t e before ih =>
    refine quiet ih (((Part.raise_kept _ _ _).mono (by simp)).group g) ?_ fun c => Part.raise_like ..
    rw [Part.raise_codes]
    rfl
  | drawn n before ih => exact quiet ih rfl rfl fun _ => .refl _

end Part.Wound

end Sys2Proof.Machine
end

section
set_option Elab.async false
/-! PROOFS. What a winding down makes of one track (R135, R145, R147 to R149, R155; logs 6, 18, 19). -/

namespace Sys2Proof.Machine

/-! ### The notices of tracks -/

section Notices
variable {p : Part} {t : Trk}

theorem Part.judgeDisarm_trackCodes (p : Part) : p.judgeDisarm.codes.tracks = p.codes.tracks := by
  rcases p.judgeDisarm_eq with same | ⟨-, -, -, disarmed⟩
  · rw [same]
  · rw [disarmed, Part.changeMode_codes]
    rfl

theorem Part.raise_track (p : Part) (t u : Trk) (e : Event) :
    (p.raise (.track t) e).codes.tracks[u] = if u = t then some e else p.codes.tracks[u] := by
  rw [Part.raise_codes]
  show (p.codes.tracks.set t (some e))[u] = _
  by_cases same : u = t
  · subst same
    simp
  · rw [if_neg same]
    exact Vector.getElem_set_ne _ _ fun e => same (Fin.ext e.symm)

theorem Part.enterStopping_trackCodes (p : Part) (g : Grp) (r : StopReason) :
    (p.enterStopping g r).codes.tracks = p.codes.tracks :=
  congrArg EventCodes.tracks (p.enterStopping_kept g r .codes (by simp) : (p.enterStopping g r).codes = p.codes)

theorem Part.endOf_trackCodes (p : Part) (g : Grp) (r : StopReason) : (p.endOf g r).codes.tracks = p.codes.tracks := by
  have stopped := p.enterStopping_trackCodes g r
  unfold Part.endOf
  split
  · split
    · exact (Part.exitCore_trackCodes _ g).trans stopped
    · exact stopped
  · rfl

theorem Part.endJogs_trackCodes (p : Part) (which : Link → Bool) : (p.endJogs which).codes.tracks = p.codes.tracks := by
  unfold Part.endJogs
  refine Part.forEach_keeps (fun q => q.codes.tracks) _ _ fun q c _ => ?_
  have ended : (q.endJog c).codes.tracks = q.codes.tracks := by
    unfold Part.endJog Part.clearMover
    rw [Part.judgeDisarm_trackCodes]
    rfl
  split
  · split
    · exact ended
    · rfl
  · rfl
  · rfl

end Notices

/-! ### A track and its notice, as they stand -/

/-- A track and its last event are as they were. -/
def Part.SameTrack (p q : Part) (t : Trk) : Prop := q.track t = p.track t ∧ q.codes.tracks[t] = p.codes.tracks[t]

/-- The same, where no group is left in the play. -/
def Part.IdleTrack (p q : Part) (t : Trk) : Prop := (p.track t).playing = [] → p.SameTrack q t

section Same
variable {p q r : Part} {t u : Trk} {g : Grp} {reason : StopReason}

theorem Part.SameTrack.refl (p : Part) (t : Trk) : p.SameTrack p t := ⟨rfl, rfl⟩

theorem Part.SameTrack.trans (h : p.SameTrack q t) (k : q.SameTrack r t) : p.SameTrack r t :=
  ⟨k.1.trans h.1, k.2.trans h.2⟩

theorem Part.SameTrack.endOf (p : Part) (g : Grp) (reason : StopReason) (t : Trk) : p.SameTrack (p.endOf g reason) t :=
  ⟨((Part.Beside.endOf p g reason).kept.mono (by simp)).track t, by rw [Part.endOf_trackCodes]⟩

theorem Part.SameTrack.endAll (p : Part) (l : List Grp) (reason : StopReason) (t : Trk) : p.SameTrack (p.endAll l reason) t :=
  Part.forEach_inv (P := fun q => p.SameTrack q t) (.refl p t) fun q g _ same => same.trans (.endOf q g reason t)

theorem Part.SameTrack.modTrack (p : Part) (f : Track → Track) (other : t ≠ u) : p.SameTrack (p.modTrack u f) t :=
  ⟨Part.modTrack_track_ne _ _ _ _ other, rfl⟩

theorem Part.SameTrack.raise (p : Part) (e : Event) (other : t ≠ u) : p.SameTrack (p.raise (.track u) e) t :=
  ⟨((p.raise_kept _ e).mono (by simp)).track t, by rw [Part.raise_track, if_neg other]⟩

theorem Part.SameTrack.playEnded (p : Part) (reason : StopReason) (e : Event) (other : t ≠ u) :
    p.SameTrack (p.playEnded u reason e) t :=
  ((Part.SameTrack.modTrack p _ other).trans (.endAll _ _ reason t)).trans (.raise _ e other)

/-- R145: the end of a group's move for one track leaves the other. -/
theorem Part.SameTrack.moveEnded (p : Part) (g : Grp) (other : t ≠ u) : p.SameTrack (p.moveEnded u g) t := by
  have dropped := Part.SameTrack.modTrack p (Track.dropPlaying g) other
  unfold Part.moveEnded
  split
  · dsimp only
    split
    · split
      · exact dropped.trans ((Part.SameTrack.modTrack _ _ other).trans (.raise _ _ other))
      · exact dropped
    · split
      · rw [Part.endPlay_eq]
        exact dropped.trans (.playEnded _ _ _ other)
      · exact dropped
  · exact .refl p t

theorem Part.IdleTrack.refl (p : Part) (t : Trk) : p.IdleTrack p t := fun _ => .refl p t

theorem Part.IdleTrack.trans (h : p.IdleTrack q t) (k : q.IdleTrack r t) : p.IdleTrack r t := fun idle =>
  have same := h idle
  same.trans (k (by rw [same.1]; exact idle))

theorem Part.IdleTrack.same (h : p.SameTrack q t) : p.IdleTrack q t := fun _ => h

theorem Part.IdleTrack.forEach {α : Type} {f : Part → α → Part} (l : List α)
    (each : ∀ (q : Part), ∀ x ∈ l, q.IdleTrack (f q x) t) (p : Part) :
    p.IdleTrack (p.forEach l f) t :=
  Part.forEach_inv (P := fun q => p.IdleTrack q t) (.refl p t) fun q x mem idle => idle.trans (each q x mem)

theorem Part.IdleTrack.moveEnded (p : Part) (u : Trk) (g : Grp) : p.IdleTrack (p.moveEnded u g) t := fun idle => by
  by_cases same : t = u
  · subst same
    have out : p.moveEnded t g = p := if_neg (by simp [idle])
    rw [out]
    exact .refl p t
  · exact .moveEnded p g same

theorem Part.IdleTrack.stopGroup (p : Part) (g : Grp) (mild : reason ≠ .complete) : p.IdleTrack (p.stopGroup g reason) t := by
  have ended : p.IdleTrack (p.endOf g reason) t := .same (.endOf p g reason t)
  rw [Part.stopGroup_eq mild]
  split
  · split
    · exact ended.trans (Part.IdleTrack.moveEnded _ _ g)
    · exact ended
  · exact ended

theorem Part.IdleTrack.haltTrack (p : Part) (other : t ≠ u) : p.IdleTrack (p.haltTrack u) t := by
  have stopped : p.IdleTrack (((p.modTrack u Track.clearPlay).forEach (p.track u).playing fun p g => p.stopGroup g .request).raise
      (.track u) .trackStopped) t :=
    (Part.IdleTrack.trans (.same (.modTrack p _ other)) (.forEach _ (fun q g _ => .stopGroup q g (by decide)) _)).trans
      (.same (.raise _ _ other))
  unfold Part.haltTrack
  split
  · exact stopped
  · exact stopped
  · exact .same (.modTrack p _ other)
  · exact .same (.modTrack p _ other)

theorem Part.SameTrack.endJogs (p : Part) (which : Link → Bool) (t : Trk) : p.SameTrack (p.endJogs which) t := by
  refine ⟨?_, by rw [Part.endJogs_trackCodes]⟩
  refine Part.forEach_keeps (fun q => q.track t) _ _ fun q c _ => ?_
  have ended : (q.endJog c).track t = q.track t := ((q.endJog_kept c).mono (by simp)).track t
  split
  · split
    · exact ended
    · rfl
  · rfl
  · rfl

end Same
end Sys2Proof.Machine
end

section
set_option Elab.async false
/-! PROOFS. A play that a halt ends (R145, R147 to R149, R155; logs 6, 18, 19). -/

namespace Sys2Proof.Machine

/-! ### The phases of a play -/

/-- The play goes on: some of its groups may have left, but none that was under way. -/
structure Part.PlaysOn (p q : Part) (t : Trk) : Prop where
  track : q.track t = { p.track t with playing := (q.track t).playing, arrived := (q.track t).arrived }
  code : q.codes.tracks[t] = p.codes.tracks[t]
  arrived : ∀ g ∈ (q.track t).arrived, g ∈ (q.track t).playing
  members : ∀ g ∈ (q.track t).playing, g ∈ (p.track t).playing
  stays : ∀ g ∈ (p.track t).playing, p.Underway g → g ∈ (q.track t).playing

/-- The play is over: its last group has abandoned it, or the track has been stopped, or a closing track has ended it as one of
several groups left. -/
structure Part.PlayedOut (p q : Part) (t : Trk) : Prop where
  track : q.track t = { (p.track t).ended with origins := (q.track t).origins, tier := (q.track t).tier }
  tier : (∃ g ∈ (p.track t).playing, p.Underway g) → (q.track t).tier = none
  told : q.codes.tracks[t] = some .trackStopped
    ∨ q.codes.tracks[t] = some .trackEnded ∧ (p.track t).closing = true ∧ ∃ g ∈ (p.track t).playing, ∃ h ∈ (p.track t).playing, g ≠ h

section Phases
variable {p q r : Part} {t u : Trk} {g : Grp} {reason : StopReason}

theorem Part.PlayedOut.playing (h : p.PlayedOut q t) : (q.track t).playing = [] := by
  rw [h.track]
  rfl

theorem Part.PlayedOut.idle (h : p.PlayedOut q t) (same : q.IdleTrack r t) : p.PlayedOut r t := by
  obtain ⟨track, code⟩ := same h.playing
  exact ⟨by rw [track]; exact h.track, by rw [track]; exact h.tier, by rw [code]; exact h.told⟩

theorem Part.PlaysOn.same (h : p.PlaysOn q t) (same : q.SameTrack r t) : p.PlaysOn r t := by
  obtain ⟨track, code⟩ := same
  exact ⟨by rw [track]; exact h.track, code.trans h.code, by rw [track]; exact h.arrived, by rw [track]; exact h.members,
    by rw [track]; exact h.stays⟩

/-- A play goes on or is over. -/
def Part.Plays (p q : Part) (t : Trk) : Prop := p.PlaysOn q t ∨ p.PlayedOut q t

theorem Part.Plays.same (h : p.Plays q t) (same : q.SameTrack r t) : p.Plays r t :=
  h.imp (fun on => on.same same) fun gone => gone.idle (.same same)

/-- R145, R149: a group that was not under way leaves the play. -/
theorem Part.PlaysOn.leave (h : p.PlaysOn q t) (playing : (p.track t).inPlay = true) (rests : ¬p.Underway g) :
    p.Plays (q.moveEnded t g) t := by
  by_cases plays : g ∈ (q.track t).playing
  · have left : (q.modTrack t (Track.dropPlaying g)).track t = Track.dropPlaying g (q.track t) := Part.modTrack_track_self ..
    have code : (q.modTrack t (Track.dropPlaying g)).codes.tracks[t] = p.codes.tracks[t] := h.code
    have mem (l : List Grp) (i : Grp) : i ∈ dropGroup g l ↔ i ∈ l ∧ i ≠ g := by simp [dropGroup]
    have on : p.PlaysOn (q.modTrack t (Track.dropPlaying g)) t := by
      refine ⟨?_, code, fun i arrived => ?_, fun i member => ?_, fun i member moves => ?_⟩ <;> rw [left] at *
      · rw [h.track]
        rfl
      · obtain ⟨arrived, other⟩ := (mem _ i).mp arrived
        exact (mem _ i).mpr ⟨h.arrived i arrived, other⟩
      · exact h.members i ((mem _ i).mp member).1
      · exact (mem _ i).mpr ⟨h.stays i member moves, fun same => rests (same ▸ moves)⟩
    have inPlay : ((q.modTrack t (Track.dropPlaying g)).track t).inPlay = true := by
      rw [on.track]
      exact playing
    unfold Part.moveEnded
    rw [if_pos (List.contains_iff_mem.mpr plays)]
    generalize q.modTrack t (Track.dropPlaying g) = d at *
    dsimp only
    rw [inPlay]
    split
    · next empty =>
      have none_left : (d.track t).playing = [] := List.isEmpty_iff.mp empty
      have none_arrived : (d.track t).arrived = [] := List.eq_nil_iff_forall_not_mem.mpr fun i mem => by
        have member := on.arrived i mem
        rw [none_left] at member
        cases member
      have track : (d.abandonPlay t).track t = (d.track t).endSegment := by
        unfold Part.abandonPlay
        rw [((Part.raise_kept _ _ _).mono (cs := [.tracks]) (by simp)).track, Part.modTrack_track_self]
      have abandoned : (d.track t).endSegment = { (p.track t).ended with origins := (p.track t).origins, tier := (p.track t).tier } := by
        rw [Track.endSegment_abandoned, on.track, none_left, none_arrived]
        rfl
      rw [if_pos rfl]
      refine .inr ⟨?_, fun ⟨i, member, moves⟩ => ?_, .inl ?_⟩
      · rw [track, abandoned]
      · have member := on.stays i member moves
        rw [none_left] at member
        cases member
      · unfold Part.abandonPlay
        rw [Part.raise_track, if_pos rfl]
    · next some_ =>
      split
      · next closes =>
        have closing : (p.track t).closing = true := by
          have closing := (Bool.and_eq_true_iff.mp closes).1
          rwa [on.track] at closing
        obtain ⟨i, member⟩ := List.exists_mem_of_ne_nil _ fun empty => some_ (List.isEmpty_iff.mpr empty)
        have apart : i ≠ g := by
          rw [left] at member
          exact ((mem _ i).mp member).2
        have track : (d.endPlay t .trackEnded).track t = (d.track t).ended := by
          rw [Part.endPlay_eq, Part.playEnded, ((Part.raise_kept _ _ _).mono (cs := [.tracks]) (by simp)).track,
            (Part.SameTrack.endAll (d.modTrack t Track.clearPlay) _ _ t).1, Part.modTrack_track_self, Track.clearPlay_ended]
        have ended : (d.track t).ended = (p.track t).ended := by
          rw [on.track]
          rfl
        refine .inr ⟨?_, fun _ => ?_, .inr ⟨?_, closing, i, on.members i member, g, h.members g plays, apart⟩⟩
        · rw [track, ended]
        · rw [track]
          rfl
        · rw [Part.endPlay_eq, Part.playEnded, Part.raise_track, if_pos rfl]
      · exact .inl on
  · have out : q.moveEnded t g = q := if_neg (by simpa using plays)
    rw [out]
    exact .inl h

theorem Part.Plays.moveEnded (h : p.Plays q t) (playing : (p.track t).inPlay = true) (rests : ¬p.Underway g) (u : Trk) :
    p.Plays (q.moveEnded u g) t := by
  by_cases same : t = u
  · subst same
    rcases h with on | gone
    · exact on.leave playing rests
    · exact .inr (gone.idle (Part.IdleTrack.moveEnded q t g))
  · exact h.same (.moveEnded q g same)

theorem Part.Plays.stopGroup (h : p.Plays q t) (winds : Part.Winds p q) (playing : (p.track t).inPlay = true) (g : Grp)
    (mild : reason ≠ .complete) : p.Plays (q.stopGroup g reason) t := by
  have ended : p.Plays (q.endOf g reason) t := h.same (.endOf q g reason t)
  rw [Part.stopGroup_eq mild]
  split
  · split
    · next rests =>
      refine ended.moveEnded playing (fun ⟨ln, lane, moving⟩ => ?_) _
      exact (q.enterStopping_atRest g reason).mp rests.2
        ⟨ln, by rw [winds.lanes]; exact lane, (winds.chans ln.channel).moving moving⟩
    · exact ended
  · exact ended

/-- The play with the winding down so far. -/
def Part.PlaysDown (p q : Part) (t : Trk) : Prop := Part.Winds p q ∧ p.Plays q t

theorem Part.PlaysDown.stopGroups (h : p.PlaysDown q t) (playing : (p.track t).inPlay = true) (l : List Grp)
    (mild : reason ≠ .complete) : p.PlaysDown (q.forEach l fun q g => q.stopGroup g reason) t :=
  Part.forEach_inv (P := fun q => p.PlaysDown q t) h fun q g _ ⟨winds, plays⟩ =>
    ⟨winds.trans (.stopGroup q g mild), plays.stopGroup winds playing g mild⟩

theorem Part.PlaysDown.haltTrack (h : p.PlaysDown q t) (playing : (p.track t).inPlay = true) (other : t ≠ u) :
    p.PlaysDown (q.haltTrack u) t := by
  obtain ⟨winds, plays⟩ := h
  have stopped : p.PlaysDown ((q.modTrack u Track.clearPlay).forEach (q.track u).playing fun p g => p.stopGroup g .request) t :=
    Part.PlaysDown.stopGroups ⟨winds.trans (.modTrack q u _), plays.same (.modTrack q _ other)⟩ playing _ (by decide)
  refine ⟨winds.trans (.haltTrack q u), ?_⟩
  have told := stopped.2.same (Part.SameTrack.raise _ .trackStopped other)
  unfold Part.haltTrack
  split
  · exact told
  · exact told
  · exact plays.same (.modTrack q _ other)
  · exact plays.same (.modTrack q _ other)

end Phases

/-! ### The track's own halt (R148, R149) -/

section Own
variable {p q : Part} {t : Trk}

theorem Part.haltTrack_playing_own (playing : (q.track t).inPlay = true) :
    (q.haltTrack t).track t = (q.track t).ended ∧ (q.haltTrack t).codes.tracks[t] = some .trackStopped := by
  have halted : q.haltTrack t = ((q.modTrack t Track.clearPlay).forEach (q.track t).playing fun p g => p.stopGroup g .request).raise
      (.track t) .trackStopped := by
    unfold Track.inPlay at playing
    unfold Part.haltTrack
    cases state : (q.track t).state <;> simp [state] at playing ⊢
  have idle := Part.IdleTrack.forEach (t := t) (q.track t).playing (f := fun p g => p.stopGroup g .request)
    (fun q g _ => .stopGroup q g (by decide)) (q.modTrack t Track.clearPlay)
  have cleared : (q.modTrack t Track.clearPlay).track t = (q.track t).ended := by
    rw [Part.modTrack_track_self, Track.clearPlay_ended]
  rw [halted]
  constructor
  · rw [((Part.raise_kept _ _ _).mono (cs := [.tracks]) (by simp)).track, (idle (by rw [cleared]; rfl)).1, cleared]
  · rw [Part.raise_track, if_pos rfl]

theorem Part.haltTrack_resting_own (resting : (q.track t).inPlay = false) :
    q.haltTrack t = q.modTrack t fun x => { x with origins := Vector.replicate 8 none } := by
  unfold Track.inPlay at resting
  unfold Part.haltTrack
  cases state : (q.track t).state <;> simp [state] at resting ⊢

/-- R148: a track that has taken a halt does not play. -/
theorem Part.haltTrack_rests (q : Part) (t : Trk) : ((q.haltTrack t).track t).inPlay = false := by
  cases playing : (q.track t).inPlay with
  | true =>
    rw [(Part.haltTrack_playing_own playing).1]
    unfold Track.ended Track.inPlay
    dsimp only
    split <;> rfl
  | false =>
    rw [Part.haltTrack_resting_own playing, Part.modTrack_track_self]
    exact playing

/-- R148, R149: the play is over, with nothing left of it but perhaps its stored tier (log 19). -/
theorem Part.Plays.halted (h : p.Plays q t) (playing : (p.track t).inPlay = true) :
    p.PlayedOut (q.haltTrack t) t ∧ ((q.haltTrack t).track t).origins = Vector.replicate 8 none := by
  rcases h with on | gone
  · have inPlay : (q.track t).inPlay = true := by
      rw [on.track]
      exact playing
    obtain ⟨track, code⟩ := Part.haltTrack_playing_own inPlay
    have ended : (q.track t).ended = (p.track t).ended := by
      rw [on.track]
      rfl
    rw [ended] at track
    refine ⟨⟨?_, fun _ => ?_, .inl code⟩, ?_⟩ <;> rw [track]
    · rfl
    · rfl
  · have resting : (q.track t).inPlay = false := by
      rw [gone.track]
      unfold Track.ended Track.inPlay
      dsimp only
      split <;> rfl
    rw [Part.haltTrack_resting_own resting]
    refine ⟨⟨?_, fun moves => ?_, gone.told⟩, ?_⟩ <;> rw [Part.modTrack_track_self]
    · rw [gone.track]
    · exact gone.tier moves

end Own

end Sys2Proof.Machine
end

section
set_option Elab.async false
/-! PROOFS. The winding down of a halt as a whole: groups, tracks, jogs and watch baselines (R23, R81 to R84, R110, R148, R149,
R155). -/

namespace Sys2Proof.Machine

/-! ### Watch baselines (R110) -/

section Baselines
variable {p q : Part} {c : Chan}

/-- The watch baselines are as they were. -/
structure Part.SameBaselines (p q : Part) : Prop where
  same : ∀ c, (q.chan c).watchBaseline = (p.chan c).watchBaseline

namespace Part.SameBaselines

theorem refl (p : Part) : Part.SameBaselines p p := ⟨fun _ => rfl⟩

theorem trans {r : Part} (h : Part.SameBaselines p q) (k : Part.SameBaselines q r) : Part.SameBaselines p r :=
  ⟨fun c => (k.same c).trans (h.same c)⟩

theorem of_chan (chans : ∀ c, q.chan c = p.chan c) : Part.SameBaselines p q := ⟨fun c => by rw [chans]⟩

theorem modChan (p : Part) (c : Chan) {f : Channel → Channel} (same : ∀ x : Channel, (f x).watchBaseline = x.watchBaseline) :
    Part.SameBaselines p (p.modChan c f) := by
  refine ⟨fun d => ?_⟩
  rw [Part.modChan_chan]
  split
  · next e => rw [e, same]
  · rfl

theorem stop (x : Channel) : x.stop.watchBaseline = x.watchBaseline := by
  rw [Channel.stop_eq]
  unfold Channel.afterStop
  split
  · rfl
  · split <;> rfl

theorem dropMover (x : Channel) : x.dropMover.watchBaseline = x.watchBaseline := by
  rw [Channel.dropMover_eq]
  rfl

theorem clearLanes (p : Part) (g : Grp) : Part.SameBaselines p (p.clearLanes g) :=
  Part.forEach_inv (P := fun q => Part.SameBaselines p q) (refl p) fun q ln _ same =>
    (same.trans (modChan q ln.channel dropMover)).trans (of_chan fun d => by rw [Part.clearMover, Part.judgeDisarm_chan])

theorem raise (up : p.ctl.mode ≠ .parked) (pair : NoticePair) (e : Event) : Part.SameBaselines p (p.raise pair e) :=
  of_chan fun c => by rw [Part.raise_awake up, Part.post_chan]

theorem exitCore (up : p.ctl.mode ≠ .parked) (g : Grp) : Part.SameBaselines p (p.exitCore g) := by
  have changed (f : Group → Group) : Part.SameBaselines p ((p.clearLanes g).modGroup g f) :=
    (clearLanes p g).trans (of_chan fun _ => rfl)
  have told (f : Group → Group) (e : Event) : Part.SameBaselines p (((p.clearLanes g).modGroup g f).raise (.group g) e) := by
    refine (changed f).trans (raise ?_ _ e)
    rw [Part.modGroup_ctl]
    exact (Part.Winds.clearLanes p g).awake up
  have faulted := told fun x => { x with state := .faulted }
  have idled := told fun x => { x with state := .idle, move := none }
  have held := told fun x => { x with state := .held, held := true }
  unfold Part.exitCore
  split
  · exact refl p
  · dsimp only
    split
    · split
      · exact faulted _
      · exact changed fun x => { x with state := .faulted }
    · exact idled _
    · exact changed fun x => { x with state := .idle, move := none }
    · exact held _

theorem endOf (up : p.ctl.mode ≠ .parked) (g : Grp) (r : StopReason) : Part.SameBaselines p (p.endOf g r) := by
  have stopped : Part.SameBaselines p (p.enterStopping g r) :=
    Part.forEach_inv (P := fun q => Part.SameBaselines p q) (of_chan fun _ => rfl) fun q (ln : Lane) _ kept =>
      kept.trans (modChan q ln.channel stop)
  unfold Part.endOf
  split
  · split
    · exact stopped.trans (exitCore ((Part.Winds.enterStopping p g r).awake up) g)
    · exact stopped
  · exact refl p

theorem wound {may : Grp → StopReason → Prop} (w : Part.Wound may p q) (up : p.ctl.mode ≠ .parked) : Part.SameBaselines p q := by
  induction w with
  | start => exact refl p
  | group reached before ih => exact ih.trans (endOf (before.winds.awake up) _ _)
  | track t cut before ih => exact ih.trans (of_chan fun _ => rfl)
  | told t e before ih => exact ih.trans (raise (before.winds.awake up) _ e)
  | drawn n before ih => exact ih.trans (of_chan fun _ => rfl)

end Part.SameBaselines

end Baselines

/-! ### The jogs (R23) -/

section Jogs
variable {p : Part} {g : Grp}

/-- What the end of one jog leaves of the groups, their codes and the watch baselines. -/
theorem Part.endJog_leaves (p : Part) (c : Chan) : (∀ g, (p.endJog c).group g = p.group g)
    ∧ (p.endJog c).codes.groups = p.codes.groups ∧ Part.SameBaselines p (p.endJog c) := by
  refine ⟨((p.endJog_kept c).mono (by simp)).group, ?_, ⟨fun d => ?_⟩⟩
  · unfold Part.endJog Part.clearMover
    rw [Part.judgeDisarm_groupCodes]
    rfl
  · rw [Part.endJog_chan]
    split
    · rw [Part.SameBaselines.dropMover, Part.SameBaselines.stop]
    · rfl

theorem Part.endJogs_leaves (p : Part) (which : Link → Bool) : (∀ g, (p.endJogs which).group g = p.group g)
    ∧ (p.endJogs which).codes.groups = p.codes.groups ∧ Part.SameBaselines p (p.endJogs which) := by
  unfold Part.endJogs
  refine Part.forEach_inv (P := fun q => (∀ g, q.group g = p.group g) ∧ q.codes.groups = p.codes.groups ∧ Part.SameBaselines p q)
    ⟨fun _ => rfl, rfl, .refl p⟩ fun q c _ ⟨groups, codes, same⟩ => ?_
  obtain ⟨groups', codes', same'⟩ := q.endJog_leaves c
  have ended := And.intro (fun g => (groups' g).trans (groups g)) (And.intro (codes'.trans codes) (same.trans same'))
  split
  · split
    · exact ended
    · exact ⟨groups, codes, same⟩
  · exact ⟨groups, codes, same⟩
  · exact ⟨groups, codes, same⟩

/-- R23: the jog of a channel, whose link it may be, ends. -/
def Part.endAnyJog (p : Part) (c : Chan) : Part :=
  match (p.chan c).mover with
  | .jog _ => p.endJog c
  | .none | .group _ => p

theorem Part.endJogs_all (p : Part) : (p.endJogs fun _ => true) = p.forEach allChans Part.endAnyJog := rfl

theorem Part.endAnyJog_winds (p : Part) (c : Chan) : Part.Winds p (p.endAnyJog c) := by
  unfold Part.endAnyJog
  split
  · exact .endJog p c
  · exact .refl p
  · exact .refl p

theorem Part.endAnyJog_ends (p : Part) (c : Chan) (l : Link) : ((p.endAnyJog c).chan c).mover ≠ .jog l := by
  unfold Part.endAnyJog
  split
  · rw [Part.endJog_chan, if_pos rfl, Channel.dropMover_mover]
    simp
  · next mover => simp [mover]
  · next mover => simp [mover]

/-- R23: with the jogs of every link ended, none is left. -/
theorem Part.endJogs_ends (p : Part) (c : Chan) (l : Link) : ((p.endJogs fun _ => true).chan c).mover ≠ .jog l := by
  obtain ⟨a, b, split⟩ := List.append_of_mem (mem_allChans c)
  rw [Part.endJogs_all, split, Part.forEach_append, Part.forEach_cons]
  have rest := Part.Winds.forEach b Part.endAnyJog_winds ((p.forEach a Part.endAnyJog).endAnyJog c)
  rcases (rest.chans c).mover with ⟨mover, -⟩ | ⟨mover, -⟩
  · rw [mover]
    exact Part.endAnyJog_ends _ c l
  · rw [mover]
    simp

end Jogs

/-! ### The halt of groups and tracks (R149, R155; log 6) -/

section Moves
variable {p : Part} {g : Grp} {t : Trk}

/-- R155: groups and tracks have taken a halt; the jogs have not. -/
def Part.windMoves (p : Part) : Part :=
  (((p.draw 8).forEach (allGroups.filter p.haltsFirst) fun p g => p.stopGroup g .halt).forEach allTracks
    Part.haltTrack).forEach allGroups fun p g => p.stopGroup g .halt

theorem Part.windDown_eq (p : Part) : p.windDown = p.windMoves.endJogs fun _ => true := rfl

/-- R145, R149, R155: the reasons for which a halt may end a group's move: its own, its track's stop, and the end of a closing play. -/
def Part.HaltMay (p : Part) (g : Grp) (r : StopReason) : Prop :=
  r = .halt ∨ r = .request ∧ (∃ t, g ∈ (p.track t).playing) ∨ r = .complete ∧ p.MayComplete g

theorem Part.windMoves_wound (p : Part) : Part.Wound p.HaltMay p p.windMoves := by
  have completes (g : Grp) (closes : p.MayComplete g) : p.HaltMay g .complete := .inr (.inr ⟨rfl, closes⟩)
  have groups {q : Part} (w : Part.Wound p.HaltMay p q) (l : List Grp) :
      Part.Wound p.HaltMay p (q.forEach l fun q g => q.stopGroup g .halt) :=
    Part.forEach_inv (P := fun q => Part.Wound p.HaltMay p q) w fun _ _ _ before => before.stopGroup completes (.inl rfl) (by decide)
  have tracks {q : Part} (w : Part.Wound p.HaltMay p q) (l : List Trk) : Part.Wound p.HaltMay p (q.forEach l Part.haltTrack) :=
    Part.forEach_inv (P := fun q => Part.Wound p.HaltMay p q) w fun _ t _ before =>
      before.haltTrack completes fun g mem => .inr (.inl ⟨rfl, t, mem⟩)
  exact groups (tracks (groups (.drawn 8 .start) _) _) _

/-- R81: every group that takes a stop is neither PREPARING nor RUNNING. -/
theorem Part.stopGroups_active {l : List Grp} (mem : g ∈ l) (p : Part) {r : StopReason} (mild : r ≠ .complete) :
    ((p.forEach l fun q h => q.stopGroup h r).group g).active = false := by
  obtain ⟨a, b, rfl⟩ := List.append_of_mem mem
  rw [Part.forEach_append, Part.forEach_cons]
  exact (Part.Stills.forEach b (fun q h => Part.Stills.stopGroup q h mild) _).active (Part.Stills.stopGroup_active _ g mild)

theorem Part.windMoves_active (p : Part) (g : Grp) : (p.windMoves.group g).active = false :=
  Part.stopGroups_active (mem_allGroups g) _ (by decide)

/-- R81 to R83, R155: one of the ends of a halt reaches every PREPARING or RUNNING group. -/
theorem Part.windDown_reached (active : (p.group g).active = true) : ∃ r, p.HaltMay g r ∧ p.Reached p.windDown g r := by
  obtain ⟨groups, codes, -⟩ := p.windMoves.endJogs_leaves fun _ => true
  have jogs := Part.Winds.endJogs p.windMoves fun _ => true
  rw [Part.windDown_eq]
  rcases p.windMoves_wound.phase active with spared | ⟨r, reached, ended⟩
  · have rests := p.windMoves_active g
    rw [spared.group, active] at rests
    cases rests
  · exact ⟨r, reached, ended.step (groups g) (by rw [codes]) fun c => (jogs.chans c).rests⟩

theorem Part.windDown_active (p : Part) (g : Grp) : (p.windDown.group g).active = false := by
  rw [Part.windDown_eq, (p.windMoves.endJogs_leaves _).1]
  exact p.windMoves_active g

theorem Part.windDown_lessens (p : Part) (t : Trk) : (p.track t).Lessens (p.windDown.track t) := by
  rw [Part.windDown_eq, (Part.SameTrack.endJogs _ _ t).1]
  exact p.windMoves_wound.lessens t

theorem Part.windDown_baselines (up : p.ctl.mode ≠ .parked) : Part.SameBaselines p p.windDown := by
  rw [Part.windDown_eq]
  exact (Part.SameBaselines.wound p.windMoves_wound up).trans (p.windMoves.endJogs_leaves _).2.2

/-- R149, R155: what comes before the halt of a track: the groups that take the halt first, and the tracks before it. -/
def Part.haltBefore (p : Part) (a : List Trk) : Part :=
  ((p.draw 8).forEach (allGroups.filter p.haltsFirst) fun p g => p.stopGroup g .halt).forEach a Part.haltTrack

/-- R155: what comes after it: the tracks after it, the groups, and the jogs. -/
def Part.haltAfter (p : Part) (b : List Trk) : Part :=
  ((p.forEach b Part.haltTrack).forEach allGroups fun p g => p.stopGroup g .halt).endJogs fun _ => true

/-- The halt of one track stands between the halts of others. -/
theorem Part.windDown_splits (p : Part) (t : Trk) :
    ∃ a b : List Trk, t ∉ a ∧ t ∉ b ∧ p.windDown = ((p.haltBefore a).haltTrack t).haltAfter b := by
  obtain ⟨a, b, split⟩ := List.append_of_mem (mem_allTracks t)
  have apart := allTracks_nodup
  rw [split, List.nodup_middle, List.nodup_cons, List.mem_append, not_or] at apart
  obtain ⟨⟨before, after⟩, -⟩ := apart
  refine ⟨a, b, before, after, ?_⟩
  rw [Part.windDown_eq, Part.windMoves, split, Part.forEach_append, Part.forEach_cons]
  rfl

/-- Once a track has taken its halt with no group left in its play, the rest of the halt leaves it alone. -/
theorem Part.haltAfter_idle {b : List Trk} (out : t ∉ b) (p : Part) : p.IdleTrack (p.haltAfter b) t := by
  have tracks : p.IdleTrack (p.forEach b Part.haltTrack) t :=
    .forEach b (fun q u mem => .haltTrack q fun same => out (by rw [same]; exact mem)) p
  have groups (q : Part) : q.IdleTrack (q.forEach allGroups fun p g => p.stopGroup g .halt) t :=
    .forEach allGroups (fun q g _ => .stopGroup q g (by decide)) q
  exact (tracks.trans (groups _)).trans (.same (.endJogs _ _ t))

theorem Part.haltBefore_idle {a : List Trk} (out : t ∉ a) (p : Part) : p.IdleTrack (p.haltBefore a) t := by
  have drawn : p.IdleTrack (p.draw 8) t := .same ⟨rfl, rfl⟩
  have groups : (p.draw 8).IdleTrack ((p.draw 8).forEach (allGroups.filter p.haltsFirst) fun p g => p.stopGroup g .halt) t :=
    .forEach _ (fun q g _ => .stopGroup q g (by decide)) _
  exact (drawn.trans groups).trans (.forEach a (fun q u mem => .haltTrack q fun same => out (by rw [same]; exact mem)) _)

theorem Part.haltBefore_plays {a : List Trk} (out : t ∉ a) (playing : (p.track t).inPlay = true)
    (arrived : ∀ g ∈ (p.track t).arrived, g ∈ (p.track t).playing) : p.PlaysDown (p.haltBefore a) t := by
  have drawn : p.PlaysDown (p.draw 8) t := ⟨.draw p 8, .inl ⟨rfl, rfl, arrived, fun _ => id, fun _ mem _ => mem⟩⟩
  exact Part.forEach_inv (P := fun q => p.PlaysDown q t) (drawn.stopGroups playing _ (by decide))
    fun q u mem down => down.haltTrack playing fun same => out (by rw [same]; exact mem)

/-- R148, R149: a halt ends a play. -/
theorem Part.windDown_plays (playing : (p.track t).inPlay = true) (arrived : ∀ g ∈ (p.track t).arrived, g ∈ (p.track t).playing) :
    p.PlayedOut p.windDown t ∧ (p.windDown.track t).origins = Vector.replicate 8 none := by
  obtain ⟨a, b, before, after, split⟩ := p.windDown_splits t
  obtain ⟨-, plays⟩ := Part.haltBefore_plays before playing arrived
  obtain ⟨out, origins⟩ := plays.halted playing
  have later := ((p.haltBefore a).haltTrack t).haltAfter_idle after
  rw [split]
  refine ⟨out.idle later, ?_⟩
  rw [(later out.playing).1]
  exact origins

theorem Part.windDown_idle (resting : (p.track t).inPlay = false) (idle : (p.track t).playing = []) :
    p.windDown.track t = { p.track t with origins := Vector.replicate 8 none }
      ∧ p.windDown.codes.tracks[t] = p.codes.tracks[t] := by
  obtain ⟨a, b, before, after, split⟩ := p.windDown_splits t
  obtain ⟨track, code⟩ := p.haltBefore_idle before idle
  have own := Part.haltTrack_resting_own (q := p.haltBefore a) (t := t) (by rw [track]; exact resting)
  have unset : ((p.haltBefore a).haltTrack t).track t = { p.track t with origins := Vector.replicate 8 none } := by
    rw [own, Part.modTrack_track_self, track]
  obtain ⟨track', code'⟩ := ((p.haltBefore a).haltTrack t).haltAfter_idle after (by rw [unset]; exact idle)
  rw [split]
  refine ⟨track'.trans unset, code'.trans ?_⟩
  rw [own]
  exact code

/-- R148: after a halt no track plays. -/
theorem Part.windDown_rests (p : Part) (t : Trk) : (p.windDown.track t).inPlay = false := by
  obtain ⟨a, b, -, -, split⟩ := p.windDown_splits t
  have rests := (p.haltBefore a).haltTrack_rests t
  rw [split]
  generalize (p.haltBefore a).haltTrack t = q at rests
  have tracks : Part.Wound (fun _ _ => True) q (q.forEach b Part.haltTrack) :=
    Part.forEach_inv (P := fun r => Part.Wound (fun _ _ => True) q r) .start fun _ _ _ before =>
      before.haltTrack (fun _ _ => trivial) fun _ _ => trivial
  have groups : Part.Wound (fun _ _ => True) q ((q.forEach b Part.haltTrack).forEach allGroups fun p g => p.stopGroup g .halt) :=
    Part.forEach_inv (P := fun r => Part.Wound (fun _ _ => True) q r) tracks fun _ _ _ before =>
      before.stopGroup (fun _ _ => trivial) trivial (by decide)
  unfold Part.haltAfter
  rw [(Part.SameTrack.endJogs _ _ t).1]
  exact (groups.lessens t).rests rests

end Moves

end Sys2Proof.Machine
end

section
set_option Elab.async false
/-! PROOFS. The commands that halt the device, and what their takings leave (R151, R155 to R157, R160, R170). -/

namespace Sys2Proof.Machine

/-! ### The part when the mode has changed -/

/-- The part once a halt has changed the mode, and no block has taken it yet. -/
structure Part.AtHalt (p h : Part) (stop : Bool) (cause : ModeCause) : Prop where
  kept : Kept p h [.samples, .groups, .queues, .clock, .tracks]
  chans : ∀ c, (p.chan c).Like (h.chan c)
  bare : p.ctl.mode = .parked → ∀ c, (h.chan c).watchBaseline = none
  ctl : h.ctl = { p.ctl with
    mode := .halted, mainPower := false, powerGoodTimer := none, silenceDisarm := false, estop := p.ctl.estop || stop }
  codes : h.codes = { p.codes with mode := some (.modeChange .halted p.ctl.mode cause) }

/-- R155: what the blocks make of it. -/
structure Part.WentDown (h q : Part) : Prop where
  chans : ∀ c, q.chan c = h.windDown.chan c
  groups : ∀ g, q.group g = h.windDown.group g
  queues : ∀ g, q.queue g = (h.queue g).halt
  tracks : ∀ t, q.track t = h.windDown.track t
  codes : q.codes = h.windDown.codes
  clock : q.clock = h.clock
  ctl : q.ctl = h.ctl
  ports : ∀ c, (q.port c).output.brakeReleased = false ∧ (q.port c).output.run = false ∧ (q.port c).output.demand = 0

section Halting
variable {p b q : Part} {stop : Bool} {cause : ModeCause}

/-- R110: PARKED is left without its watch baselines. -/
theorem Part.changeMode_bare {new : DeviceMode} (parked : b.ctl.mode = .parked) (leaves : new ≠ .parked) (c : Chan) :
    ((b.changeMode new cause).chan c).watchBaseline = none := by
  have same : (b.changeMode new cause).chan c = (b.changeBaselines b.ctl.mode new).chan c := by
    rw [Part.changeMode_eq]
    rfl
  rw [same, parked, Part.changeBaselines, if_neg leaves, if_pos rfl, Part.dropBaselines_chan]

theorem Part.toHalted_bare (parked : b.ctl.mode = .parked) (c : Chan) : ((b.toHalted cause).chan c).watchBaseline = none := by
  unfold Part.toHalted
  exact Part.changeMode_bare (by rw [Part.modCtl_ctl]; exact parked) (by decide) c

/-- What a command has done to the part before it halts the device. -/
structure Part.Halting (p b : Part) (stop : Bool) : Prop where
  kept : Kept p b [.channels, .samples, .groups, .queues, .clock, .tracks, .codes]
  ctl : { b.ctl with powerGoodTimer := none, silenceDisarm := false }
    = { p.ctl with powerGoodTimer := none, silenceDisarm := false, estop := p.ctl.estop || stop }

theorem Part.Halting.mode (h : p.Halting b stop) : b.ctl.mode = p.ctl.mode := by
  have mode := congrArg ModeCtl.mode h.ctl
  exact mode

theorem Part.Halting.atHalt (h : p.Halting b stop) (cause : ModeCause) : p.AtHalt (b.toHalted cause) stop cause := by
  have channels : Kept p b [.channels] := h.kept.mono (by simp)
  have codes : b.codes = p.codes := h.kept .codes (by simp)
  refine ⟨(h.kept.mono (by simp)).trans (b.toHalted_kept cause), fun c => ?_, fun parked c => ?_, ?_, ?_⟩
  · rw [← channels.chan c]
    exact b.toHalted_like cause c
  · exact Part.toHalted_bare (h.mode.trans parked) c
  · rw [Part.toHalted_ctl]
    have ctl := congrArg (fun m : ModeCtl => { m with mode := .halted, mainPower := false }) h.ctl
    exact ctl
  · rw [Part.toHalted_codes, codes, h.mode]

/-- A taking that ends with a halt, and the drive of the ports. -/
theorem Part.halt_wentDown (off : b.ctl.mode ≠ .halted)
    (kept : Kept (b.halt cause) q [.channels, .groups, .queues, .clock, .tracks, .codes, .ctl])
    (ports : ∀ c, q.port c = (b.halt cause).drive.port c) : (b.toHalted cause).WentDown q := by
  rw [Part.halt_eq off] at kept ports
  have mode : (b.toHalted cause).ctl.mode = .halted := by rw [Part.toHalted_ctl]
  have winds := (b.toHalted cause).windDown_winds
  have queues := (b.toHalted cause).windDown.haltQueues_kept
  have halted := (b.toHalted cause).windDown.haltQueues_queue
  generalize b.toHalted cause = h at *
  generalize h.windDown.haltQueues = x at *
  have all : Kept h.windDown q [.channels, .groups, .clock, .tracks, .codes, .ctl] := (queues.mono (by simp)).trans (kept.mono (by simp))
  have ctl : h.windDown.ctl = h.ctl := (winds.ctl (by rw [mode]; decide) (.inl (by rw [mode]; decide))).1
  have clock : Kept h q [.clock] := (winds.kept.mono (by simp)).trans (all.mono (by simp))
  have channels : Kept h.windDown q [.channels] := all.mono (by simp)
  have groups : Kept h.windDown q [.groups] := all.mono (by simp)
  have tracks : Kept h.windDown q [.tracks] := all.mono (by simp)
  have later : Kept x q [.queues] := kept.mono (by simp)
  have before : Kept h h.windDown [.queues] := winds.kept.mono (by simp)
  have same : q.ctl = h.windDown.ctl := all .ctl (by simp)
  refine ⟨channels.chan, groups.group, fun g => ?_, tracks.track, all .codes (by simp), clock .clock (by simp), same.trans ctl,
    fun c => ?_⟩
  · rw [later.queue, halted, before.queue]
  · have off : x.releases c = false := by
      have same : x.ctl = h.windDown.ctl := queues .ctl (by simp)
      unfold Part.releases
      rw [same, ctl, mode]
      rfl
    rw [ports, Part.drive_port]
    exact (PortOutput.isSafe_iff _).mp (Part.outputOf_safe off)

end Halting

/-! ### The four commands -/

/-- R155 to R157: what a halt's command leaves. -/
theorem takesHalt_takes {i : Instr} {cause : ModeCause} {s : State} (free : s.part.ctl.held = false)
    (off : s.part.ctl.mode ≠ .halted) (takes : TakesHalt i s cause) : ∃ h q, exec i s = .next { s with part := q }
      ∧ s.part.AtHalt h (i == .emergencyStopAssert) cause ∧ h.WentDown q
      ∧ (∀ l tier, i = .halt l tier [] → q.Accepted l 0x05 [modeCode .halted])
      ∧ (∀ l tier, i = .broadcastHalt l tier [] → (q.link l).answering = none) := by
  have all (b : Part) (cause : ModeCause) : Kept (b.halt cause) (b.halt cause).drive
      [.channels, .groups, .queues, .clock, .tracks, .codes, .ctl] :=
    (Kept.refl _ _).drive
  have frame (l : Link) : s.part.Halting (s.part.frameTaken l) false := by
    refine ⟨(s.part.frameTaken_kept l).mono (by simp), ?_⟩
    rw [Part.frameTaken_ctl, Bool.or_false]
  have judged (l : Link) (tier : Nat) : judgeHalt l tier [] (s.part.frameTaken l)
      = .accepted [modeCode .halted] ((s.part.frameTaken l).halt .haltRequest) := by
    unfold judgeHalt
    rw [((s.part.frameTaken l).halt_halts .haltRequest).mode]
  rcases takes with ⟨l, tier, rfl, ready, low, rfl⟩ | ⟨l, tier, rfl, ready, low, rfl⟩ | ⟨rfl, rfl⟩ | ⟨rfl, due, rfl⟩
  · have halting := frame l
    refine ⟨_, _, rfl, halting.atHalt .haltRequest, ?_, fun m u same => ?_, nofun⟩
    · dsimp only
      rw [Part.judged_driven_accepts ready (by simp) rfl low (judged l _)]
      exact Part.halt_wentDown (by rw [halting.mode]; exact off) ((all _ _).answer _ _ _ _ _) fun c => by rw [Part.answer_port]
    · cases same
      dsimp only
      rw [Part.judged_driven_accepts ready (by simp) rfl low (judged l _)]
      exact Part.answer_accepted ..
  · have halting := frame l
    have verdict : (s.part.frameTaken l).verdictOf l tier [] (lengthIs 0) judgeHalt.driven
        = .accepted [modeCode .halted] ((s.part.frameTaken l).halt .haltRequest).drive := by
      rw [Part.verdictOf_fits _ rfl low]
      exact Judge.driven_accepted (judged l _)
    refine ⟨_, _, rfl, halting.atHalt .haltRequest, ?_, nofun, fun m u same => ?_⟩
    · dsimp only
      rw [Part.broadcast_ready ready tier (by simp), verdict]
      exact Part.halt_wentDown (by rw [halting.mode]; exact off) (all _ _) fun _ => rfl
    · cases same
      dsimp only
      rw [Part.broadcast_ready ready tier (by simp), verdict]
      dsimp only
      rw [Part.drive_link, ((Part.Judges.halt (s.part.frameTaken l) .haltRequest).links l).same, Part.frameTaken_link_self]
      exact ready.2
  · have halting : s.part.Halting s.part.assertStop true := by
      refine ⟨s.part.assertStop_kept.mono (by simp), ?_⟩
      rw [Part.assertStop_ctl, Bool.or_true]
    refine ⟨_, _, exec_emergencyStopAssert s, halting.atHalt .emergencyStop, ?_, nofun, nofun⟩
    dsimp only
    rw [Part.awake_of_free (by rw [Part.assertStop_ctl]; exact free)]
    exact Part.halt_wentDown (by rw [halting.mode]; exact off) (all _ _) fun _ => rfl
  · have halting : s.part.Halting (s.part.modCtl fun m => { m with powerGoodTimer := none }) false := by
      refine ⟨by simp [Kept, Block.Kept], ?_⟩
      rw [Part.modCtl_ctl, Bool.or_false]
    refine ⟨_, _, rfl, halting.atHalt .powerLoss, ?_, nofun, nofun⟩
    dsimp only
    rw [Part.awake_of_free free, if_pos ((Timer.out_iff _).mpr due)]
    exact Part.halt_wentDown (by rw [halting.mode]; exact off) (all _ _) fun _ => rfl

end Sys2Proof.Machine
end

section
set_option Elab.async false
/-! PROOFS. A halt taken in any mode but HALTED (R81 to R84, R127, R145, R148, R149, R151, R155 to R157, R170). -/

namespace Sys2Proof.Machine

section AtHalt
variable {p h q : Part} {stop : Bool} {cause : ModeCause} {g : Grp}

theorem Part.AtHalt.group (a : p.AtHalt h stop cause) (g : Grp) : h.group g = p.group g := (a.kept.mono (by simp)).group g
theorem Part.AtHalt.queue (a : p.AtHalt h stop cause) (g : Grp) : h.queue g = p.queue g := (a.kept.mono (by simp)).queue g
theorem Part.AtHalt.track (a : p.AtHalt h stop cause) (t : Trk) : h.track t = p.track t := (a.kept.mono (by simp)).track t

theorem Part.AtHalt.mode (a : p.AtHalt h stop cause) : h.ctl.mode = .halted := by rw [a.ctl]

theorem Part.AtHalt.underway (a : p.AtHalt h stop cause) (g : Grp) : h.Underway g ↔ p.Underway g := by
  unfold Part.Underway
  rw [a.group]
  exact exists_congr fun ln => and_congr_right fun _ => by rw [(a.chans ln.channel).state]

theorem Part.AtHalt.apart (a : p.AtHalt h stop cause) (law : p.OwnershipLaw) : h.Apart := by
  intro g active ln lane
  rw [a.group] at active lane
  exact (a.chans ln.channel).mover.trans (law.apart g active ln lane)

end AtHalt

theorem haltStopsEveryBlock : Claims.HaltStopsEveryBlock := by
  intro i cause s free off takes
  obtain ⟨h, q, taken, at_, down, accepted, unanswered⟩ := takesHalt_takes free off takes
  have winds := h.windDown_winds
  have stills := h.windDown_stills
  have clock : h.clock = s.part.clock := at_.kept .clock (by simp)
  have codes := (winds.ctl (by rw [at_.mode]; decide) (.inl (by rw [at_.mode]; decide))).2
  refine ⟨q, taken, down.ctl.trans at_.ctl, ?_, down.clock.trans clock, fun c => ?_, fun g => ?_, fun t => ?_, accepted, unanswered⟩
  · rw [down.codes, codes, at_.codes]
  · obtain ⟨brake, run, demand⟩ := down.ports c
    have wound := winds.chans c
    have like := at_.chans c
    rw [down.chans]
    refine ⟨brake, run, demand, fun k => ?_, wound.fault.trans like.fault, ?_, fun unmarked => ?_, fun parked => ?_⟩
    · rw [Part.windDown_eq]
      exact Part.endJogs_ends _ c k
    · exact wound.config.trans (Channel.Winds.like like).config
    · have owner : (h.chan c).owner = (s.part.chan c).owner ∧ (h.chan c).releaseOnEnd = false := by
        unfold Channel.Like at like
        rw [like]
        exact ⟨rfl, unmarked⟩
      rcases wound.owner with ⟨same, -⟩ | ⟨-, same⟩
      · exact same.trans owner.1
      · rw [same, owner.2]
        exact owner.1
    · rw [(h.windDown_baselines (by rw [at_.mode]; decide)).same]
      exact at_.bare parked c
  · rw [down.groups, down.queues, at_.queue]
    refine ⟨h.windDown_active g, by rw [winds.lanes, at_.group], fun rests => ?_, rfl⟩
    rw [stills.groups g ?_, at_.group]
    rw [at_.group]
    rcases rests with e | e | e | e <;> simp [Group.active, e]
  · have lessens := h.windDown_lessens t
    have rests := h.windDown_rests t
    obtain ⟨waypoints, owner, bound⟩ := lessens.kept
    rw [down.tracks]
    rw [at_.track] at waypoints owner bound
    refine ⟨fun playing => ?_, fun starved => ?_, waypoints, owner, bound⟩
    · simp [Track.inPlay, playing] at rests
    · simp [Track.inPlay, starved] at rests

theorem haltStopsTheMoves : Claims.HaltStopsTheMoves := by
  intro i cause g s free off takes
  obtain ⟨h, q, taken, at_, down, -, -⟩ := takesHalt_takes free off takes
  refine ⟨q, taken, fun inactive => ?_, fun m active move => ?_⟩
  · rw [down.groups, h.windDown_stills.groups g (by rw [at_.group]; exact inactive), at_.group]
  · intro stopped
    obtain ⟨r, may, reached⟩ := h.windDown_reached (g := g) (by rw [at_.group]; exact active)
    have code : q.codes.groups[g] = h.windDown.codes.groups[g] := by rw [down.codes]
    have old : h.codes.groups[g] = s.part.codes.groups[g] := by rw [at_.codes]
    have stops (moves : s.part.Underway g) : stopped r := by
      have group := reached.underway ((at_.underway g).mpr moves)
      rw [at_.group, move] at group
      exact (down.groups g).trans group
    refine ⟨fun ln lane => ?_, fun out => ?_, fun plays => ?_⟩
    · have rests := reached.stops ln (by rw [at_.group]; exact lane)
      rw [down.chans]
      simpa [Channel.live] using rests
    · have halt : r = .halt := by
        rcases may with e | ⟨-, t, mem⟩ | ⟨-, t, -, mem, -⟩
        · exact e
        · rw [at_.track] at mem
          exact absurd mem (out t)
        · rw [at_.track] at mem
          exact absurd mem (out t)
      subst halt
      refine ⟨stops, fun law rests n source => ?_⟩
      obtain ⟨group, told⟩ := reached.held (at_.apart law) (fun moves => rests ((at_.underway g).mp moves)) (by decide) m n
        (by rw [at_.group]; exact move) source
      rw [at_.group] at group
      exact ⟨code.trans told, (down.groups g).trans group⟩
    · have reason : r = .halt ∨ r = .request := by
        rcases may with e | ⟨e, -⟩ | ⟨-, t, closing, mem, k, other, apart⟩
        · exact .inl e
        · exact .inr e
        · rw [at_.track] at closing mem other
          rcases plays t mem with opened | alone
          · rw [opened] at closing
            cases closing
          · rw [alone, List.mem_singleton] at other
            exact absurd other apart
      refine ⟨fun moves => ?_, fun law rests t source => ?_⟩
      · rcases reason with rfl | rfl
        · exact .inl (stops moves)
        · exact .inr (stops moves)
      · have mild : r ≠ .fault := by rcases reason with rfl | rfl <;> decide
        obtain ⟨group, told⟩ := reached.idle (at_.apart law) (fun moves => rests ((at_.underway g).mp moves)) mild m t
          (by rw [at_.group]; exact move) source
        rw [at_.group] at group
        exact ⟨code.trans (told.trans old), (down.groups g).trans group⟩

theorem haltEndsThePlays : Claims.HaltEndsThePlays := by
  intro i cause t s free off takes
  obtain ⟨h, q, taken, at_, down, -, -⟩ := takesHalt_takes free off takes
  have code : q.codes.tracks[t] = h.windDown.codes.tracks[t] := by rw [down.codes]
  have old : h.codes.tracks[t] = s.part.codes.tracks[t] := by rw [at_.codes]
  refine ⟨q, taken, fun playing arrived => ?_, fun resting idle => ?_⟩
  · have inPlay : (h.track t).inPlay = true := by
      rw [at_.track]
      rcases playing with e | e <;> simp [Track.inPlay, e]
    obtain ⟨out, origins⟩ := h.windDown_plays inPlay (by rw [at_.track]; exact arrived)
    have track := out.track
    have tier := out.tier
    have told := out.told
    rw [origins] at track
    rw [at_.track] at track tier told
    rw [down.tracks, code]
    refine ⟨track, fun ⟨g, mem, moves⟩ => tier ⟨g, mem, (at_.underway g).mpr moves⟩, fun alone => ?_, ?_⟩
    · rcases told with stopped | ⟨-, closing, g, mem, k, other, apart⟩
      · exact stopped
      · rcases alone with opened | ⟨i, alone⟩
        · rw [opened] at closing
          cases closing
        · rw [alone, List.mem_singleton] at mem other
          exact absurd (mem.trans other.symm) apart
    · exact told.imp_right And.left
  · obtain ⟨track, same⟩ := h.windDown_idle (t := t) (by
      rw [at_.track]
      rcases resting with e | e <;> simp [Track.inPlay, e]) (by rw [at_.track]; exact idle)
    rw [at_.track] at track
    exact ⟨(down.tracks t).trans track, code.trans (same.trans old)⟩

theorem refusedBroadcastHaltsNothing : Claims.RefusedBroadcastHaltsNothing := by
  intro l tier body s ready short bad
  have refused : ∃ code, (s.part.frameTaken l).verdictOf l tier body (lengthIs 0) judgeHalt.driven = .refused code 0xFF := by
    by_cases bare : body = []
    · subst bare
      exact ⟨_, Part.verdictOf_tier_above _ rfl (bad.resolve_left fun some_ => some_ rfl)⟩
    · exact ⟨_, Part.verdictOf_misfit _ (by simpa [lengthIs] using bare)⟩
  obtain ⟨code, refused⟩ := refused
  refine ⟨_, rfl, ?_⟩
  dsimp only
  rw [Part.broadcast_ready ready tier short, refused]
  exact ⟨(s.part.frameTaken_kept l).mono (by simp), Part.frameTaken_link_self .., fun _ => (s.part.frameTaken_kept l).mono (by simp)⟩

/-- Settles O30: a halt ends every move, play and jog, in the order of its blocks, and a refused one does nothing. -/
theorem haltTakesEverythingDown : Obligations.HaltTakesEverythingDown :=
  ⟨haltStopsEveryBlock, haltStopsTheMoves, haltEndsThePlays, refusedBroadcastHaltsNothing⟩

end Sys2Proof.Machine
end
